-- ==== Sys2Proof/Word.lean ====
section
/-! DEFINITION. The word types of the QN8100 and its plainest arithmetic: words, bytes, bit fields, the byte order of memory
(00 R3, R4). -/

namespace Sys2Proof

/-- 64 bits: a general register, a doubleword, a control register. -/
abbrev Word := BitVec 64
/-- One byte of memory. -/
abbrev Byte := BitVec 8
/-- A line of 128 bytes (07 R180); byte k is bits 8k+7 to 8k. -/
abbrev Line := BitVec 1024
/-- A logical processor, or its triad (06 R143). -/
abbrev Tri := Fin 32
/-- A 6-bit register field of an instruction word (02 R55). -/
abbrev Reg := BitVec 6

/-- Bits [h:l] of a word as a number (00 R3). -/
def bits (w : Word) (h l : Nat) : Nat := (w.toNat >>> l) % 2 ^ (h + 1 - l)

/-- Bit i of a word. -/
def bit (w : Word) (i : Nat) : Bool := w.toNat.testBit i

/-- The word w with bits [h:l] replaced by v. -/
def putBits (w : Word) (h l : Nat) (v : Nat) : Word :=
  let m := (2 ^ (h + 1 - l) - 1) <<< l
  BitVec.ofNat 64 ((w.toNat &&& (2 ^ 64 - 1 - m)) ||| ((v % 2 ^ (h + 1 - l)) <<< l))

/-- A Bool as a number. -/
def b2n (b : Bool) : Nat := if b then 1 else 0

/-- The little-endian number of a list of bytes (00 R4). -/
def leNat : List Byte → Nat
  | [] => 0
  | b :: bs => b.toNat + 256 * leNat bs

/-- The n little-endian bytes of a number (00 R4). -/
def leBytes : Nat → Nat → List Byte
  | 0, _ => []
  | n + 1, v => BitVec.ofNat 8 v :: leBytes n (v / 256)

end Sys2Proof
end

