-- ==== Sys2Proof/Operand.lean ====
section
/-! DEFINITION. Plain types that the operands of the commands use. Register fields are raw bits of the instruction word (02 R55),
so a value the encoding forbids (02 R56, R58, 03 R90) can be commanded and raises Reserved Instruction. -/

namespace Sys2Proof

/-- Where an instruction command stands: its logical processor, its slot of the bundle (02 R44) and whether it is the last one
sent of its bundle. Slots that no command names hold NOP. -/
structure Issue where
  lp : Tri
  slot : Fin 4
  last : Bool
  deriving DecidableEq, Repr

/-- An inbound PCIe request (12 R337, R339): a read of n bytes, a write, an ATS Translation Request, an INTx message. -/
inductive PciReq where
  | read (n : Nat)
  | write (data : List Byte)
  | translate
  | intx
  deriving DecidableEq, Repr

/-- How a configuration request ends (12 R338). -/
inductive CfgAnswer where
  | success (data : BitVec 32)
  | unsupported
  | abort
  | retry
  | timeout
  deriving DecidableEq, Repr

/-- A device access of an LP (09 R251): its load, the store at the head of its store buffer, or a posted write, counted from the
oldest. -/
inductive DevAccess where
  | load
  | store
  | posted (i : Nat)
  deriving DecidableEq, Repr

/-- A tick-counted interval of the module (01 R31): a device access of an LP, the quiet interval of a fault class, LOGIN or keepalive
of a path of a session, PATH_WAIT or RESUME_TICKS of a session. -/
inductive IntervalKind where
  | device (n : Tri) (acc : DevAccess)
  | quiet (k : Fin 16)
  | login (session path : Nat)
  | keepalive (session path : Nat)
  | pathWait (session : Nat)
  | resume (session : Nat)
  deriving DecidableEq, Repr

/-- Positions of a triad (06 R145). -/
inductive Role where
  | lead | second | third
  deriving DecidableEq, Repr

/-- What the cores of a triad bring to the voter for one record (06 R153). Which values the cores computed is the environment's;
KIND and ITEM are those of TRD_LAST_MISMATCH. -/
inductive Ballot where
  | agree
  /-- One core differs or is late. `regs` are the ITEM codes of the differing register writes if nothing else differs, else
  none (06 R154). -/
  | odd (role : Role) (kind : BitVec 4) (item : BitVec 8) (regs : List (BitVec 8))
  /-- No two agree. -/
  | none (kind : BitVec 4) (item : BitVec 8)
  | voterFault
  deriving DecidableEq, Repr

/-! ### A start of the module (19 R482): what the environment brings to it -/

/-- A slot of the boot flash: its bytes from offset 0 on, and whether the signature in it verifies (16 R435, 19 R493). -/
structure FlashSlot where
  bytes : List Byte
  sigOk : Bool
  deriving DecidableEq, Repr

/-- What is behind a memory link: capacity in units of 4 GiB (0: not populated), the protocol version the two sides share (0:
none), the lanes that train, whether saved parameters suffice, and whether the buffer has stayed powered. -/
structure LinkEnv where
  cap : Nat
  version : Nat
  width : Nat
  saved : Bool
  kept : Bool
  deriving DecidableEq, Repr

/-- A capacity is a power of two from 16 GiB to 512 GiB, in units of 4 GiB (10 R261). -/
def LinkEnv.sized (e : LinkEnv) : Bool := [4, 8, 16, 32, 64, 128].contains e.cap

/-- A start. Cores are 32 × die + core; engines, pipelines and dies are listed by number. Entry p of `ports` is the STATE a Span
port trains to (0: nothing connected), entry 4n + r of `roots` is 0 with nothing attached, 1 for a link that trains, 2 for one that
fails. Entry n - 1 of `times` is the duration of step n in µs. -/
structure StartEnv where
  fwA : FlashSlot
  fwB : FlashSlot
  patchA : FlashSlot
  patchB : FlashSlot
  badPlls : List Nat
  badDies : List Nat
  badCores : List Nat
  links : List LinkEnv
  badGranules : List Nat
  ports : List Nat
  roots : List Nat
  badEngines : List Nat
  badPipes : List Nat
  rngOk : Bool
  times : List Nat
  deriving DecidableEq, Repr

/-- A retry: the ITEM code of what differed, and the voted-state words that the reload finds with an uncorrectable error (06 R156, R170,
R171). -/
structure RetryItem where
  item : BitVec 8
  lost : List (BitVec 9)
  deriving DecidableEq, Repr

/-- A frame as it arrives: 0 good, 1 with a CRC error, 2 with an uncorrectable codeword, 3 an IDLE without a number; on VC1 or VC0 (12 R320
to R322). -/
structure FrameHead where
  kind : Fin 4
  vc1 : Bool
  deriving DecidableEq, Repr

/-- The path a debug request arrives on (20 R506). -/
inductive DbgPath where
  | jtag | service
  deriving DecidableEq, Repr

/-- What every debug request carries besides its operation (20 R507). -/
structure DbgReq where
  path : DbgPath
  triad : BitVec 8
  tag : BitVec 16
  addr : Word
  data : Word
  deriving DecidableEq, Repr

end Sys2Proof
end

