-- ==== Sys2Proof/Syntax.lean ====
section
/-! DEFINITION. The commands: one constructor for each row of the opcode table. An instruction command names its place in a bundle
(`at_`); an event command brings with it what the environment decides. Session numbers have 12 bits, rings 14, slots of the key store
13, journal slots 16; `p` counts partitions from 0 where a row is per partition. -/

namespace Sys2Proof

/-- A command of the QN8100. -/
inductive Instr where
  /-- `add rd, ra, rb` (R76). -/
  | add (at_ : Issue) (rd : Reg) (ra : Reg) (rb : Reg)
  /-- `sub rd, ra, rb` (R76). -/
  | sub (at_ : Issue) (rd : Reg) (ra : Reg) (rb : Reg)
  /-- `and rd, ra, rb` (R59). -/
  | and (at_ : Issue) (rd : Reg) (ra : Reg) (rb : Reg)
  /-- `or rd, ra, rb` (R59). -/
  | or (at_ : Issue) (rd : Reg) (ra : Reg) (rb : Reg)
  /-- `xor rd, ra, rb` (R59). -/
  | xor (at_ : Issue) (rd : Reg) (ra : Reg) (rb : Reg)
  /-- `andn rd, ra, rb` (R76). -/
  | andn (at_ : Issue) (rd : Reg) (ra : Reg) (rb : Reg)
  /-- `sll rd, ra, rb` (R76). -/
  | sll (at_ : Issue) (rd : Reg) (ra : Reg) (rb : Reg)
  /-- `srl rd, ra, rb` (R76). -/
  | srl (at_ : Issue) (rd : Reg) (ra : Reg) (rb : Reg)
  /-- `sra rd, ra, rb` (R76). -/
  | sra (at_ : Issue) (rd : Reg) (ra : Reg) (rb : Reg)
  /-- `rol rd, ra, rb` (R76). -/
  | rol (at_ : Issue) (rd : Reg) (ra : Reg) (rb : Reg)
  /-- `slt rd, ra, rb` (R76). -/
  | slt (at_ : Issue) (rd : Reg) (ra : Reg) (rb : Reg)
  /-- `sltu rd, ra, rb` (R76). -/
  | sltu (at_ : Issue) (rd : Reg) (ra : Reg) (rb : Reg)
  /-- `min rd, ra, rb` (R76). -/
  | min (at_ : Issue) (rd : Reg) (ra : Reg) (rb : Reg)
  /-- `max rd, ra, rb` (R76). -/
  | max (at_ : Issue) (rd : Reg) (ra : Reg) (rb : Reg)
  /-- `minu rd, ra, rb` (R76). -/
  | minu (at_ : Issue) (rd : Reg) (ra : Reg) (rb : Reg)
  /-- `maxu rd, ra, rb` (R76). -/
  | maxu (at_ : Issue) (rd : Reg) (ra : Reg) (rb : Reg)
  /-- `cmov.z rd, ra, rb` (R103). -/
  | cmovZ (at_ : Issue) (rd : Reg) (ra : Reg) (rb : Reg)
  /-- `cmov.nz rd, ra, rb` (R103). -/
  | cmovNz (at_ : Issue) (rd : Reg) (ra : Reg) (rb : Reg)
  /-- `sel.z rd, ra, rb` (R103). -/
  | selZ (at_ : Issue) (rd : Reg) (ra : Reg) (rb : Reg)
  /-- `sel.nz rd, ra, rb` (R103). -/
  | selNz (at_ : Issue) (rd : Reg) (ra : Reg) (rb : Reg)
  /-- `mul rd, ra, rb` (R76). -/
  | mul (at_ : Issue) (rd : Reg) (ra : Reg) (rb : Reg)
  /-- `mulh rd, ra, rb` (R76). -/
  | mulh (at_ : Issue) (rd : Reg) (ra : Reg) (rb : Reg)
  /-- `mulhu rd, ra, rb` (R76). -/
  | mulhu (at_ : Issue) (rd : Reg) (ra : Reg) (rb : Reg)
  /-- `div rd, ra, rb` (R77). -/
  | div (at_ : Issue) (rd : Reg) (ra : Reg) (rb : Reg)
  /-- `divu rd, ra, rb` (R77). -/
  | divu (at_ : Issue) (rd : Reg) (ra : Reg) (rb : Reg)
  /-- `rem rd, ra, rb` (R77). -/
  | rem (at_ : Issue) (rd : Reg) (ra : Reg) (rb : Reg)
  /-- `remu rd, ra, rb` (R77). -/
  | remu (at_ : Issue) (rd : Reg) (ra : Reg) (rb : Reg)
  /-- `addi rd, ra, imm` (R56). -/
  | addi (at_ : Issue) (rd : Reg) (ra : Reg) (imm : BitVec 14)
  /-- `andi rd, ra, imm` (R56). -/
  | andi (at_ : Issue) (rd : Reg) (ra : Reg) (imm : BitVec 14)
  /-- `ori rd, ra, imm` (R56). -/
  | ori (at_ : Issue) (rd : Reg) (ra : Reg) (imm : BitVec 14)
  /-- `xori rd, ra, imm` (R56). -/
  | xori (at_ : Issue) (rd : Reg) (ra : Reg) (imm : BitVec 14)
  /-- `slti rd, ra, imm` (R56). -/
  | slti (at_ : Issue) (rd : Reg) (ra : Reg) (imm : BitVec 14)
  /-- `sh.i rd, ra, imm` (R57). -/
  | shI (at_ : Issue) (rd : Reg) (ra : Reg) (imm : BitVec 14)
  /-- `ldi rd, imm` (R57). -/
  | ldi (at_ : Issue) (rd : Reg) (imm : BitVec 20)
  /-- `ldi.sh rd, imm` (R57). -/
  | ldiSh (at_ : Issue) (rd : Reg) (imm : BitVec 20)
  /-- `bf.ext rd, ra, pos, len` (R60). -/
  | bfExt (at_ : Issue) (rd : Reg) (ra : Reg) (pos : BitVec 6) (len1 : BitVec 6)
  /-- `bf.exts rd, ra, pos, len` (R60). -/
  | bfExts (at_ : Issue) (rd : Reg) (ra : Reg) (pos : BitVec 6) (len1 : BitVec 6)
  /-- `bf.ins rd, ra, pos, len` (R60). -/
  | bfIns (at_ : Issue) (rd : Reg) (ra : Reg) (pos : BitVec 6) (len1 : BitVec 6)
  /-- `clz rd, ra` (R61). -/
  | clz (at_ : Issue) (rd : Reg) (ra : Reg)
  /-- `ctz rd, ra` (R61). -/
  | ctz (at_ : Issue) (rd : Reg) (ra : Reg)
  /-- `popc rd, ra` (R61). -/
  | popc (at_ : Issue) (rd : Reg) (ra : Reg)
  /-- `perm.b rd, ra, rb` (R61). -/
  | permB (at_ : Issue) (rd : Reg) (ra : Reg) (rb : Reg)
  /-- `crc.step.32 rd, ra, rb` (R62). -/
  | crcStep32 (at_ : Issue) (rd : Reg) (ra : Reg) (rb : Reg)
  /-- `crc.step.32c rd, ra, rb` (R62). -/
  | crcStep32c (at_ : Issue) (rd : Reg) (ra : Reg) (rb : Reg)
  /-- `crc.step.64 rd, ra, rb` (R62). -/
  | crcStep64 (at_ : Issue) (rd : Reg) (ra : Reg) (rb : Reg)
  /-- `par.d rd, ra` (R63). -/
  | parD (at_ : Issue) (rd : Reg) (ra : Reg)
  /-- `par.b rd, ra` (R63). -/
  | parB (at_ : Issue) (rd : Reg) (ra : Reg)
  /-- `brev.d rd, ra` (R63). -/
  | brevD (at_ : Issue) (rd : Reg) (ra : Reg)
  /-- `brev.b rd, ra` (R63). -/
  | brevB (at_ : Issue) (rd : Reg) (ra : Reg)
  /-- `ld.b rt, disp(base)` (R51). -/
  | ldB (at_ : Issue) (rt : Reg) (base : Reg) (disp : BitVec 14)
  /-- `ld.bs rt, disp(base)` (R51). -/
  | ldBs (at_ : Issue) (rt : Reg) (base : Reg) (disp : BitVec 14)
  /-- `ld.h rt, disp(base)` (R51). -/
  | ldH (at_ : Issue) (rt : Reg) (base : Reg) (disp : BitVec 14)
  /-- `ld.hs rt, disp(base)` (R51). -/
  | ldHs (at_ : Issue) (rt : Reg) (base : Reg) (disp : BitVec 14)
  /-- `ld.w rt, disp(base)` (R51). -/
  | ldW (at_ : Issue) (rt : Reg) (base : Reg) (disp : BitVec 14)
  /-- `ld.ws rt, disp(base)` (R51). -/
  | ldWs (at_ : Issue) (rt : Reg) (base : Reg) (disp : BitVec 14)
  /-- `ld.d rt, disp(base)` (R51). -/
  | ldD (at_ : Issue) (rt : Reg) (base : Reg) (disp : BitVec 14)
  /-- `ld.fd rt, disp(base)` (R57). -/
  | ldFd (at_ : Issue) (rt : Reg) (base : Reg) (disp : BitVec 14)
  /-- `ld.fs rt, disp(base)` (R57). -/
  | ldFs (at_ : Issue) (rt : Reg) (base : Reg) (disp : BitVec 14)
  /-- `ldx.b rd, ra, rb` (R59). -/
  | ldxB (at_ : Issue) (rd : Reg) (ra : Reg) (rb : Reg)
  /-- `ldx.bs rd, ra, rb` (R59). -/
  | ldxBs (at_ : Issue) (rd : Reg) (ra : Reg) (rb : Reg)
  /-- `ldx.h rd, ra, rb` (R59). -/
  | ldxH (at_ : Issue) (rd : Reg) (ra : Reg) (rb : Reg)
  /-- `ldx.hs rd, ra, rb` (R59). -/
  | ldxHs (at_ : Issue) (rd : Reg) (ra : Reg) (rb : Reg)
  /-- `ldx.w rd, ra, rb` (R59). -/
  | ldxW (at_ : Issue) (rd : Reg) (ra : Reg) (rb : Reg)
  /-- `ldx.ws rd, ra, rb` (R59). -/
  | ldxWs (at_ : Issue) (rd : Reg) (ra : Reg) (rb : Reg)
  /-- `ldx.d rd, ra, rb` (R59). -/
  | ldxD (at_ : Issue) (rd : Reg) (ra : Reg) (rb : Reg)
  /-- `st.b rt, disp(base)` (R233). -/
  | stB (at_ : Issue) (rt : Reg) (base : Reg) (disp : BitVec 14)
  /-- `st.h rt, disp(base)` (R233). -/
  | stH (at_ : Issue) (rt : Reg) (base : Reg) (disp : BitVec 14)
  /-- `st.w rt, disp(base)` (R233). -/
  | stW (at_ : Issue) (rt : Reg) (base : Reg) (disp : BitVec 14)
  /-- `st.d rt, disp(base)` (R233). -/
  | stD (at_ : Issue) (rt : Reg) (base : Reg) (disp : BitVec 14)
  /-- `st.fs rt, disp(base)` (R57). -/
  | stFs (at_ : Issue) (rt : Reg) (base : Reg) (disp : BitVec 14)
  /-- `st.fd rt, disp(base)` (R57). -/
  | stFd (at_ : Issue) (rt : Reg) (base : Reg) (disp : BitVec 14)
  /-- `stx.b rd, ra, rb` (R59). -/
  | stxB (at_ : Issue) (rd : Reg) (ra : Reg) (rb : Reg)
  /-- `stx.h rd, ra, rb` (R59). -/
  | stxH (at_ : Issue) (rd : Reg) (ra : Reg) (rb : Reg)
  /-- `stx.w rd, ra, rb` (R59). -/
  | stxW (at_ : Issue) (rd : Reg) (ra : Reg) (rb : Reg)
  /-- `stx.d rd, ra, rb` (R59). -/
  | stxD (at_ : Issue) (rd : Reg) (ra : Reg) (rb : Reg)
  /-- `ld.nt.d rd, ra, rb` (R184). -/
  | ldNtD (at_ : Issue) (rd : Reg) (ra : Reg) (rb : Reg)
  /-- `st.nt.d rd, ra, rb` (R245). -/
  | stNtD (at_ : Issue) (rd : Reg) (ra : Reg) (rb : Reg)
  /-- `cas.d rd, ra, rb` (R243). -/
  | casD (at_ : Issue) (rd : Reg) (ra : Reg) (rb : Reg)
  /-- `cas.q rd, ra, rb` (R243). -/
  | casQ (at_ : Issue) (rd : Reg) (ra : Reg) (rb : Reg)
  /-- `amo.swap.d rd, ra, rb` (R243). -/
  | amoSwapD (at_ : Issue) (rd : Reg) (ra : Reg) (rb : Reg)
  /-- `amo.add.d rd, ra, rb` (R243). -/
  | amoAddD (at_ : Issue) (rd : Reg) (ra : Reg) (rb : Reg)
  /-- `amo.and.d rd, ra, rb` (R243). -/
  | amoAndD (at_ : Issue) (rd : Reg) (ra : Reg) (rb : Reg)
  /-- `amo.or.d rd, ra, rb` (R243). -/
  | amoOrD (at_ : Issue) (rd : Reg) (ra : Reg) (rb : Reg)
  /-- `bar.full rd, ra, rb` (R247). -/
  | barFull (at_ : Issue) (rd : Reg) (ra : Reg) (rb : Reg)
  /-- `bar.st rd, ra, rb` (R247). -/
  | barSt (at_ : Issue) (rd : Reg) (ra : Reg) (rb : Reg)
  /-- `fadd` of binary64 (d) or binary32 (R93). -/
  | fadd (at_ : Issue) (d : Bool) (fd : Reg) (fa : Reg) (fb : Reg)
  /-- `fsub` of binary64 (d) or binary32 (R93). -/
  | fsub (at_ : Issue) (d : Bool) (fd : Reg) (fa : Reg) (fb : Reg)
  /-- `fmul` of binary64 (d) or binary32 (R93). -/
  | fmul (at_ : Issue) (d : Bool) (fd : Reg) (fa : Reg) (fb : Reg)
  /-- `fdiv` of binary64 (d) or binary32 (R93). -/
  | fdiv (at_ : Issue) (d : Bool) (fd : Reg) (fa : Reg) (fb : Reg)
  /-- `fsqrt` (R93). -/
  | fsqrt (at_ : Issue) (d : Bool) (fd : Reg) (fa : Reg)
  /-- `fmin` of binary64 (d) or binary32 (R93). -/
  | fmin (at_ : Issue) (d : Bool) (fd : Reg) (fa : Reg) (fb : Reg)
  /-- `fmax` of binary64 (d) or binary32 (R93). -/
  | fmax (at_ : Issue) (d : Bool) (fd : Reg) (fa : Reg) (fb : Reg)
  /-- `fcmp.eq` (R93). -/
  | fcmpEq (at_ : Issue) (d : Bool) (rd : Reg) (fa : Reg) (fb : Reg)
  /-- `fcmp.lt` (R93). -/
  | fcmpLt (at_ : Issue) (d : Bool) (rd : Reg) (fa : Reg) (fb : Reg)
  /-- `fcmp.le` (R93). -/
  | fcmpLe (at_ : Issue) (d : Bool) (rd : Reg) (fa : Reg) (fb : Reg)
  /-- `fclass` (R93). -/
  | fclass (at_ : Issue) (d : Bool) (rd : Reg) (fa : Reg)
  /-- `fcvt.l` (R94). -/
  | fcvtL (at_ : Issue) (d : Bool) (rd : Reg) (fa : Reg)
  /-- `fcvt.lu` (R94). -/
  | fcvtLu (at_ : Issue) (d : Bool) (rd : Reg) (fa : Reg)
  /-- `fcvt.fl` (R93). -/
  | fcvtFl (at_ : Issue) (d : Bool) (fd : Reg) (ra : Reg)
  /-- `fcvt.flu` (R93). -/
  | fcvtFlu (at_ : Issue) (d : Bool) (fd : Reg) (ra : Reg)
  /-- `fcvt.p` (R93). -/
  | fcvtP (at_ : Issue) (d : Bool) (fd : Reg) (fa : Reg)
  /-- `fmv.gf` (R93). -/
  | fmvGf (at_ : Issue) (d : Bool) (fd : Reg) (ra : Reg)
  /-- `fmv.fg` (R93). -/
  | fmvFg (at_ : Issue) (d : Bool) (rd : Reg) (fa : Reg)
  /-- `fma` (R93). -/
  | fma (at_ : Issue) (d : Bool) (fd : BitVec 5) (fa : BitVec 5) (fb : BitVec 5) (fc : BitVec 5)
  /-- `fms` (R93). -/
  | fms (at_ : Issue) (d : Bool) (fd : BitVec 5) (fa : BitVec 5) (fb : BitVec 5) (fc : BitVec 5)
  /-- `fnma` (R93). -/
  | fnma (at_ : Issue) (d : Bool) (fd : BitVec 5) (fa : BitVec 5) (fb : BitVec 5) (fc : BitVec 5)
  /-- `fnms` (R93). -/
  | fnms (at_ : Issue) (d : Bool) (fd : BitVec 5) (fa : BitVec 5) (fb : BitVec 5) (fc : BitVec 5)
  /-- `mac.q15 acc, ra, rb` (R83). -/
  | macQ15 (at_ : Issue) (acc : Reg) (ra : Reg) (rb : Reg)
  /-- `mac.q31 acc, ra, rb` (R83). -/
  | macQ31 (at_ : Issue) (acc : Reg) (ra : Reg) (rb : Reg)
  /-- `mac.q63 acc, ra, rb` (R83). -/
  | macQ63 (at_ : Issue) (acc : Reg) (ra : Reg) (rb : Reg)
  /-- `msu.q15 acc, ra, rb` (R83). -/
  | msuQ15 (at_ : Issue) (acc : Reg) (ra : Reg) (rb : Reg)
  /-- `msu.q31 acc, ra, rb` (R83). -/
  | msuQ31 (at_ : Issue) (acc : Reg) (ra : Reg) (rb : Reg)
  /-- `msu.q63 acc, ra, rb` (R83). -/
  | msuQ63 (at_ : Issue) (acc : Reg) (ra : Reg) (rb : Reg)
  /-- `acc.clr acc` (R85). -/
  | accClr (at_ : Issue) (acc : Reg)
  /-- `acc.add acc, ra, rb` (R84). -/
  | accAdd (at_ : Issue) (acc : Reg) (ra : Reg) (rb : Reg)
  /-- `ext.q15 rd, acc` (R87). -/
  | extQ15 (at_ : Issue) (rd : Reg) (acc : Reg)
  /-- `ext.q31 rd, acc` (R87). -/
  | extQ31 (at_ : Issue) (rd : Reg) (acc : Reg)
  /-- `ext.q63 rd, acc` (R87). -/
  | extQ63 (at_ : Issue) (rd : Reg) (acc : Reg)
  /-- `acc.rdl rd, acc` (R85). -/
  | accRdl (at_ : Issue) (rd : Reg) (acc : Reg)
  /-- `acc.rdm rd, acc` (R85). -/
  | accRdm (at_ : Issue) (rd : Reg) (acc : Reg)
  /-- `acc.rdh rd, acc` (R85). -/
  | accRdh (at_ : Issue) (rd : Reg) (acc : Reg)
  /-- `acc.wrl acc, ra` (R85). -/
  | accWrl (at_ : Issue) (acc : Reg) (ra : Reg)
  /-- `acc.wrm acc, ra` (R85). -/
  | accWrm (at_ : Issue) (acc : Reg) (ra : Reg)
  /-- `acc.wrh acc, ra` (R85). -/
  | accWrh (at_ : Issue) (acc : Reg) (ra : Reg)
  /-- `b.z ra, disp` (R99). -/
  | bZ (at_ : Issue) (ra : Reg) (disp : BitVec 20)
  /-- `b.nz ra, disp` (R99). -/
  | bNz (at_ : Issue) (ra : Reg) (disp : BitVec 20)
  /-- `b.lt ra, disp` (R99). -/
  | bLt (at_ : Issue) (ra : Reg) (disp : BitVec 20)
  /-- `b.ge ra, disp` (R99). -/
  | bGe (at_ : Issue) (ra : Reg) (disp : BitVec 20)
  /-- `jmp rd, disp` (R99). -/
  | jmp (at_ : Issue) (rd : Reg) (disp : BitVec 20)
  /-- `jr rd, ra` (R99). -/
  | jr (at_ : Issue) (rd : Reg) (ra : Reg)
  /-- `lp.set level, ra, end` (R106). -/
  | lpSet (at_ : Issue) (level : BitVec 2) (ra : Reg) (endOff : BitVec 18)
  /-- `mfcr rd, num` (R42). -/
  | mfcr (at_ : Issue) (rd : Reg) (num : BitVec 9)
  /-- `mtcr num, ra` (R42). -/
  | mtcr (at_ : Issue) (num : BitVec 9) (ra : Reg)
  /-- `sys.call` (R123). -/
  | sysCall (at_ : Issue)
  /-- `sys.brk` (R123). -/
  | sysBrk (at_ : Issue)
  /-- `eret` (R139). -/
  | eret (at_ : Issue)
  /-- `wait` (R142). -/
  | wait (at_ : Issue)
  /-- `dz.clr` (R78). -/
  | dzClr (at_ : Issue)
  /-- `cm.cl rd, ra, rb` (R201). -/
  | cmCl (at_ : Issue) (rd : Reg) (ra : Reg) (rb : Reg)
  /-- `cm.inv rd, ra, rb` (R201). -/
  | cmInv (at_ : Issue) (rd : Reg) (ra : Reg) (rb : Reg)
  /-- `cm.cli rd, ra, rb` (R201). -/
  | cmCli (at_ : Issue) (rd : Reg) (ra : Reg) (rb : Reg)
  /-- `cm.cl.r rd, ra, rb` (R203). -/
  | cmClR (at_ : Issue) (rd : Reg) (ra : Reg) (rb : Reg)
  /-- `cm.inv.r rd, ra, rb` (R203). -/
  | cmInvR (at_ : Issue) (rd : Reg) (ra : Reg) (rb : Reg)
  /-- `cm.cli.r rd, ra, rb` (R203). -/
  | cmCliR (at_ : Issue) (rd : Reg) (ra : Reg) (rb : Reg)
  /-- `cm.cl.sw rd, ra, rb` (R204). -/
  | cmClSw (at_ : Issue) (rd : Reg) (ra : Reg) (rb : Reg)
  /-- `cm.inv.sw rd, ra, rb` (R204). -/
  | cmInvSw (at_ : Issue) (rd : Reg) (ra : Reg) (rb : Reg)
  /-- `cm.cli.sw rd, ra, rb` (R204). -/
  | cmCliSw (at_ : Issue) (rd : Reg) (ra : Reg) (rb : Reg)
  /-- `cm.isync rd, ra, rb` (R205). -/
  | cmIsync (at_ : Issue) (rd : Reg) (ra : Reg) (rb : Reg)
  /-- `cm.lkfill rd, ra, rb` (R195). -/
  | cmLkfill (at_ : Issue) (rd : Reg) (ra : Reg) (rb : Reg)
  /-- `tlb.inv.va rd, ra, rb` (R227). -/
  | tlbInvVa (at_ : Issue) (rd : Reg) (ra : Reg) (rb : Reg)
  /-- `tlb.inv.asid rd, ra, rb` (R227). -/
  | tlbInvAsid (at_ : Issue) (rd : Reg) (ra : Reg) (rb : Reg)
  /-- `tlb.inv.all rd, ra, rb` (R227). -/
  | tlbInvAll (at_ : Issue) (rd : Reg) (ra : Reg) (rb : Reg)
  /-- `tlb.inv.pra rd, ra, rb` (R227). -/
  | tlbInvPra (at_ : Issue) (rd : Reg) (ra : Reg) (rb : Reg)
  /-- `tlb.inv.part rd, ra, rb` (R227). -/
  | tlbInvPart (at_ : Issue) (rd : Reg) (ra : Reg) (rb : Reg)
  /-- `blk.mv rd, ra, rb`, run for at most `budget` units before the next event is looked for (R67). -/
  | blkMv (at_ : Issue) (rd : Reg) (ra : Reg) (rb : Reg) (budget : Nat)
  /-- `blk.cmp rd, ra, rb`, run for at most `budget` units before the next event is looked for (R66). -/
  | blkCmp (at_ : Issue) (rd : Reg) (ra : Reg) (rb : Reg) (budget : Nat)
  /-- `blk.crc.32 rd, ra, rb`, run for at most `budget` units before the next event is looked for (R66). -/
  | blkCrc32 (at_ : Issue) (rd : Reg) (ra : Reg) (rb : Reg) (budget : Nat)
  /-- `blk.crc.32c rd, ra, rb`, run for at most `budget` units before the next event is looked for (R66). -/
  | blkCrc32c (at_ : Issue) (rd : Reg) (ra : Reg) (rb : Reg) (budget : Nat)
  /-- `blk.crc.64 rd, ra, rb`, run for at most `budget` units before the next event is looked for (R66). -/
  | blkCrc64 (at_ : Issue) (rd : Reg) (ra : Reg) (rb : Reg) (budget : Nat)
  /-- `cmpx rd, ra, rb`, run for at most `budget` units before the next event is looked for (R373). -/
  | cmpx (at_ : Issue) (rd : Reg) (ra : Reg) (rb : Reg) (budget : Nat)
  /-- `cphx rd, ra, rb`, run for at most `budget` units before the next event is looked for (R402). -/
  | cphx (at_ : Issue) (rd : Reg) (ra : Reg) (rb : Reg) (budget : Nat)
  /-- The bundle boundary of LP n looks for events, and the first that applies is taken (05 R127, R133). -/
  | exceptionEntry (n : Tri)
  /-- The voter decides on the oldest record of triad n (06 R148 to R154). -/
  | voterRelease (n : Tri) (b : Ballot)
  /-- Records without a majority: the cores go back to the voted state (06 R156, R157). -/
  | instructionRetry (n : Tri) (kind : BitVec 4) (item : RetryItem)
  /-- The freeze of a resynchronisation; `recopied` are the marked granules that the recopy passes have copied again (06 R160, R161,
  R163). -/
  | resyncFreeze (n : Tri) (recopied : List Nat) (copyFails : Bool)
  /-- The self-test of the spare brought in ends (06 R167, R168). -/
  | spareSubstitution (n : Tri) (ok : Bool)
  /-- TRD_CTL.RECOVER; `failed` are the cores that do not pass their self-test (06 R173). -/
  | trdCtlRecover (n : Tri) (failed : List Nat)
  /-- TRD_CTL.START (06 R173). -/
  | trdCtlStart (n : Tri)
  /-- A read of TRD_VS_DATA, or a write (06 R172, R174). -/
  | trdVsDataAccess (n : Tri) (wr : Option Word)
  /-- TRD_PRED_CTL orders a flush of the near predictors (04 R117). -/
  | flushNear (n : Tri)
  /-- TRD_PRED_CTL orders a flush of the shared predictors (04 R117). -/
  | flushShared (n : Tri)
  /-- Partition firmware sets pending bits (05 R125). -/
  | trdIntPendWrite (n : Tri) (k : Fin 4) (v : Word)
  /-- The store buffer performs its oldest entry (09 R233 to R235, R250). -/
  | storePerformed (n : Tri)
  /-- A combining line drains (09 R246). -/
  | combiningBufferDrain (n : Tri) (line : Nat)
  /-- A device answers an access (09 R250 to R252). -/
  | deviceAccessAnswer (n : Tri) (acc : DevAccess) (ok : Bool) (data : Word)
  /-- The interval of a device access ends (09 R251, R252). -/
  | deviceTimeout (n : Tri) (acc : DevAccess)
  /-- The reply to an L2 miss (07 R191 to R195). -/
  | cacheFill (n : Tri) (line : Nat)
  /-- A miss leaves the L2, and the directory serves it (07 R186). -/
  | directoryRequest (n : Tri) (line : Nat)
  /-- A victim-buffer write is acknowledged (07 R197). -/
  | victimBufferAck (n : Tri) (entry : Nat)
  /-- A die-to-die flit fails after four replays (01 R15). -/
  | d2dFlitFail (die : Fin 4) (dir : Bool)
  /-- The next boundary (01 R30). -/
  | tickBoundary
  /-- A tick-counted interval expires (01 R31). -/
  | intervalExpiry (k : IntervalKind)
  /-- HUB_TICK_PERIOD (01 R26). -/
  | hubTickPeriodWrite (v : Word)
  /-- A TICK_IN edge (01 R35). -/
  | tickInEdge
  /-- Four periods without an accepted edge (01 R35). -/
  | tickInLost
  /-- HUB_ORDER_MODE (09 R238). -/
  | hubOrderModeWrite (v : Word)
  /-- A write of any control-space register by a requester of a partition (01 R18). -/
  | registerWrite (part : BitVec 6) (addr : Word) (size : Nat) (v : Word)
  /-- PF_WARN_N (01 R33, 10 R263, R272, R278). -/
  | pfWarnNAssert
  /-- 50 µs after the power-fail boundary (10 R267). -/
  | quiesceStoreLimit
  /-- Quiesce ends; the contexts are written (10 R264, R269). -/
  | quiesceEnd
  /-- Phase 3 ends; persistent lines are written back (10 R270). -/
  | contextsWritten
  /-- Phase 4 ends; the other lines are written back (10 R270). -/
  | persistentWritebackEnd
  /-- Phase 5 ends; self-refresh is commanded (10 R271). -/
  | writebackEnd
  /-- A buffer acknowledges self-refresh, or 20 µs have passed (10 R271). -/
  | selfRefreshAck (m : Fin 16) (ok : Bool)
  /-- PF_WARN_N has stayed deasserted for 1 ms (10 R272, 19 R499). -/
  | pfWarnNQuiet
  /-- PWROK falls (19 R479). -/
  | pwrokFall
  /-- RESET_N is asserted (19 R479). -/
  | resetNAssert
  /-- VDD_AON comes up (19 R479, R480). -/
  | alwaysOnPowerGood
  /-- Keystone runs the start that is due (19 R482). -/
  | chipReset (env : StartEnv)
  /-- Keystone runs the start that is due, and step + 1 exceeds its limit (19 R482). -/
  | keystoneStepLimit (step : Fin 20) (env : StartEnv)
  /-- A change of the start journal reaches the flash (19 R490). -/
  | journalFlashWrite
  /-- KST_CTL.CLEAR_ATTEMPTS (19 R487). -/
  | clearAttempts
  /-- KST_CTL.RETRY_OPT (19 R486). -/
  | retryOpt
  /-- KST_CTL.FLUSH (19 R490). -/
  | flush
  /-- A memory link loses a lane (10 R259). -/
  | memLaneDegrade (m : Fin 16)
  /-- A memory link fails (10 R259). -/
  | memLinkFail (m : Fin 16)
  /-- A corrected DRAM error (10 R262). -/
  | memCe (addr : Word)
  /-- An uncorrectable DRAM error (10 R262). -/
  | memUe (addr : Word)
  /-- CSS_DBL_n (11 R283). -/
  | cssDblWrite (line : Fin 1024) (v : Word)
  /-- The subsystem reads a watched line again (11 R284). -/
  | doorbellReread (line : Fin 1024)
  /-- CREATE of a ring (11 R288 to R291). -/
  | createRing (ring : BitVec 14)
  /-- DESTROY of a ring (11 R292). -/
  | destroyRing (ring : BitVec 14)
  /-- The last operation of a draining ring has completed (11 R292). -/
  | destroyEnd (ring : BitVec 14)
  /-- RETARGET of a ring (11 R292). -/
  | retargetRing (ring : BitVec 14)
  /-- RESUME of a ring (11 R292). -/
  | resumeRing (ring : BitVec 14)
  /-- QUERY of a ring (11 R292, R316). -/
  | queryRing (ring : BitVec 14)
  /-- CSS_JRNL of partition p + 1 (11 R306). -/
  | cssJrnlWrite (p : Fin 32) (v : Word)
  /-- The next submission entry of a ring is admitted (11 R295 to R301). -/
  | entryAdmission (ring : BitVec 14)
  /-- The next submission entry of a ring, if it is a NOP, is admitted (11 R295). -/
  | opNop (ring : BitVec 14)
  /-- The next submission entry of a ring, if it is a READ, is admitted (11 R295). -/
  | opRead (ring : BitVec 14)
  /-- The next submission entry of a ring, if it is a WRITE, is admitted (11 R295). -/
  | opWrite (ring : BitVec 14)
  /-- The next submission entry of a ring, if it is a CONTROL, is admitted (11 R295). -/
  | opControl (ring : BitVec 14)
  /-- The next submission entry of a ring, if it is a COMPRESS, is admitted (11 R295). -/
  | opCompress (ring : BitVec 14)
  /-- The next submission entry of a ring, if it is a DECOMPRESS, is admitted (11 R295). -/
  | opDecompress (ring : BitVec 14)
  /-- The next submission entry of a ring, if it is a CIPHER, is admitted (11 R295). -/
  | opCipher (ring : BitVec 14)
  /-- A PREPARED operation of partition p + 1 is issued (11 R308). -/
  | operationIssue (p : Fin 32) (slot : BitVec 16)
  /-- A path of a session has failed (11 R311). -/
  | pathFailed (session : BitVec 12) (path : Fin 8)
  /-- PATH_WAIT of a session ends (11 R312). -/
  | pathWaitExpiry (session : BitVec 12)
  /-- RESUME_TICKS of a session ends (11 R533). -/
  | resumeTicksExpiry (session : BitVec 12)
  /-- HUB_PMT of partition p + 1 (11 R532). -/
  | hubPmtWriteResume (p : Fin 32) (v : Word)
  /-- A journal entry of partition p + 1 is written back (11 R309). -/
  | journalWriteback (p : Fin 32) (slot : BitVec 16)
  /-- A Span port loses a lane (12 R320). -/
  | spnLaneDegrade (port : Tri)
  /-- A Span port fails (12 R320). -/
  | spnPortFail (port : Tri) (cause : BitVec 16)
  /-- A training of a Span port ends (12 R320). -/
  | portRetrain (port : Tri) (ok : Bool)
  /-- A REPLAY_REQ is received (12 R322). -/
  | replayReq (port : Tri) (lsn : BitVec 16)
  /-- No ACK_LSN progress for 10 µs (12 R322). -/
  | ackTimeoutReplay (port : Tri)
  /-- A frame arrives: good, with a CRC error, with an uncorrectable codeword, or IDLE; on VC1 or VC0 (12 R320 to R322). -/
  | frameReceive (port : Tri) (kind : FrameHead) (lsn : BitVec 16) (ack : BitVec 16) (cr0 : BitVec 16) (cr1 : BitVec 16)
  /-- The answer to a port's FABRIC login (12 R323). -/
  | fabricLogin (port : Tri) (peer : Bool) (v : Word)
  /-- An ARRIVE report (12 R323). -/
  | arrive (port : Tri) (faddr : BitVec 24) (name : Word)
  /-- A DEPART report (12 R331). -/
  | depart (port : Tri) (faddr : BitVec 24)
  /-- OPEN of a session with its block at addr (12 R329). -/
  | openSess (session : BitVec 12) (addr : Word)
  /-- MODIFY of a session (12 R329). -/
  | modifySess (session : BitVec 12) (addr : Word)
  /-- CLOSE of a session (12 R329). -/
  | closeSess (session : BitVec 12)
  /-- QUERY of a session (12 R329). -/
  | sessionQuery (session : BitVec 12) (addr : Word)
  /-- A login is accepted (12 R330). -/
  | loginAccept (session : BitVec 12) (path : Fin 8) (mask : BitVec 8) (name : Word)
  /-- A login is rejected (12 R330). -/
  | loginReject (session : BitVec 12) (path : Fin 8) (reason : BitVec 8)
  /-- A LOGIN has been unanswered for 2 ticks (12 R330). -/
  | loginTimeout (session : BitVec 12) (path : Fin 8)
  /-- A LOGOUT from the partner (12 R331). -/
  | logout (session : BitVec 12) (path : Fin 8) (whole : Bool)
  /-- A KEEPALIVE is received (12 R334). -/
  | keepalive (session : BitVec 12) (path : Fin 8)
  /-- A path had no frame for KA_TICKS ticks (12 R331). -/
  | keepaliveTimeout (session : BitVec 12) (path : Fin 8)
  /-- A partner's answer (11 R313, 12 R335). -/
  | answer (session : BitVec 12) (path : Fin 8) (seq : Word) (epoch : BitVec 32) (count : BitVec 32) (result : Word)
  /-- Data of a READ (12 R328, R335). -/
  | data (session : BitVec 12) (path : Fin 8) (seq : Word) (epoch : BitVec 32) (frameNo : BitVec 32) (bytes : List Byte)
  /-- An inbound request of a root port (12 R339). -/
  | inboundRequest (n : Fin 4) (r : Fin 4) (rid : BitVec 16) (addr : Word) (req : PciReq) (claim : Nat)
  /-- A write to the message window (12 R340). -/
  | messageInterrupt (n : Fin 4) (r : Fin 4) (rid : BitVec 16) (off : BitVec 20) (data : BitVec 32)
  /-- PCI_CFG_ADDR: a configuration read (12 R338). -/
  | pciCfgAddrWrite (v : Word)
  /-- PCI_CFG_DATA: a configuration write (12 R338). -/
  | pciCfgDataWrite (v : Word)
  /-- A configuration request ends or is retried (12 R338). -/
  | configCompletion (ans : CfgAnswer)
  /-- PCI_RIDT.INV (12 R339). -/
  | invRid (n : Fin 4)
  /-- The link of a root port goes down (12 R341). -/
  | pciLinkDown (n : Fin 4) (r : Fin 4)
  /-- The first queued compression request is placed (13 R344). -/
  | engineRequestPlacement
  /-- An engine has done a slice of 64 KiB (13 R344). -/
  | sliceBoundary (e : Fin 8)
  /-- The served request ends: in its slice, or by the verifier (true) or the staging (false) failing (13 R345, R350, R375). -/
  | engineCompletion (e : Fin 8) (upset : Option Bool)
  /-- The first queued cipher request that has a place is placed (14 R391). -/
  | cipherRequestPlacement
  /-- The suspended class-0 message resumes (14 R392). -/
  | class0Resume (e : Fin 8)
  /-- Pipeline e works on its message, if it is ENCRYPT, for up to `blocks` blocks (14 R378). -/
  | encrypt (e : Fin 8) (blocks : Nat)
  /-- Pipeline e works on its message, if it is DECRYPT, for up to `blocks` blocks (14 R378). -/
  | decrypt (e : Fin 8) (blocks : Nat)
  /-- Pipeline e works on its message, if it is MAC_GEN, for up to `blocks` blocks (14 R378). -/
  | macGen (e : Fin 8) (blocks : Nat)
  /-- Pipeline e works on its message, if it is MAC_VERIFY, for up to `blocks` blocks (14 R378). -/
  | macVerify (e : Fin 8) (blocks : Nat)
  /-- Pipeline e works on its message, if it is KEY_LOAD, for up to `blocks` blocks (14 R378). -/
  | keyLoad (e : Fin 8) (blocks : Nat)
  /-- Pipeline e works on its message, if it is KEY_GEN, for up to `blocks` blocks (14 R378). -/
  | keyGen (e : Fin 8) (blocks : Nat)
  /-- Pipeline e works on its message, if it is KEY_EXPORT, for up to `blocks` blocks (14 R378). -/
  | keyExport (e : Fin 8) (blocks : Nat)
  /-- Pipeline e works on its message, if it is KEY_CLEAR, for up to `blocks` blocks (14 R378). -/
  | keyClear (e : Fin 8) (blocks : Nat)
  /-- Pipeline e works on its message, if it is RANDOM, for up to `blocks` blocks (14 R378). -/
  | random (e : Fin 8) (blocks : Nat)
  /-- The message of pipeline e reports (14 R389), or its staging fails (R409). -/
  | cipherCompletion (e : Fin 8) (upset : Bool)
  /-- A stretch of zeroing (14 R395). -/
  | authFailZeroing (e : Fin 8) (blocks : Nat)
  /-- CPH_KCMD SEAL_GEN of a slot (14 R384). -/
  | sealGen (slot : BitVec 13)
  /-- CPH_KCMD SEAL_LOAD of a slot (14 R384). -/
  | sealLoad (slot : BitVec 13)
  /-- CPH_KCMD IMPORT of a slot (14 R384). -/
  | keyImport (slot : BitVec 13)
  /-- CPH_KCMD CLEAR of a slot (14 R384). -/
  | clearKey (slot : BitVec 13)
  /-- CPH_KCMD QUERY of a slot (14 R384). -/
  | keyQuery (slot : BitVec 13)
  /-- CPH_KRANGE of partition p + 1 (14 R380). -/
  | cphKrangeWrite (p : Fin 32) (v : Word)
  /-- A read of RNG_DATA (14 R407). -/
  | rngDataRead
  /-- RNG_CTL.RETEST (14 R408). -/
  | retest
  /-- A health test of the source fails (14 R408). -/
  | rngHealthFail (cause : Fin 4)
  /-- HUB_PART_CFG of partition p + 1 (15 R415 to R417). -/
  | hubPartCfgWrite (p : Fin 32) (v : Word)
  /-- HUB_PART_L3Q of partition p + 1 (15 R415 to R417). -/
  | hubPartL3qWrite (p : Fin 32) (v : Word)
  /-- HUB_PART_RES of partition p + 1 (15 R415 to R417). -/
  | hubPartResWrite (p : Fin 32) (v : Word)
  /-- A source raises an event (17 R441, R446, R452). -/
  | faultEvent (src : BitVec 11) (info0 : Word) (idA : BitVec 16) (idB : BitVec 16) (unit : BitVec 7) (part : BitVec 6)
  /-- Software acknowledges a fault class (17 R447). -/
  | unackWrite (k : Fin 16)
  /-- The quiet interval of a class ends (17 R448). -/
  | quietIntervalExpiry (k : Fin 16)
  /-- The REFCLK monitor trips (18 R460). -/
  | refclkMonitorTrip
  /-- The crystal monitor trips (18 R460). -/
  | crystalMonitorTrip
  /-- The crystal is stable (18 R456, R460, R463). -/
  | crystalStartCount
  /-- A PLL stays in holdover (18 R461). -/
  | clkPllUnlock (pll : Fin 49)
  /-- CLK_REF_CTL.RETURN (18 R460). -/
  | returnRef
  /-- CLK_TRD_FREQ of triad n (18 R467). -/
  | clkTrdFreqWrite (n : Tri) (v : Word)
  /-- An AVSBus write is not acknowledged (21 R514). -/
  | avsWriteTimeout (die : Fin 4)
  /-- CLK_GATE (18 R469). -/
  | clkGateWrite (v : Word)
  /-- A deferred closure ends, idle or forced with an access of a partition dropped (18 R470). -/
  | gateClosure (b : Fin 33) (forced : Option (BitVec 6))
  /-- PWR_DOM_d; `failed` are cores that do not pass their self-test on a return (18 R473). -/
  | cmdOff (d : Fin 64) (v : Word) (failed : List Nat)
  /-- A domain is not ON within 100 µs (18 R473). -/
  | pwrDomainFail (d : Fin 64)
  /-- An eligible domain enters an auto state (18 R474). -/
  | idleEntry (d : Fin 64)
  /-- A domain leaves its auto state (18 R475). -/
  | idleExit (d : Fin 64)
  /-- A comparator fires (18 R477). -/
  | todComparatorFire (k : Fin 8)
  /-- Debug request HALT (20 R507 to R509). -/
  | halt (q : DbgReq)
  /-- Debug request DBG_RESUME (20 R507 to R509). -/
  | dbgResume (q : DbgReq)
  /-- Debug request STEP; `budget` bounds the units of a long instruction (06 R179). -/
  | step (q : DbgReq) (budget : Nat)
  /-- Debug request RD_ABS (20 R507 to R509). -/
  | rdAbs (q : DbgReq)
  /-- Debug request WR_ABS (20 R507 to R509). -/
  | wrAbs (q : DbgReq)
  /-- Debug request RD_REG (20 R507 to R509). -/
  | rdReg (q : DbgReq)
  /-- Debug request WR_REG (20 R507 to R509). -/
  | wrReg (q : DbgReq)
  /-- Debug request RD_VMEM (20 R507 to R509). -/
  | rdVmem (q : DbgReq)
  /-- Debug request WR_VMEM (20 R507 to R509). -/
  | wrVmem (q : DbgReq)
  /-- Debug request RD_CS (20 R507 to R509). -/
  | rdCs (q : DbgReq)
  /-- DBG_CTL.LOCK (20 R508). -/
  | lock
  /-- A service-port connection opens (20 R506). -/
  | servicePortConnect
  /-- The sensors are read: 8 readings for each compute die, 4 for the hub (21 R522 to R526). -/
  | sensorRead (readings : List Byte)
  /-- The I2C target returns a byte, left in `bus` (21 R523). -/
  | i2cRead (code : BitVec 8)
  /-- A rail is below its transient limit (21 R528). -/
  | pwrRailUv (rail : BitVec 16) (voltage : BitVec 16)
  /-- REFCLK has been sound for 65,536 cycles (18 R459). -/
  | refclkJudgedSound
  /-- The regulator acknowledges (21 R514). -/
  | voltageWriteAcknowledge (die : Fin 4)
  /-- An AER error (12 R337). -/
  | aerErrorReported (n : Fin 4) (r : Fin 4) (rid : BitVec 16) (uncorr : Bool) (fatal : Bool)
  /-- The service-port connection closes (20 R506). -/
  | servicePortConnectionClose
  /-- A debug request fails its CRC (20 R507). -/
  | debugRequestCrcError (q : DbgReq) (op : BitVec 8)
  /-- VDD_AON or VDD_IO falls (21 R517). -/
  | vddAonFall
  deriving DecidableEq, Repr

end Sys2Proof
end

