-- ==== Sys2Proof/Config.lean ====
section
/-! DEFINITION. What the spec leaves open or an implementation fixes, as constants without a body: nothing in Lean can prove a
value of them, so a statement holds whatever they are. A fresh one is drawn by the counter State.free. -/

namespace Sys2Proof.Config
open Sys2Proof

/-- Update of a two-bit prediction counter by an outcome: 04 R113 says only that the counters have two bits (log entry 5). -/
opaque predUpdate : Nat → Bool → Nat
/-- Which way of its set an L1 fill takes: the spec gives no L1 replacement rule (log entry 6). -/
opaque l1Way : Nat → Fin 4
/-- Which entry a full translation cache gives up: the spec gives no replacement rule (log entry 6). -/
opaque tlbVictim : Nat → Nat

/-- Has the write of a victim-buffer entry been issued when a request or snoop finds it? 07 R197 leaves the drain's pace open (log
entry 6). -/
opaque vbIssued : Nat → Bool
/-- Does an L1I that misses prefetch the following line too? 04 R119 and 07 R193 permit it (log entry 6). -/
opaque l1iPrefetch : Nat → Bool
/-- Addresses of the bundles fetched on a wrong path after its first one, before the mispredicted branch resolves (04 R119, log entry
31). -/
opaque wrongPath : Nat → List Word
/-- Return-stack actions of the bundles on a wrong path: a push of a link, or a pop (04 R115, R119, log entry 31). -/
opaque wrongStack : Nat → List (Option Word)
/-- Longest blocking that the requests of a Trestle class met since HUB_TRS_WORST was last read, in hub cycles (01 R25, log entry 32). -/
opaque trsWorst : Nat → Nat

/-- The match a compressor takes at a position, 65536 × length + distance, from the history (newest byte first) and what is
left of the block: 13 R352 leaves the choice of matches to the engine (log entry 7). Anything that is no match is a literal. -/
opaque lzPick : List Byte → List Byte → Nat
/-- Code lengths a compressor builds for a DEFLATE block from the counts of its 288 + 32 symbols (13 R352, log entry 7). -/
opaque dynLens : List Nat → List Nat
/-- Bits of the header that describes dynamic code lengths, as (value, number of bits) (13 R352, log entry 7). -/
opaque dynHeader : List Nat → List (Nat × Nat)
/-- Code lengths a compressor builds for a CSF numeric block from the counts of its symbols (13 R361, log entry 7). -/
opaque numLens : List Nat → List Nat

/-- Fuse: SPN_MODULE_NAME (12). The spec gives no value of a module's fuses (log entry 8). -/
opaque moduleName : Nat
/-- Fuse: the module's private key d_M of P-384 (14 R401, log entry 8). -/
opaque modKey : Nat
/-- The module save key and the context key of the always-on store (14, log entry 8). -/
opaque saveKey : Nat
/-- Context key of a partition, derived from the save key (14 R400, log entry 8). -/
opaque ctxKey : Nat → Nat
/-- A value of the random source: seeds, keys of unstated origin, nonces (14 R404, log entry 8). -/
opaque entropy : Nat → Nat
/-- Fuse: is a firmware or patch signing key revoked (16 R435, log entry 8)? -/
opaque keyRevoked : Nat → Bool
/-- Fuses: minimum revision of firmware images and of patch images (16 R435, 19 R493, log entry 8). -/
opaque fwMinRev : Nat
opaque patchMinRev : Nat
/-- Word of the micro ROM with its check bits (16 R425, log entry 9). -/
opaque microWord : Nat → Nat
/-- Entry address in the ROM of a kind of work, and a condition of the microcode's own data path by selector and cycle (16 R424, R428,
log entry 9). -/
opaque microEntry : Nat → Nat
opaque microCond : Nat → Nat → Bool
/-- Check bits of a patch word: 16 R425 names the code, not its matrix (log entry 9). -/
opaque microCheck : Nat → Nat
/-- Does a unit pass a self-test that the module repeats by itself (17 R444, log entry 10)? -/
opaque selfTest : Nat → Bool
/-- What a read returns where the spec states no value (log entry 4). -/
opaque freeWord : Nat → Word
/-- Bytes of memory that the spec calls undefined (13 R366): drawing and place (log entry 4). -/
opaque freeByte : Nat → Nat → Byte
/-- Credits that the peer of a Span port grants in a training (12 R322, log entry 20). -/
opaque spanCredit : Nat → Nat
/-- A counter word of a snapshot that the model does not compute, because it counts cycles or traffic of caches and of Trestle
(20 R505, log entry 13): word, label of the bank, chip reset. -/
opaque counterWord : Nat → Nat → Nat → Word

end Sys2Proof.Config
end

