-- ==== Sys2Proof/Machine/IntArith.lean ====
section
/-! DEFINITION. The integer, field and checksum functions of 02 R60 to R63 and 03 R76 to R80, on plain words. -/

namespace Sys2Proof.Machine
open Sys2Proof

/-- Number of leading zero bits, 64 for 0 (02 R61). -/
def clz (a : Word) : Nat := if a.toNat = 0 then 64 else 63 - Nat.log2 a.toNat

/-- Trailing zero bits of n among its low k bits. -/
def ctzBits : Nat → Nat → Nat
  | 0, _ => 0
  | k + 1, n => if n % 2 = 1 then 0 else ctzBits k (n / 2) + 1

/-- Number of trailing zero bits, 64 for 0 (02 R61). -/
def ctz (a : Word) : Nat := ctzBits 64 a.toNat

/-- One bits among the low k bits of n. -/
def onesBits : Nat → Nat → Nat
  | 0, _ => 0
  | k + 1, n => n % 2 + onesBits k (n / 2)

/-- Number of one bits (02 R61). -/
def popc (a : Word) : Nat := onesBits 64 a.toNat

/-- The 64-bit word of a Nat. -/
def w64 (n : Nat) : Word := BitVec.ofNat 64 n

/-- Byte i of a word. -/
def byteOf (a : Word) (i : Nat) : Nat := bits a (8 * i + 7) (8 * i)

/-- The word whose byte i is f i. -/
def mapBytes (f : Nat → Nat) : Word :=
  w64 ((List.range 8).foldl (fun acc i => acc + (f i % 256) <<< (8 * i)) 0)

/-- `perm.b` (02 R61): byte i of the result is the byte of a that selector i of b names, or zero. -/
def permB (a b : Word) : Word :=
  mapBytes fun i => let s := bits b (4 * i + 3) (4 * i); if s < 8 then byteOf a s else 0

/-- The reversed low k bits of n. -/
def revBits : Nat → Nat → Nat
  | 0, _ => 0
  | k + 1, n => (n % 2) <<< k + revBits k (n / 2)

/-- `brev.d` (02 R63). -/
def brevD (a : Word) : Word := w64 (revBits 64 a.toNat)
/-- `brev.b` (02 R63). -/
def brevB (a : Word) : Word := mapBytes fun i => revBits 8 (byteOf a i)
/-- `par.d` (02 R63). -/
def parD (a : Word) : Word := w64 (popc a % 2)
/-- `par.b` (02 R63). -/
def parB (a : Word) : Word :=
  w64 ((List.range 8).foldl (fun acc i => acc + (onesBits 8 (byteOf a i) % 2) <<< i) 0)

/-- Width of a bit field cut at bit 63 (02 R60). -/
def bfWidth (p l : Nat) : Nat := min l (64 - p)

/-- `bf.ext` (02 R60). -/
def bfExt (a : Word) (p l : Nat) : Word := w64 (bits a (p + bfWidth p l - 1) p)
/-- `bf.exts` (02 R60). -/
def bfExts (a : Word) (p l : Nat) : Word :=
  let w := bfWidth p l
  let v := bits a (p + w - 1) p
  if v.testBit (w - 1) then w64 (v + (2 ^ 64 - 2 ^ w)) else w64 v
/-- `bf.ins` (02 R60); d is the old rd. -/
def bfIns (d a : Word) (p l : Nat) : Word := putBits d (p + bfWidth p l - 1) p a.toNat

/-- The reflected polynomials of 02 R62. -/
def poly32 : Nat := 0xEDB88320
/-- CRC-32C. -/
def poly32c : Nat := 0x82F63B78
/-- CRC-64. -/
def poly64 : Nat := 0xC96C5795D7870F42

/-- k steps of a reflected CRC over the low bits of v, least significant first (02 R62). -/
def crcBits (poly : Nat) : Nat → Nat → Nat → Nat
  | 0, c, _ => c
  | k + 1, c, v =>
    let c' := if (c ^^^ v) % 2 = 1 then (c / 2) ^^^ poly else c / 2
    crcBits poly k c' (v / 2)

/-- One byte of a reflected CRC (02 R62, R66). -/
def crcByte (poly : Nat) (c : Nat) (b : Byte) : Nat := crcBits poly 8 c b.toNat
/-- A reflected CRC over bytes, no initial value and no final inversion. -/
def crcBytes (poly : Nat) (c : Nat) (bs : List Byte) : Nat := bs.foldl (crcByte poly) c
/-- `crc.step.32`, `crc.step.32c` (02 R62). -/
def crcStep32 (poly : Nat) (a b : Word) : Word := w64 (crcBits poly 64 (a.toNat % 2 ^ 32) b.toNat)
/-- `crc.step.64` (02 R62). -/
def crcStep64 (a b : Word) : Word := w64 (crcBits poly64 64 a.toNat b.toNat)

/-- `mulh` (03 R76): high 64 bits of the signed product. -/
def mulh (a b : Word) : Word := BitVec.ofInt 64 ((a.toInt * b.toInt) / (2 ^ 64))
/-- `mulhu` (03 R76): high 64 bits of the unsigned product. -/
def mulhu (a b : Word) : Word := w64 ((a.toNat * b.toNat) / 2 ^ 64)

/-- `div` (03 R77): toward zero; −1 for b = 0; −2^63 / −1 wraps. -/
def divS (a b : Word) : Word :=
  if b.toNat = 0 then BitVec.allOnes 64 else BitVec.ofInt 64 (a.toInt.tdiv b.toInt)
/-- `rem` (03 R77): the sign of a; a for b = 0. -/
def remS (a b : Word) : Word :=
  if b.toNat = 0 then a else BitVec.ofInt 64 (a.toInt.tmod b.toInt)
/-- `divu` (03 R77). -/
def divU (a b : Word) : Word := if b.toNat = 0 then BitVec.allOnes 64 else w64 (a.toNat / b.toNat)
/-- `remu` (03 R77). -/
def remU (a b : Word) : Word := if b.toNat = 0 then a else w64 (a.toNat % b.toNat)

/-- Significant bits: 64 − clz (03 R79). -/
def sigBits (n : Nat) : Nat := if n = 0 then 0 else Nat.log2 n + 1

/-- Magnitude of a divide operand, signed or unsigned (03 R79). -/
def magn (signed : Bool) (a : Word) : Nat := if signed then a.toInt.natAbs else a.toNat

/-- Time of an integer divide in core cycles (03 R79, R80). -/
def divTime (ti signed : Bool) (a b : Word) : Nat :=
  if ti then 26
  else
    let q := sigBits (magn signed a) + 1 - sigBits (magn signed b)
    4 + (q + 2) / 3

/-- Signed comparison (03 R76). -/
def sLt (a b : Word) : Bool := decide (a.toInt < b.toInt)
/-- Unsigned comparison (03 R76). -/
def uLt (a b : Word) : Bool := decide (a.toNat < b.toNat)
/-- 1 or 0 in a register. -/
def boolW (b : Bool) : Word := if b then 1 else 0

/-- Shift amount of the R-format shifts: rb[5:0] (03 R76). -/
def shAmt (b : Word) : Nat := b.toNat % 64
/-- Rotate left. -/
def rol (a : Word) (n : Nat) : Word := a.rotateLeft (n % 64)

/-- A 14-bit immediate, sign-extended (02 R56). -/
def sext14 (i : BitVec 14) : Word := i.signExtend 64
/-- A 14-bit immediate, zero-extended (02 R56). -/
def zext14 (i : BitVec 14) : Word := i.zeroExtend 64
/-- A 20-bit immediate, sign-extended (02 R57). -/
def sext20 (i : BitVec 20) : Word := i.signExtend 64

end Sys2Proof.Machine
end

