-- ==== Sys2Proof/Machine/Aes.lean ====
section
/-! DEFINITION. AES and its modes (14 R378): GCM, XTS, CTR, CBC, CMAC, key wrap with padding, CTR_DRBG, and SHA-384 with the
curve P-384 (14 R385). A block is a number of 128 bits, its first byte most significant. -/

namespace Sys2Proof.Machine
open Sys2Proof

/-! ### AES -/

/-- Product in the field of AES. -/
def gf8 : Nat → Nat → Nat → Nat
  | 0, _, _ => 0
  | k + 1, a, b =>
    let a2 := if 2 * a ≥ 256 then (2 * a - 256) ^^^ 0x1B else 2 * a
    (if b % 2 = 1 then a else 0) ^^^ gf8 k a2 (b / 2)

/-- The inverse, as the power 254. -/
def gf8Inv (x : Nat) : Nat :=
  let m := gf8 8
  let x2 := m x x
  let x3 := m x2 x
  let x6 := m x3 x3
  let x12 := m x6 x6
  let x15 := m x12 x3
  let x30 := m x15 x15
  let x60 := m x30 x30
  let x120 := m x60 x60
  let x127 := m (m x120 x6) x
  m x127 x127

/-- Rotation of a byte to the left. -/
def rotl8 (x k : Nat) : Nat := (x * 2 ^ k) % 256 + x / 2 ^ (8 - k)

/-- The substitution box. -/
def sbox (x : Nat) : Nat :=
  let y := gf8Inv x
  y ^^^ rotl8 y 1 ^^^ rotl8 y 2 ^^^ rotl8 y 3 ^^^ rotl8 y 4 ^^^ 0x63

/-- Its inverse. -/
def sboxInv (x : Nat) : Nat :=
  let y := rotl8 x 1 ^^^ rotl8 x 3 ^^^ rotl8 x 6 ^^^ 0x05
  gf8Inv y

/-- Big-endian bytes of a number. -/
def beBytes (k v : Nat) : List Nat := (List.range k).map fun i => v / 256 ^ (k - 1 - i) % 256
/-- The number of big-endian bytes. -/
def beNat (bs : List Nat) : Nat := bs.foldl (fun v b => v * 256 + b) 0

/-- SubWord. -/
def subWord (w : Nat) : Nat := beNat ((beBytes 4 w).map sbox)

/-- Key expansion: words of the schedule, newest first. -/
def keyWords (nk : Nat) : Nat → Nat → Nat → List Nat → List Nat
  | 0, _, _, ws => ws
  | k + 1, i, rcon, ws =>
    let t := ws.headD 0
    let r := (t * 256) % 2 ^ 32 + t / 2 ^ 24
    let (t', rcon') :=
      if i % nk = 0 then (subWord r ^^^ (rcon * 2 ^ 24), gf8 8 rcon 2)
      else if nk = 8 ∧ i % 8 = 4 then (subWord t, rcon) else (t, rcon)
    keyWords nk k (i + 1) rcon' ((ws.getD (nk - 1) 0 ^^^ t') :: ws)

/-- Round keys as lists of 16 bytes; the key is big-endian. -/
def roundKeys (long : Bool) (key : Nat) : List (List Nat) :=
  let nk := if long then 8 else 4
  let rounds := nk + 6
  let first := (List.range nk).map fun i => key / 2 ^ (32 * (nk - 1 - i)) % 2 ^ 32
  let ws := (keyWords nk (4 * (rounds + 1) - nk) nk 1 first.reverse).reverse
  (List.range (rounds + 1)).map fun r => (List.range 4).flatMap fun j => beBytes 4 (ws.getD (4 * r + j) 0)

/-- XOR of byte lists. -/
def xorL (a b : List Nat) : List Nat := List.zipWith (· ^^^ ·) a b

/-- ShiftRows, or its inverse. -/
def shiftRows (inv : Bool) (s : List Nat) : List Nat :=
  (List.range 16).map fun i => s.getD (if inv then (i + 12 * (i % 4)) % 16 else (i + 4 * (i % 4)) % 16) 0

/-- One column through a circulant matrix. -/
def mixCol (m : List Nat) (c : List Nat) : List Nat :=
  (List.range 4).map fun r => (List.range 4).foldl (fun x j => x ^^^ gf8 8 (c.getD j 0) (m.getD ((j + 4 - r) % 4) 0)) 0

/-- MixColumns with the first row of its matrix. -/
def mixCols (m : List Nat) (s : List Nat) : List Nat := (List.range 4).flatMap fun c => mixCol m ((s.drop (4 * c)).take 4)

/-- Encrypt one block. -/
def aesEnc (rks : List (List Nat)) (x : Nat) : Nat :=
  let s := xorL (beBytes 16 x) (rks.headD [])
  let mid := (rks.drop 1).take (rks.length - 2)
  let s := mid.foldl (fun s k => xorL (mixCols [2, 3, 1, 1] (shiftRows false (s.map sbox))) k) s
  beNat (xorL (shiftRows false (s.map sbox)) (rks.getLast?.getD []))

/-- Decrypt one block. -/
def aesDec (rks : List (List Nat)) (x : Nat) : Nat :=
  let s := xorL (beBytes 16 x) (rks.getLast?.getD [])
  let mid := ((rks.drop 1).take (rks.length - 2)).reverse
  let s := mid.foldl (fun s k => mixCols [14, 11, 13, 9] (xorL ((shiftRows true s).map sboxInv) k)) s
  beNat (xorL ((shiftRows true s).map sboxInv) (rks.headD []))

/-! ### Blocks of byte strings -/

/-- Up to 16 bytes as a block, zeros behind. -/
def blockOf (bs : List Byte) : Nat := beNat ((bs.take 16).map (·.toNat)) * 256 ^ (16 - min 16 bs.length)
/-- The leading k bytes of a block. -/
def blockTake (k : Nat) (x : Nat) : List Byte := ((beBytes 16 x).take k).map (BitVec.ofNat 8)
/-- A byte string in blocks; the last may be short. -/
def blocksOf : Nat → List Byte → List (List Byte)
  | 0, _ => []
  | f + 1, bs => if bs.isEmpty then [] else bs.take 16 :: blocksOf f (bs.drop 16)
/-- All blocks. -/
def toBlocks (bs : List Byte) : List (List Byte) := blocksOf (bs.length / 16 + 1) bs
/-- A bigger number as big-endian bytes. -/
def beB (k v : Nat) : List Byte := (beBytes k v).map (BitVec.ofNat 8)
/-- A byte string as a big-endian number. -/
def numB (bs : List Byte) : Nat := beNat (bs.map (·.toNat))
/-- A block with its bytes reversed. -/
def revBlock (x : Nat) : Nat := beNat (beBytes 16 x).reverse

/-! ### GCM (SP 800-38D) -/

/-- Product of GHASH. -/
def gmul : Nat → Nat → Nat → Nat → Nat
  | 0, _, _, z => z
  | k + 1, x, v, z =>
    gmul k x (if v % 2 = 1 then (v / 2) ^^^ (0xE1 * 2 ^ 120) else v / 2) (if x.testBit k then z ^^^ v else z)

/-- One GHASH step. -/
def ghStep (h y x : Nat) : Nat := gmul 128 (y ^^^ x) h 0

/-- Counter of a 96-bit IV. -/
def gcmJ0 (iv : Nat) : Nat := iv * 2 ^ 32 + 1
/-- The next counter block. -/
def inc32 (c : Nat) : Nat := c / 2 ^ 32 * 2 ^ 32 + (c % 2 ^ 32 + 1) % 2 ^ 32

/-- Whole GCM encryption: ciphertext and tag (16 bytes). -/
def gcmSeal (rks : List (List Nat)) (iv : Nat) (aad pt : List Byte) : List Byte × Nat :=
  let h := aesEnc rks 0
  let j0 := gcmJ0 iv
  let (ct, _) := (toBlocks pt).foldl (fun (st : List Byte × Nat) b =>
    (st.1 ++ blockTake b.length (blockOf b ^^^ aesEnc rks st.2), inc32 st.2)) ([], inc32 j0)
  let y := (toBlocks aad ++ toBlocks ct).foldl (fun y b => ghStep h y (blockOf b)) 0
  let y := ghStep h y (8 * aad.length * 2 ^ 64 + 8 * pt.length)
  (ct, y ^^^ aesEnc rks j0)

/-- Whole GCM decryption, with the tag the data has. -/
def gcmOpen (rks : List (List Nat)) (iv : Nat) (aad ct : List Byte) : List Byte × Nat :=
  let h := aesEnc rks 0
  let j0 := gcmJ0 iv
  let (pt, _) := (toBlocks ct).foldl (fun (st : List Byte × Nat) b =>
    (st.1 ++ blockTake b.length (blockOf b ^^^ aesEnc rks st.2), inc32 st.2)) ([], inc32 j0)
  let y := (toBlocks aad ++ toBlocks ct).foldl (fun y b => ghStep h y (blockOf b)) 0
  let y := ghStep h y (8 * aad.length * 2 ^ 64 + 8 * ct.length)
  (pt, y ^^^ aesEnc rks j0)

/-! ### XTS, CMAC -/

/-- Multiplication of a tweak by alpha: blocks as IEEE 1619 orders bytes. -/
def xtsNext (t : Nat) : Nat :=
  let v := 2 * revBlock t
  revBlock (if v ≥ 2 ^ 128 then (v - 2 ^ 128) ^^^ 0x87 else v)

/-- Doubling of CMAC. -/
def cmacDbl (x : Nat) : Nat := if 2 * x ≥ 2 ^ 128 then (2 * x - 2 ^ 128) ^^^ 0x87 else 2 * x

/-- The last CMAC step on the final block (1 to 16 bytes). -/
def cmacLast (rks : List (List Nat)) (chain : Nat) (last : List Byte) : Nat :=
  let k1 := cmacDbl (aesEnc rks 0)
  let m := if last.length = 16 then blockOf last ^^^ k1 else blockOf (last ++ [0x80]) ^^^ cmacDbl k1
  aesEnc rks (chain ^^^ m)

/-! ### Key wrap with padding (RFC 5649, SP 800-38F) -/

/-- The six passes of wrapping over a list of 64-bit numbers. -/
def wrapPass (rks : List (List Nat)) (n : Nat) : Nat → Nat → Nat → List Nat → Nat × List Nat
  | 0, _, a, rs => (a, rs)
  | k + 1, t, a, rs =>
    let b := aesEnc rks (a * 2 ^ 64 + rs.headD 0)
    wrapPass rks n k (t + 1) ((b / 2 ^ 64) ^^^ t) (rs.drop 1 ++ [b % 2 ^ 64])

/-- The six passes of unwrapping. -/
def unwrapPass (rks : List (List Nat)) : Nat → Nat → List Nat → Nat × List Nat
  | 0, a, rs => (a, rs)
  | t + 1, a, rs =>
    let b := aesDec rks ((a ^^^ (t + 1)) * 2 ^ 64 + (rs.getLast?.getD 0))
    unwrapPass rks t (b / 2 ^ 64) (b % 2 ^ 64 :: rs.take (rs.length - 1))

/-- Wrap. -/
def kwpWrap (rks : List (List Nat)) (pt : List Byte) : List Byte :=
  let m := (pt.length + 7) / 8
  let padded := pt ++ List.replicate (8 * m - pt.length) 0
  let aiv := 0xA65959A6 * 2 ^ 32 + pt.length
  if m = 1 then beB 16 (aesEnc rks (aiv * 2 ^ 64 + numB padded))
  else
    let rs := (List.range m).map fun i => numB ((padded.drop (8 * i)).take 8)
    let (a, rs) := wrapPass rks m (6 * m) 1 aiv rs
    beB 8 a ++ rs.flatMap (beB 8)

/-- Unwrap, or failure of the integrity check. -/
def kwpUnwrap (rks : List (List Nat)) (ct : List Byte) : Option (List Byte) :=
  let m := ct.length / 8 - 1
  let (a, rs) :=
    if m = 1 then let b := aesDec rks (numB ct); (b / 2 ^ 64, [b % 2 ^ 64])
    else unwrapPass rks (6 * m) (numB (ct.take 8)) ((List.range m).map fun i => numB ((ct.drop (8 * (i + 1))).take 8))
  let pt := rs.flatMap (beB 8)
  let len := a % 2 ^ 32
  if a / 2 ^ 32 ≠ 0xA65959A6 ∨ len > 8 * m ∨ len ≤ 8 * (m - 1) ∨ (pt.drop len).any (· ≠ 0) then none
  else some (pt.take len)

/-! ### CTR_DRBG (SP 800-90A) -/

/-- An instance: key, V and the generate requests since it was seeded. -/
structure Drbg where
  key : Nat
  v : Nat
  count : Nat
  deriving DecidableEq, Repr

/-- k blocks of output. -/
def drbgBlocks (rks : List (List Nat)) : Nat → Nat → List Byte × Nat
  | 0, v => ([], v)
  | k + 1, v =>
    let v := (v + 1) % 2 ^ 128
    let (bs, v') := drbgBlocks rks k v
    (beB 16 (aesEnc rks v) ++ bs, v')

/-- The update after a request, with no additional input. -/
def drbgUpdate (d : Drbg) : Drbg :=
  let rks := roundKeys true d.key
  let (bs, _) := drbgBlocks rks 3 d.v
  { d with key := numB (bs.take 32), v := numB (bs.drop 32) }

/-- n bytes from one generate request. -/
def drbgGen (d : Drbg) (n : Nat) : List Byte × Drbg :=
  let (bs, v) := drbgBlocks (roundKeys true d.key) ((n + 15) / 16) d.v
  (bs.take n, { drbgUpdate { d with v := v } with count := d.count + 1 })

/-! ### SHA-384 (FIPS 180-4) -/

/-- Is n prime? -/
def isPrime (n : Nat) : Bool := decide (2 ≤ n) && (List.range n).all fun d => d < 2 || n % d ≠ 0
/-- The first 80 primes. -/
def primes80 : List Nat := ((List.range 410).filter isPrime).take 80
/-- Largest x of k bits with x³ ≤ n. -/
def cbrtFrac (n : Nat) : Nat → Nat → Nat
  | 0, x => x
  | k + 1, x => let y := x + 2 ^ k; cbrtFrac n k (if y * y * y ≤ n then y else x)
/-- Largest x of k bits with x² ≤ n. -/
def sqrtFrac (n : Nat) : Nat → Nat → Nat
  | 0, x => x
  | k + 1, x => let y := x + 2 ^ k; sqrtFrac n k (if y * y ≤ n then y else x)
/-- Round constants: 64 bits of the fractional parts of cube roots. -/
def sha5K : List Nat := primes80.map fun p => cbrtFrac (p * 2 ^ 192) 68 0 % 2 ^ 64
/-- Initial value: fractional parts of the square roots of the 9th to 16th primes. -/
def sha384Init : List Nat := ((primes80.drop 8).take 8).map fun p => sqrtFrac (p * 2 ^ 128) 68 0 % 2 ^ 64
/-- Rotation of 64 bits to the right. -/
def rotr64 (x k : Nat) : Nat := x / 2 ^ k + (x % 2 ^ k) * 2 ^ (64 - k)
/-- Message schedule, newest first. -/
def shaSched : Nat → List Nat → List Nat
  | 0, w => w
  | k + 1, w =>
    let x := w.getD 14 0
    let y := w.getD 1 0
    let s0 := rotr64 x 1 ^^^ rotr64 x 8 ^^^ x / 2 ^ 7
    let s1 := rotr64 y 19 ^^^ rotr64 y 61 ^^^ y / 2 ^ 6
    shaSched k (((w.getD 15 0 + s0 + w.getD 6 0 + s1) % 2 ^ 64) :: w)
/-- One round on eight words. -/
def shaRound (s : List Nat) (kw : Nat) : List Nat :=
  match s with
  | [a, b, c, d, e, f, g, h] =>
    let s1 := rotr64 e 14 ^^^ rotr64 e 18 ^^^ rotr64 e 41
    let ch := (e &&& f) ^^^ ((2 ^ 64 - 1 - e) &&& g)
    let t1 := h + s1 + ch + kw
    let s0 := rotr64 a 28 ^^^ rotr64 a 34 ^^^ rotr64 a 39
    let mj := (a &&& b) ^^^ (a &&& c) ^^^ (b &&& c)
    [(t1 + s0 + mj) % 2 ^ 64, a, b, c, (d + t1) % 2 ^ 64, e, f, g]
  | s => s
/-- One block of 128 bytes. -/
def shaBlock (ks s : List Nat) (blk : List Byte) : List Nat :=
  let w := (List.range 16).map fun i => numB ((blk.drop (8 * i)).take 8)
  let ws := (shaSched 64 w.reverse).reverse
  let t := (List.zipWith (· + ·) ks ws).foldl shaRound s
  List.zipWith (fun x y => (x + y) % 2 ^ 64) s t
/-- Blocks of 128 bytes. -/
def shaLoop (ks : List Nat) : Nat → List Nat → List Byte → List Nat
  | 0, s, _ => s
  | k + 1, s, bs => shaLoop ks k (shaBlock ks s (bs.take 128)) (bs.drop 128)
/-- SHA-384 as a number of 384 bits. -/
def sha384 (bs : List Byte) : Nat :=
  let z := (239 - bs.length % 128) % 128
  let msg := bs ++ [0x80] ++ List.replicate z 0 ++ beB 16 (8 * bs.length)
  beNat ((shaLoop sha5K (msg.length / 128) sha384Init msg).take 6 |>.flatMap (beBytes 8))

/-! ### P-384 (SP 800-186) -/

/-- The prime of the curve. -/
def p384 : Nat := 2 ^ 384 - 2 ^ 128 - 2 ^ 96 + 2 ^ 32 - 1
/-- The coefficient b. -/
def b384 : Nat := 0xB3312FA7E23EE7E4988E056BE3F82D19181D9C6EFE8141120314088F5013875AC656398D8A2ED19D2A85C8EDD3EC2AEF
/-- Modular power. -/
def powMod (m : Nat) : Nat → Nat → Nat → Nat → Nat
  | 0, _, _, r => r
  | k + 1, b, e, r => powMod m k (b * b % m) (e / 2) (if e % 2 = 1 then r * b % m else r)
/-- Inverse modulo the prime. -/
def inv384 (x : Nat) : Nat := powMod p384 384 x (p384 - 2) 1
/-- Full public-key validation: coordinates in range and on the curve; the cofactor is 1 (14 R385). -/
def onP384 (x y : Nat) : Bool :=
  decide (x < p384) && decide (y < p384) && (y * y) % p384 = (x * x * x + (p384 - 3) * x + b384) % p384
/-- Sum of two points; none is the neutral element. -/
def ecAdd (a b : Option (Nat × Nat)) : Option (Nat × Nat) :=
  match a, b with
  | none, q => q
  | q, none => q
  | some (x1, y1), some (x2, y2) =>
    if x1 = x2 ∧ (y1 + y2) % p384 = 0 then none
    else
      let l := if x1 = x2 then (3 * x1 * x1 + (p384 - 3)) * inv384 (2 * y1 % p384) % p384
        else (y2 + p384 - y1) * inv384 ((x2 + p384 - x1) % p384) % p384
      let x3 := (l * l + 2 * p384 - x1 - x2) % p384
      some (x3, (l * (x1 + p384 - x3) + p384 - y1) % p384)
/-- Multiple of a point. -/
def ecMul : Nat → Nat → Option (Nat × Nat) → Option (Nat × Nat) → Option (Nat × Nat)
  | 0, _, _, r => r
  | k + 1, d, q, r => ecMul k (d / 2) (ecAdd q q) (if d % 2 = 1 then ecAdd r q else r)

end Sys2Proof.Machine
end

