-- ==== Sys2Proof/Machine/Inflate.lean ====
section
/-! DEFINITION. Decompression of DEFLATE (RFC 1951, with the wrappers of RFC 1950 and RFC 1952) and of the Chius stream format,
as a decoder that can stop at any item and go on later (13 R351 to R372). -/

namespace Sys2Proof.Machine
open Sys2Proof

/-! ### Check values -/

/-- Running CRC-32C over bytes, before the final inversion (13 R356). -/
def crc32cRun (c : Nat) (bs : List Byte) : Nat := crcBytes poly32c c bs
/-- CRC-32C of a byte string (13 R356). -/
def crc32c (bs : List Byte) : Nat := crc32cRun 0xFFFFFFFF bs ^^^ 0xFFFFFFFF
/-- Running CRC-32. -/
def crc32Run (c : Nat) (bs : List Byte) : Nat := crcBytes poly32 c bs
/-- Running Adler-32 (RFC 1950). -/
def adlerRun (c : Nat) (bs : List Byte) : Nat :=
  bs.foldl (fun c b =>
    let x := (c % 65536 + b.toNat) % 65521
    x + 65536 * ((c / 65536 + x) % 65521)) c

/-! ### Prefix codes (RFC 1951 3.2.2) -/

/-- A decoded symbol with the bits it took, a request for more bits, or a code that is not assigned. -/
inductive SymRes where
  | sym (s n : Nat)
  | more
  | bad
  deriving DecidableEq, Repr

/-- Number of codes of a length. -/
def lenCount (lens : List Nat) (l : Nat) : Nat := (lens.filter (· = l)).length

/-- The k-th symbol of a length. -/
def symOf (lens : List Nat) (l k : Nat) : Nat :=
  (((List.range lens.length).filter fun i => lens.getD i 0 = l)[k]?).getD 0

/-- Canonical decoding, one bit a step: code bits from the least significant end of buf. -/
def symLoop (lens : List Nat) : Nat → Nat → Nat → Nat → Nat → Nat → SymRes
  | 0, _, _, _, _, _ => .bad
  | f + 1, l, code, first, buf, n =>
    if n = 0 then .more
    else
      let code := 2 * code + buf % 2
      let first := 2 * first
      let cnt := lenCount lens l
      if code < first + cnt then .sym (symOf lens l (code - first)) l
      else symLoop lens f (l + 1) code (first + cnt) (buf / 2) (n - 1)

/-- Decode one symbol from n bits of buf. -/
def decSym (lens : List Nat) (buf n : Nat) : SymRes := symLoop lens (lens.foldl max 0) 1 0 0 buf n

/-- Sum of the code space used, in units of 2^-15. -/
def kraft (lens : List Nat) : Nat := lens.foldl (fun k l => if l = 0 then k else k + 2 ^ (15 - l)) 0
/-- Is a set of lengths oversubscribed? -/
def oversub (lens : List Nat) : Bool := decide (2 ^ 15 < kraft lens)

/-- Fixed literal and length code (RFC 1951 3.2.6). -/
def fixedLL : List Nat :=
  List.replicate 144 8 ++ List.replicate 112 9 ++ List.replicate 24 7 ++ List.replicate 8 8
/-- Fixed distance code. -/
def fixedD : List Nat := List.replicate 32 5

/-- Base length and extra bits of length symbol 257 + i. -/
def lenBase (i : Nat) : Nat × Nat :=
  if i < 8 then (3 + i, 0)
  else if i = 28 then (258, 0)
  else
    let e := (i - 4) / 4
    (3 + 4 * 2 ^ e + (i % 4) * 2 ^ e, e)
/-- Base distance and extra bits of distance symbol i. -/
def distBase (i : Nat) : Nat × Nat :=
  if i < 4 then (1 + i, 0)
  else
    let e := (i - 2) / 2
    (1 + 2 * 2 ^ e + (i % 2) * 2 ^ e, e)

/-- Order of the code length code lengths. -/
def clOrder : List Nat := [16, 17, 18, 0, 8, 7, 9, 6, 10, 5, 11, 4, 12, 3, 13, 2, 14, 1, 15]

/-! ### Decoder state -/

/-- Where the decoder stands. -/
inductive DPh where
  | zlib | gzFix | gzXlen | gzExtra | gzName | gzComment | gzHcrc
  | bhdr | stLen | stBody | dynCnt | dynCl | dynLen | body
  | wAdler | wCrc | wIsize
  | csfH0 | csfH1 | cb0 | cb1 | cb2 | cb3 | btype | nTab | nSym | nExtra | csfEnd | cCrc | csfT0 | csfT1 | csfT2
  | done
  deriving DecidableEq, Repr

/-- The decoder (13 R369 names most of its fields). -/
structure Dec where
  csf : Bool
  wrap : Nat
  ph : DPh
  /-- Pending bits, oldest in bit 0, and their number. -/
  buf : Nat
  n : Nat
  /-- Code lengths in use: 288 + 32 for DEFLATE, W + 1 for CSF numeric. -/
  lens : List Nat
  /-- Lengths read so far of a table. -/
  part : List Nat
  /-- Code length code. -/
  cl : List Nat
  final : Bool
  a : Nat
  b : Nat
  c : Nat
  /-- Block header of CSF: KIND, TABLE, PRED, WIDTH, STRIDE, ORIG_LEN, CODED_LEN, payload bytes taken. -/
  kind : Nat
  dyn : Bool
  pred : Nat
  width : Nat
  stride : Nat
  blkLen : Nat
  coded : Nat
  taken : Nat
  blkDone : Nat
  blkCrc : Nat
  /-- Sum of ORIG_LEN of the blocks of a CSF stream. -/
  sum : Nat
  /-- Pending item: 0 none, 1 match, 2 numeric element, 3 stored run. -/
  pkind : Nat
  plen : Nat
  pdist : Nat
  pval : Nat
  elem : Nat
  outTotal : Nat
  inTotal : Nat
  crc : Nat
  wchk : Nat
  /-- Output before the next byte, newest first. -/
  hist : List Byte
  deriving DecidableEq, Repr

/-- A decoder at the start of a stream. -/
def Dec.start (csf : Bool) (wrap : Nat) : Dec where
  csf := csf
  wrap := wrap
  ph := if csf then .csfH0 else if wrap = 1 then .zlib else if wrap = 2 then .gzFix else .bhdr
  buf := 0
  n := 0
  lens := []
  part := []
  cl := []
  final := false
  a := 0
  b := 0
  c := 0xFFFFFFFF
  kind := 0
  dyn := false
  pred := 0
  width := 0
  stride := 0
  blkLen := 0
  coded := 0
  taken := 0
  blkDone := 0
  blkCrc := 0xFFFFFFFF
  sum := 0
  pkind := 0
  plen := 0
  pdist := 0
  pval := 0
  elem := 0
  outTotal := 0
  inTotal := 0
  crc := 0xFFFFFFFF
  wchk := if wrap = 1 then 1 else 0xFFFFFFFF
  hist := []

/-- A run of the decoder: its state, the source left, room left in the destination and the output, newest first. -/
structure DRun where
  d : Dec
  src : List Byte
  room : Nat
  out : List Byte
  deriving DecidableEq, Repr

/-- How one step of the decoder ends. -/
inductive DRes where
  | go (r : DRun)
  /-- Source bytes are wanted and none is left. -/
  | need (r : DRun)
  /-- An output byte is due and no room is left. -/
  | full (r : DRun)
  /-- The stream is over, or malformed: status and DETAIL. -/
  | fin (r : DRun) (status detail : Nat)
  deriving DecidableEq, Repr

/-- STREAM_CORRUPT with a DETAIL (13 R351). -/
def DRun.bad (r : DRun) (detail : Nat) : DRes := .fin r 0x23 detail

/-- One more source byte into the pending bits. -/
def DRun.pull (r : DRun) : Option DRun :=
  match r.src with
  | [] => none
  | b :: t => some { r with src := t, d := { r.d with
      buf := r.d.buf + b.toNat * 2 ^ r.d.n, n := r.d.n + 8, inTotal := r.d.inTotal + 1, taken := r.d.taken + 1 } }

/-- Source bytes until k bits are pending. -/
def DRun.want : Nat → Nat → DRun → Option DRun
  | 0, k, r => if k ≤ r.d.n then some r else none
  | f + 1, k, r => if k ≤ r.d.n then some r else match r.pull with | some r => r.want f k | none => none

/-- The low k pending bits. -/
def DRun.look (r : DRun) (k : Nat) : Nat := r.d.buf % 2 ^ k
/-- The run without its low k pending bits. -/
def DRun.drop (r : DRun) (k : Nat) : DRun := { r with d := { r.d with buf := r.d.buf / 2 ^ k, n := r.d.n - k } }
/-- Bits up to the next byte boundary dropped. -/
def DRun.align (r : DRun) : DRun := r.drop (r.d.n % 8)

/-- Bytes written: totals and running checks (13 R347). -/
def DRun.put (r : DRun) (bs : List Byte) : DRun :=
  let d := r.d
  { r with
    room := r.room - bs.length
    out := bs.reverse ++ r.out
    d := { d with
      hist := (bs.reverse ++ d.hist).take 32768
      outTotal := d.outTotal + bs.length
      blkDone := d.blkDone + bs.length
      crc := crc32cRun d.crc bs
      blkCrc := if d.csf then crc32cRun d.blkCrc bs else d.blkCrc
      wchk := if d.wrap = 1 then adlerRun d.wchk bs else if d.wrap = 2 then crc32Run d.wchk bs else d.wchk } }

/-- k bytes of a match at distance dist, oldest first. -/
def matchBytes (dist : Nat) : Nat → List Byte → List Byte
  | 0, _ => []
  | k + 1, h => let b := h.getD (dist - 1) 0; b :: matchBytes dist k (b :: h)

/-- Read k bits, at most 63, and go on with them. -/
def DRun.bits (r : DRun) (k : Nat) (f : DRun → Nat → DRes) : DRes :=
  match r.want 9 k with
  | none =>
    -- what is left of the source is taken into the pending bits
    .need ((List.range 8).foldl (fun r _ => (r.pull).getD r) r)
  | some r => f (r.drop k) (r.look k)

/-- Read a symbol of a code: source bytes are taken one at a time (13 R368). -/
def DRun.sym (lens : List Nat) : Nat → DRun → (DRun → Nat → DRes) → DRes
  | 0, r, _ => r.bad 3
  | f + 1, r, k =>
    match decSym lens r.d.buf r.d.n with
    | .sym s n => k (r.drop n) s
    | .bad => r.bad 3
    | .more => match r.pull with
      | some r => r.sym lens f k
      | none => .need r

/-- To phase p. -/
def DRun.to (r : DRun) (p : DPh) : DRes := .go { r with d := { r.d with ph := p } }

/-! ### Pending items -/

/-- What remains of the pending item is written as far as there is room (13 R368, R371). -/
def DRun.pending (r : DRun) : DRes :=
  let d := r.d
  if r.room = 0 then .full r
  else if d.pkind = 1 then
    let k := min d.plen r.room
    let r := r.put (matchBytes d.pdist k d.hist)
    .go { r with d := { r.d with plen := d.plen - k, pkind := if d.plen = k then 0 else 1 } }
  else if d.pkind = 2 then
    let k := min d.plen r.room
    let w := 2 ^ d.width
    let bs := ((leBytes w d.pval).drop (w - d.plen)).take k
    let r := r.put bs
    .go { r with d := { r.d with plen := d.plen - k, pkind := if d.plen = k then 0 else 2 } }
  else
    -- a stored run: bytes from the pending bits first, then from the source
    match r.want 1 8 with
    | none => .need r
    | some r =>
      let b := BitVec.ofNat 8 (r.look 8)
      let r := (r.drop 8).put [b]
      .go { r with d := { r.d with plen := d.plen - 1, pkind := if d.plen = 1 then 0 else 3 } }

/-! ### DEFLATE -/

/-- After the last DEFLATE block: the wrapper's trailer. -/
def DRun.afterLast (r : DRun) : DRes :=
  let r := r.align
  if r.d.wrap = 1 then r.to .wAdler else if r.d.wrap = 2 then r.to .wCrc else .fin r 0 0

/-- A block body has ended. -/
def DRun.endBlock (r : DRun) : DRes :=
  if r.d.csf then r.to .csfEnd else if r.d.final then r.afterLast else r.to .bhdr

/-- Block type read: tables set up. -/
def DRun.setType (r : DRun) (t : Nat) : DRes :=
  if t = 3 then r.bad 1
  else if t = 0 then (if r.d.csf then r.bad 1 else r.align.to .stLen)
  else if t = 1 then .go { r with d := { r.d with lens := fixedLL ++ fixedD, ph := .body } }
  else r.to .dynCnt

/-- One symbol of a DEFLATE body: literal, end of block, or match. -/
def DRun.bodyStep (r : DRun) : DRes :=
  let ll := r.d.lens.take 288
  let ds := r.d.lens.drop 288
  match r.sym ll 17 (fun r' s =>
    if s = 256 then r'.endBlock
    else if s < 256 then
      if r'.room = 0 then .full r
      else if r'.d.csf && r'.d.blkLen ≤ r'.d.blkDone then r.bad 9
      else .go (r'.put [BitVec.ofNat 8 s])
    else if 285 < s then r.bad 3
    else
      let (b, e) := lenBase (s - 257)
      r'.bits e fun r' x =>
        if ds.all (· = 0) then r.bad 2
        else r'.sym ds 17 fun r' t =>
          if 29 < t then r.bad 3
          else
            let (db, de) := distBase t
            r'.bits de fun r' y =>
              let dist := db + y
              let len := b + x
              if (if r'.d.csf then r'.d.blkDone else r'.d.outTotal) < dist then r.bad 4
              else if r'.d.csf && r'.d.blkLen < r'.d.blkDone + len then r.bad 9
              else if r'.room = 0 then .full r
              else .go { r' with d := { r'.d with pkind := 1, plen := len, pdist := dist } }) with
  | .need r' =>
    -- the item is decoded again once there is more: the bits read stay pending
    .need { r with src := [], d := { r.d with
      buf := r.src.zipIdx.foldl (fun v e => v + e.1.toNat * 2 ^ (r.d.n + 8 * e.2)) r.d.buf
      n := r.d.n + 8 * r.src.length, inTotal := r'.d.inTotal + r'.src.length, taken := r'.d.taken + r'.src.length } }
  | x => x

/-- Lengths of a dynamic table: symbol of the code length code with its repeat count. -/
def DRun.dynStep (r : DRun) : DRes :=
  let total := r.d.a + r.d.b
  if r.d.part.length = total then
    let ll := r.d.part.take r.d.a ++ List.replicate (288 - r.d.a) 0
    let ds := r.d.part.drop r.d.a ++ List.replicate (32 - r.d.b) 0
    if oversub ll || oversub ds || ll.getD 256 0 = 0 then r.bad 2
    else .go { r with d := { r.d with lens := ll ++ ds, ph := .body } }
  else
    let add := fun (r' : DRun) (v k : Nat) =>
      if total < r'.d.part.length + k then r.bad 2
      else DRes.go { r' with d := { r'.d with part := r'.d.part ++ List.replicate k v } }
    match r.sym r.d.cl 9 (fun r' s =>
      if s < 16 then add r' s 1
      else if s = 16 then
        match r'.d.part.getLast? with
        | none => r.bad 2
        | some v => r'.bits 2 fun r' x => add r' v (3 + x)
      else if s = 17 then r'.bits 3 fun r' x => add r' 0 (3 + x)
      else r'.bits 7 fun r' x => add r' 0 (11 + x)) with
    | .need r' =>
      .need { r with src := [], d := { r.d with
        buf := r.src.zipIdx.foldl (fun v e => v + e.1.toNat * 2 ^ (r.d.n + 8 * e.2)) r.d.buf
        n := r.d.n + 8 * r.src.length, inTotal := r'.d.inTotal + r'.src.length, taken := r'.d.taken + r'.src.length } }
    | x => x

/-! ### CSF (13 R355 to R365) -/

/-- The element k before the next one, of elements of w bytes in bytes newest first; 0 before the first. -/
def elemBack (hist : List Byte) (w elem k : Nat) : Nat :=
  if elem < k ∨ k = 0 then 0 else leNat ((hist.drop ((k - 1) * w)).take w).reverse

/-- Prediction of element number elem (13 R359). -/
def predictFrom (hist : List Byte) (width pred stride elem : Nat) : Nat :=
  let w := 2 ^ width
  let m := 2 ^ (8 * w)
  let back := elemBack hist w elem
  match pred with
  | 0 => 0
  | 1 => back 1
  | 2 => if elem = 0 then 0 else if elem = 1 then back 1 else (2 * back 1 + m - back 2) % m
  | 3 => back stride
  | _ => back 1

/-- Prediction of the next element of a block being decoded. -/
def Dec.predict (d : Dec) : Nat := predictFrom d.hist d.width d.pred d.stride d.elem

/-- The residue of a zigzag value (13 R360). -/
def unzig (wbits z : Nat) : Nat :=
  let m := 2 ^ wbits
  (z / 2) ^^^ (if z % 2 = 1 then m - 1 else 0)

/-- An element from its zigzag value (13 R359, R360). -/
def Dec.element (d : Dec) (z : Nat) : Nat :=
  let wb := 8 * 2 ^ d.width
  let r := unzig wb z
  if d.pred = 4 then d.predict ^^^ r else (d.predict + r) % 2 ^ wb

/-- An element is due for output. -/
def DRun.emit (r : DRun) (z : Nat) : DRes :=
  let w := 2 ^ r.d.width
  let v := r.d.element z
  .go { r with d := { r.d with pkind := 2, plen := w, pval := v, elem := r.d.elem + 1, ph := .nSym } }

/-- The fields of a CSF block header are checked (13 R358). -/
def DRun.blockHdr (r : DRun) : DRes :=
  let d := r.d
  let b0 := d.a % 256
  let b1 := d.a / 256 % 256
  let stride := d.a / 65536
  let kind := b0 % 4
  let width := b1 % 4
  let pred := b1 / 4 % 8
  let wby := 2 ^ width
  if kind = 3 then r.bad 1
  else if b0 / 4 % 32 ≠ 0 ∨ b1 / 64 ≠ 0 ∨ (kind ≠ 0 ∧ b1 ≠ 0) ∨ 4 < pred ∨
      (kind = 0 ∧ pred = 3 ∧ (stride = 0 ∨ 32768 < stride * wby)) ∨ ((kind ≠ 0 ∨ pred ≠ 3) ∧ stride ≠ 0) ∨
      d.b = 0 ∨ 1048576 < d.b ∨ (kind = 0 ∧ d.b % wby ≠ 0) ∨ (kind = 2 ∧ d.blkLen ≠ d.b) then r.bad 8
  else
    let d := { d with
      kind := kind, final := b0 ≥ 128, dyn := b1 / 32 % 2 = 1, pred := pred, width := width, stride := stride
      coded := d.blkLen, blkLen := d.b, blkDone := 0, taken := 0, elem := 0, blkCrc := 0xFFFFFFFF, sum := d.sum + d.b
      part := [], lens := List.replicate (8 * wby + 1) (4 + width)
      ph := if kind = 0 then (if b1 / 32 % 2 = 1 then .nTab else .nSym) else if kind = 1 then .btype else .csfEnd
      pkind := if kind = 2 then 3 else 0, plen := if kind = 2 then d.b else 0 }
    .go { r with d := d }

/-! ### The step -/

/-- gzip header bytes with their CRC (RFC 1952): next byte, with the header's running CRC in field c. -/
def DRun.gzByte (r : DRun) (f : DRun → Nat → DRes) : DRes :=
  r.bits 8 fun r x => f { r with d := { r.d with c := crc32Run r.d.c [BitVec.ofNat 8 x] } } x

/-- The part of a gzip header that follows, by FLG bits not yet served. -/
def DRun.gzNext (r : DRun) (flg : Nat) : DRes :=
  if flg / 4 % 2 = 1 then .go { r with d := { r.d with ph := .gzXlen, a := 0, b := flg - 4 } }
  else if flg / 8 % 2 = 1 then .go { r with d := { r.d with ph := .gzName, b := flg - 8 } }
  else if flg / 16 % 2 = 1 then .go { r with d := { r.d with ph := .gzComment, b := flg - 16 } }
  else if flg / 2 % 2 = 1 then .go { r with d := { r.d with ph := .gzHcrc, b := flg - 2 } }
  else r.to .bhdr

/-- Payload bytes of a CSF block beyond CODED_LEN have been taken (13 R365). -/
def Dec.over (d : Dec) : Bool := d.csf && decide (d.coded < d.taken)

/-- One step of the decoder, pending item aside. -/
def DRun.step (r : DRun) : DRes :=
  let d := r.d
  match d.ph with
  | .zlib => r.bits 16 fun r x =>
      let cmf := x % 256
      let flg := x / 256
      if (cmf * 256 + flg) % 31 ≠ 0 then r.bad 7
      else if cmf % 16 ≠ 8 ∨ 7 < cmf / 16 ∨ flg / 32 % 2 = 1 then .fin r 0x12 0x30
      else r.to .bhdr
  | .gzFix => r.gzByte fun r x =>
      let i := r.d.a
      if (i = 0 ∧ x ≠ 0x1F) ∨ (i = 1 ∧ x ≠ 0x8B) then r.bad 7
      else if i = 2 ∧ x ≠ 8 then .fin r 0x12 0x30
      else if i = 3 ∧ x / 32 ≠ 0 then r.bad 7
      else
        let r := { r with d := { r.d with a := i + 1, b := if i = 3 then x else r.d.b } }
        if i = 9 then r.gzNext (r.d.b / 2 * 2) else .go r
  | .gzXlen => r.gzByte fun r x => r.gzByte fun r y =>
      .go { r with d := { r.d with ph := .gzExtra, a := x + 256 * y } }
  | .gzExtra => if d.a = 0 then r.gzNext d.b
      else r.gzByte fun r _ => .go { r with d := { r.d with a := d.a - 1 } }
  | .gzName => r.gzByte fun r x => if x = 0 then r.gzNext r.d.b else .go r
  | .gzComment => r.gzByte fun r x => if x = 0 then r.gzNext r.d.b else .go r
  | .gzHcrc => r.bits 16 fun r x =>
      if x ≠ (d.c ^^^ 0xFFFFFFFF) % 65536 then .fin r 0x22 0x16 else r.to .bhdr
  | .bhdr => r.bits 3 fun r x => { r with d := { r.d with final := x % 2 = 1 } }.setType (x / 2)
  | .btype => r.bits 2 fun r x => if r.d.over then r.bad 9 else r.setType x
  | .stLen => r.bits 32 fun r x =>
      if x % 65536 + x / 65536 ≠ 65535 then r.bad 5
      else if x % 65536 = 0 then r.endBlock
      else .go { r with d := { r.d with ph := .stBody, pkind := 3, plen := x % 65536 } }
  | .stBody => r.endBlock
  | .dynCnt => r.bits 14 fun r x =>
      .go { r with d := { r.d with ph := .dynCl, a := x % 32 + 257, b := x / 32 % 32 + 1, c := x / 1024 + 4, part := [] } }
  | .dynCl =>
      if d.part.length = d.c then
        let cl := (List.range 19).map fun s =>
          match clOrder.findIdx? (· = s) with
          | some i => d.part.getD i 0
          | none => 0
        if oversub cl || cl.all (· = 0) || 288 < d.a then r.bad 2
        else .go { r with d := { d with ph := .dynLen, cl := cl, part := [] } }
      else r.bits 3 fun r x => .go { r with d := { r.d with part := r.d.part ++ [x] } }
  | .dynLen => if d.over then r.bad 9 else r.dynStep
  | .body => if d.over then r.bad 9 else r.bodyStep
  | .wAdler => r.bits 32 fun r x =>
      let be := leNat ((leBytes 4 x).reverse)
      if be ≠ r.d.wchk then .fin r 0x22 0x13 else .fin { r with d := { r.d with ph := .done } } 0 0
  | .wCrc => r.bits 32 fun r x => if x ≠ r.d.wchk ^^^ 0xFFFFFFFF then .fin r 0x22 0x14 else r.to .wIsize
  | .wIsize => r.bits 32 fun r x =>
      if x ≠ r.d.outTotal % 2 ^ 32 then .fin r 0x22 0x15 else .fin { r with d := { r.d with ph := .done } } 0 0
  | .csfH0 => r.bits 32 fun r x => if x ≠ 0x46534843 then r.bad 8 else r.to .csfH1
  | .csfH1 => r.bits 32 fun r x =>
      if x / 256 ≠ 0 then r.bad 8 else if x % 256 ≠ 1 then .fin r 0x12 0x30 else r.to .cb0
  | .cb0 => r.bits 32 fun r x => .go { r with d := { r.d with ph := .cb1, a := x } }
  | .cb1 => r.bits 32 fun r x => .go { r with d := { r.d with ph := .cb2, b := x } }
  | .cb2 => r.bits 32 fun r x => .go { r with d := { r.d with ph := .cb3, blkLen := x } }
  | .cb3 => r.bits 32 fun r x => if x ≠ 0 then r.bad 8 else r.blockHdr
  | .nTab =>
      let k := 8 * 2 ^ d.width + 1
      if d.part.length = k then
        let nz := d.part.filter (· ≠ 0)
        if oversub d.part || nz.isEmpty || (nz.length = 1 && nz.headD 0 ≠ 1) then r.bad 2
        else .go { r with d := { d with lens := d.part, ph := .nSym } }
      else r.bits 4 fun r x => if r.d.over then r.bad 9 else .go { r with d := { r.d with part := r.d.part ++ [x] } }
  | .nSym =>
      if d.elem * 2 ^ d.width = d.blkLen then r.to .csfEnd
      else r.sym d.lens 17 fun r s =>
        if r.d.over then r.bad 9
        else if s < 2 then r.emit s
        else .go { r with d := { r.d with a := s, ph := .nExtra } }
  | .nExtra => r.bits (d.a - 1) fun r x => if r.d.over then r.bad 9 else r.emit (2 ^ (d.a - 1) + x)
  | .csfEnd =>
      if d.buf ≠ 0 ∨ d.taken ≠ d.coded ∨ d.blkDone ≠ d.blkLen then r.bad 9
      else r.align.to .cCrc
  | .cCrc => r.bits 32 fun r x =>
      if x ≠ r.d.blkCrc ^^^ 0xFFFFFFFF then .fin r 0x22 0x11 else r.to (if r.d.final then .csfT0 else .cb0)
  | .csfT0 => r.bits 32 fun r x => .go { r with d := { r.d with ph := .csfT1, a := x } }
  | .csfT1 => r.bits 32 fun r x =>
      if r.d.a + 2 ^ 32 * x ≠ r.d.sum then r.bad 0x0A else r.to .csfT2
  | .csfT2 => r.bits 32 fun r x =>
      if x ≠ r.d.crc ^^^ 0xFFFFFFFF then .fin r 0x22 0x12 else .fin { r with d := { r.d with ph := .done } } 0 0
  | .done => .fin r 0 0

/-- One step, a pending item first. -/
def DRun.once (r : DRun) : DRes := if r.d.pkind ≠ 0 then r.pending else r.step

/-- Steps until the run stops; `stop` stops it as soon as the destination is full. -/
def DRun.loop (stop : Bool) : Nat → DRun → DRes
  | 0, r => .need r
  | f + 1, r =>
    if stop && r.room = 0 then .full r
    else match r.once with
    | .go r => r.loop stop f
    | x => x

/-- Steps that suffice for a source and a destination. -/
def DRun.fuel (r : DRun) : Nat := 1024 + 40 * (r.src.length + 16) + 2 * r.room

/-- Is the end found beyond a full destination one of the final checks (13 R354, R365, R368, R372)? -/
def finalCheck (status detail : Nat) : Bool := status = 0 || status = 0x22 || detail = 9 || detail = 0x0A

/-- Decode as far as source and destination allow. When the destination ends exactly, the stream may still end there (13 R368);
`more` says that source bytes beyond these will follow. -/
def DRun.run (r : DRun) (more : Bool) : DRes :=
  match r.loop true r.fuel with
  | .full snap =>
    match snap.loop false snap.fuel with
    | .fin r s d => if finalCheck s d then .fin r s d else .full snap
    | .need r => if more then .need r else .full snap
    | _ => .full snap
  | x => x

/-- The whole output of a stream, for a destination with room. -/
def decodeAll (csf : Bool) (wrap : Nat) (src : List Byte) (room : Nat) : Option (List Byte × Nat × Nat) :=
  match ({ d := Dec.start csf wrap, src := src, room := room, out := [] } : DRun).run false with
  | .fin r s d => some (r.out.reverse, s, d)
  | .full r => some (r.out.reverse, 0x20, 0)
  | _ => none

end Sys2Proof.Machine
end

