-- ==== Sys2Proof/Machine/Deflate.lean ====
section
/-! DEFINITION. Compression to DEFLATE and to the Chius stream format, unit of output by unit of output (13 R352, R353, R355 to
R367). The choices that the spec leaves to the engine (which matches, which code lengths) are constants of Config; a choice that
would not decode is replaced by a plain one. -/

namespace Sys2Proof.Machine
open Sys2Proof

/-! ### Tokens -/

/-- A literal or a match. -/
inductive Tok where
  | lit (b : Byte)
  | mat (len dist : Nat)
  deriving DecidableEq, Repr

/-- The token at a position: the engine's choice if it is a match of 3 to 258 bytes inside the window of `win` bytes and inside
what is left of the block, otherwise a literal (13 R352). The engine keeps 512 bytes of the window free for source that a unit takes ahead
of its match (log entry 7). -/
def pickTok (win : Nat) (hist rest : List Byte) : Option Tok :=
  match rest with
  | [] => none
  | b :: _ =>
    let k := Config.lzPick (hist.take (min win 32256)) rest
    let len := k / 65536
    let dist := k % 65536
    if 3 ≤ len ∧ len ≤ 258 ∧ 1 ≤ dist ∧ dist ≤ min win 32256 ∧ len ≤ rest.length ∧ matchBytes dist len hist = rest.take len
    then some (.mat len dist)
    else some (.lit b)

/-- Bytes a token stands for. -/
def Tok.len : Tok → Nat
  | .lit _ => 1
  | .mat l _ => l

/-- Tokens of the rest of a block. -/
def tokens : Nat → Nat → List Byte → List Byte → List Tok
  | 0, _, _, _ => []
  | f + 1, win, hist, rest =>
    match pickTok win hist rest with
    | none => []
    | some t =>
      let k := t.len
      t :: tokens f (win + k) (((rest.take k).reverse ++ hist).take 32768) (rest.drop k)

/-! ### Prefix codes -/

/-- The code of a symbol, most significant bit first (RFC 1951 3.2.2). -/
def codeOf (lens : List Nat) (s : Nat) : Nat :=
  let l := lens.getD s 0
  let first := (List.range l).foldl (fun c i => (c + lenCount (lens.map fun x => if x = 0 then 99 else x) i) * 2) 0
  first + ((lens.take s).filter (· = l)).length

/-- The k low bits of v in reverse order. -/
def flipBits : Nat → Nat → Nat
  | 0, _ => 0
  | k + 1, v => (v % 2) * 2 ^ k + flipBits k (v / 2)

/-- A unit of output: its bits, least significant first, and their number. -/
abbrev Unit_ := Nat × Nat

/-- Two runs of bits after each other. -/
def catBits (a b : Unit_) : Unit_ := (a.1 + b.1 * 2 ^ a.2, a.2 + b.2)

/-- A symbol as bits. -/
def symBits (lens : List Nat) (s : Nat) : Unit_ := (flipBits (lens.getD s 0) (codeOf lens s), lens.getD s 0)

/-- Length symbol of a match length with its extra bits. -/
def lenSym (len : Nat) : Nat × Nat × Nat :=
  if len = 258 then (285, 0, 0)
  else
    let i := ((List.range 28).filter fun i => decide ((lenBase i).1 ≤ len)).getLast?.getD 0
    (257 + i, len - (lenBase i).1, (lenBase i).2)

/-- Distance symbol of a distance with its extra bits. -/
def distSym (d : Nat) : Nat × Nat × Nat :=
  let i := ((List.range 30).filter fun i => decide ((distBase i).1 ≤ d)).getLast?.getD 0
  (i, d - (distBase i).1, (distBase i).2)

/-- A token as bits under the lengths of 288 + 32 symbols. -/
def tokBits (lens : List Nat) : Tok → Unit_
  | .lit b => symBits (lens.take 288) b.toNat
  | .mat len dist =>
    let (s, x, e) := lenSym len
    let (t, y, g) := distSym dist
    catBits (catBits (symBits (lens.take 288) s) (x, e)) (catBits (symBits (lens.drop 288) t) (y, g))

/-- Counts of the 288 + 32 symbols, with the end of block. -/
def tokCounts (ts : List Tok) : List Nat :=
  (List.range 320).map fun i =>
    b2n (i = 256) + (ts.filter fun t => match t with
      | .lit b => b.toNat = i
      | .mat len dist => (lenSym len).1 = i || 288 + (distSym dist).1 = i).length

/-- Code lengths that cover every symbol of the ranges of RFC 1951: the plain choice. -/
def plainLens : List Nat :=
  List.replicate 226 8 ++ List.replicate 60 9 ++ [0, 0] ++ List.replicate 2 4 ++ List.replicate 28 5 ++ [0, 0]

/-- May these lengths code a block with the given counts? -/
def lensOk (counts lens : List Nat) : Bool :=
  lens.length = 320 && lens.all (fun l => decide (l ≤ 15)) && !oversub (lens.take 288) && !oversub (lens.drop 288)
    && (List.range 320).all (fun i => counts.getD i 0 = 0 || lens.getD i 0 ≠ 0)
    && lens.getD 286 0 = 0 && lens.getD 287 0 = 0 && lens.getD 318 0 = 0 && lens.getD 319 0 = 0

/-- Dynamic code lengths of a block (13 R352). -/
def blockLens (counts : List Nat) : List Nat :=
  let l := Config.dynLens counts
  if lensOk counts l then l else plainLens

/-- All bits of a list of units. -/
def packUnits (us : List Unit_) : Unit_ := us.foldl catBits (0, 0)

/-- The plain header of dynamic code lengths: every length by itself, code length codes of four bits. -/
def plainHeader (lens : List Nat) : Unit_ :=
  let cls := List.replicate 16 4 ++ [0, 0, 0]
  let head : Unit_ := packUnits [(29, 5), (29, 5), (15, 4)]
  let cl := packUnits (clOrder.map fun s => (cls.getD s 0, 3))
  packUnits ([head, cl] ++ (lens.take 286 ++ (lens.drop 288).take 30).map fun l => symBits cls l)

/-- Bytes of a run of bits, zeros up to the boundary. -/
def bitBytes (u : Unit_) : List Byte := leBytes ((u.2 + 7) / 8) u.1

/-- Does a header decode to these lengths, with no bit left over? -/
def headerOk (lens : List Nat) (u : Unit_) : Bool :=
  let r : DRun := { d := { Dec.start false 0 with ph := .dynCnt }, src := bitBytes u, room := 0, out := [] }
  match (List.range 400).foldl (fun (x : DRes) _ => match x with
      | .go r => if r.d.ph = .body then .go r else r.step
      | y => y) (.go r) with
  | .go r => r.d.ph = .body && r.d.lens = lens && 8 * ((u.2 + 7) / 8) = u.2 + r.d.n + 8 * r.src.length
  | _ => false

/-- Header of dynamic code lengths (13 R352). -/
def lensHeader (lens : List Nat) : Unit_ :=
  let u := packUnits (Config.dynHeader lens)
  if headerOk lens u then u else plainHeader lens

/-! ### CSF numeric (13 R359 to R361) -/

/-- Zigzag value of a residue (13 R360). -/
def zig (wbits r : Nat) : Nat :=
  let m := 2 ^ wbits
  ((2 * r) % m) ^^^ (if 2 ^ (wbits - 1) ≤ r then m - 1 else 0)

/-- Symbol, extra bits and their number of the next element (13 R360). -/
def numSym (width pred stride elem : Nat) (hist : List Byte) (e : Nat) : Nat × Nat × Nat :=
  let wb := 8 * 2 ^ width
  let p := predictFrom hist width pred stride elem
  let r := if pred = 4 then e ^^^ p else (e + 2 ^ wb - p) % 2 ^ wb
  let z := zig wb r
  if z = 0 then (0, 0, 0) else
    let s := z.log2 + 1
    (s, z - 2 ^ (s - 1), s - 1)

/-- Symbols of the rest of a numeric block. -/
def numSyms (width pred stride : Nat) : Nat → Nat → List Byte → List Byte → List (Nat × Nat × Nat)
  | 0, _, _, _ => []
  | f + 1, elem, hist, rest =>
    let w := 2 ^ width
    if rest.length < w then []
    else
      let x := rest.take w
      numSym width pred stride elem hist (leNat x) ::
        numSyms width pred stride f (elem + 1) ((x.reverse ++ hist).take 32768) (rest.drop w)

/-- Static code lengths (13 R361). -/
def staticNum (width : Nat) : List Nat := List.replicate (8 * 2 ^ width + 1) (4 + width)

/-- Dynamic code lengths of a numeric block (13 R361). -/
def dynNum (width : Nat) (syms : List (Nat × Nat × Nat)) : List Nat :=
  let k := 8 * 2 ^ width + 1
  let counts := (List.range k).map fun i => (syms.filter fun s => s.1 = i).length
  let l := Config.numLens counts
  let nz := l.filter (· ≠ 0)
  if l.length = k && l.all (fun x => decide (x ≤ 15)) && !oversub l && !nz.isEmpty && !(nz.length = 1 && nz.headD 0 ≠ 1)
      && (List.range k).all fun i => counts.getD i 0 = 0 || l.getD i 0 ≠ 0
  then l else staticNum width

/-- Bits of a numeric payload. -/
def numSize (lens : List Nat) (dyn : Bool) (syms : List (Nat × Nat × Nat)) : Nat :=
  (if dyn then 4 * lens.length else 0) + syms.foldl (fun n s => n + lens.getD s.1 0 + s.2.2) 0

/-! ### Compressor state -/

/-- Where the compressor stands. -/
inductive CPh where
  | head | block | table | body | blockEnd | tail | done
  deriving DecidableEq, Repr

/-- The compressor. -/
structure Comp where
  csf : Bool
  wrap : Nat
  tables : Nat
  /-- CSF: requested KIND, WIDTH, PRED, STRIDE and log2 of the block size. -/
  kind : Nat
  width : Nat
  pred : Nat
  stride : Nat
  blkLog : Nat
  limit : Nat
  ph : CPh
  /-- Pending bits and their number, 0 to 7. -/
  buf : Nat
  n : Nat
  /-- The open block: 0 stored, 1 fixed or static, 2 dynamic; its KIND and predictor; last of the stream; lengths. -/
  mode : Nat
  bkind : Nat
  bpred : Nat
  last : Bool
  lens : List Nat
  blkLen : Nat
  blkDone : Nat
  blkCrc : Nat
  outTotal : Nat
  inTotal : Nat
  crc : Nat
  wchk : Nat
  /-- Input that the output represents, newest first. -/
  hist : List Byte
  /-- Bytes consumed after it, the start of a match that ends in a later unit (02 R64). -/
  ahead : List Byte := []
  deriving DecidableEq, Repr

/-- How a block is coded. -/
structure Plan where
  mode : Nat
  pred : Nat
  lens : List Nat
  /-- Payload bits. -/
  size : Nat
  deriving DecidableEq, Repr

/-- The smaller of two plans, the first on a tie. -/
def Plan.better (a b : Plan) : Plan := if b.size < a.size then b else a

/-- Coded plan of a DEFLATE block body with tokens ts; `pre` bits stand before the table (13 R352, R362). -/
def lzPlan (tables pre : Nat) (ts : List Tok) : Plan :=
  let body := fun lens => ts.foldl (fun n t => n + (tokBits lens t).2) ((symBits (lens.take 288) 256).2)
  let fixed : Plan := { mode := 1, pred := 0, lens := fixedLL ++ fixedD, size := pre + body (fixedLL ++ fixedD) }
  let dl := blockLens (tokCounts ts)
  let dyn : Plan := { mode := 2, pred := 0, lens := dl, size := pre + (lensHeader dl).2 + body dl }
  if tables = 0 then fixed else if tables = 1 then dyn else fixed.better dyn

/-- Coded plan of a numeric block under one predictor (13 R361, R364). -/
def numPlan (tables width stride : Nat) (blk : List Byte) (pred : Nat) : Plan :=
  let syms := numSyms width pred stride blk.length 0 [] blk
  let st : Plan := { mode := 1, pred := pred, lens := staticNum width, size := numSize (staticNum width) false syms }
  let dl := dynNum width syms
  let dy : Plan := { mode := 2, pred := pred, lens := dl, size := numSize dl true syms }
  if tables = 0 then st else if tables = 1 then dy else st.better dy

/-- Bytes of the next block of a stream with these bytes left (13 R352, R364). -/
def Comp.blockSize (c : Comp) (left : Nat) : Nat :=
  let b := if c.csf then 2 ^ c.blkLog else 65536
  let k := min b left
  if c.csf && c.kind = 0 then
    let w := 2 ^ c.width
    if k < w then k else k / w * w
  else k

/-- The plan of the block that begins with these bytes: stored when that is smaller (13 R352, R364). -/
def Comp.plan (c : Comp) (blk : List Byte) : Plan × Nat :=
  let len := blk.length
  let stored : Plan := { mode := 0, pred := 0, lens := [], size := 8 * len }
  if c.csf then
    if c.kind = 0 then
      if len % 2 ^ c.width ≠ 0 then (stored, 2)
      else
        let p := if c.pred = 7 then
            [1, 2, 3, 4].foldl (fun (p : Plan) k => if k = 3 ∧ c.stride = 0 then p else p.better (numPlan c.tables c.width c.stride blk k))
              (numPlan c.tables c.width c.stride blk 0)
          else numPlan c.tables c.width c.stride blk c.pred
        if (p.size + 7) / 8 < len then (p, 0) else (stored, 2)
    else
      let p := lzPlan c.tables 2 (tokens len 0 [] blk)
      if (p.size + 7) / 8 < len then (p, 1) else (stored, 2)
  else
    let p := lzPlan c.tables 3 (tokens len (min c.inTotal 32768) c.hist blk)
    let pieces := (len + 65534) / 65535
    let first := 3 + (8 - (c.n + 3) % 8) % 8 + 32
    if first + (pieces - 1) * 40 + 8 * len < p.size then (stored, 2) else (p, 1)

/-- A unit of output with the input bytes it represents and the state after it. -/
structure Emit where
  unit : Unit_
  take : Nat
  st : Comp

/-- k zero bits up to a byte boundary after n bits. -/
def padTo (n : Nat) : Nat := (8 - n % 8) % 8

/-- Input bytes consumed. -/
def Comp.eat (c : Comp) (bs : List Byte) : Comp :=
  { c with
    hist := (bs.reverse ++ c.hist).take 32768, inTotal := c.inTotal + bs.length, blkDone := c.blkDone + bs.length
    crc := crc32cRun c.crc bs, blkCrc := crc32cRun c.blkCrc bs
    wchk := if c.wrap = 1 then adlerRun c.wchk bs else if c.wrap = 2 then crc32Run c.wchk bs else c.wchk }

/-- Header of a CSF block as a number of 16 bytes (13 R358). -/
def csfHeader (last : Bool) (bkind : Nat) (p : Plan) (width stride orig : Nat) : Nat :=
  let num := bkind = 0
  (b2n last * 128 + bkind)
    + (if num then (b2n (p.mode = 2) * 32 + p.pred * 4 + width) * 2 ^ 8 else 0)
    + (if num ∧ p.pred = 3 then stride * 2 ^ 16 else 0)
    + orig * 2 ^ 32 + ((p.size + 7) / 8) * 2 ^ 64

/-- The next unit, from the source that is left; none when the stream is over. `beyond` counts source bytes after `rest`, which
reaches at least to the end of the open block, or of the block to be opened. -/
def Comp.next (c : Comp) (rest : List Byte) (beyond : Nat) : Option Emit :=
  match c.ph with
  | .head =>
    let u : Unit_ := if c.csf then (0x01 * 2 ^ 32 + 0x46534843, 64)
      else if c.wrap = 1 then (0x9C78, 16)
      else if c.wrap = 2 then (leNat [0x1F, 0x8B, 8, 0, 0, 0, 0, 0, 0, 0xFF], 80)
      else (0, 0)
    some { unit := u, take := 0, st := { c with ph := .block } }
  | .block =>
    let len := c.blockSize (rest.length + beyond)
    let blk := rest.take len
    let (p, bkind) := c.plan blk
    let last := len = rest.length + beyond
    let c' := { c with mode := p.mode, bkind := bkind, bpred := p.pred, lens := p.lens, blkLen := len, blkDone := 0,
                       blkCrc := 0xFFFFFFFF, last := last }
    if c.csf then
      some { unit := (csfHeader last bkind p c.width c.stride len, 128), take := 0
             st := { c' with hist := [], ph := if bkind = 2 then .body else .table } }
    else if p.mode = 0 then some { unit := (0, 0), take := 0, st := { c' with ph := .body } }
    else some { unit := (b2n last + 2 * p.mode, 3), take := 0, st := { c' with ph := if p.mode = 2 then .table else .body } }
  | .table =>
    let u : Unit_ :=
      if c.csf && c.bkind = 0 then (if c.mode = 2 then packUnits (c.lens.map fun l => (l, 4)) else (0, 0))
      else
        let ty : Unit_ := if c.csf then (c.mode, 2) else (0, 0)
        if c.mode = 2 then catBits ty (lensHeader c.lens) else ty
    some { unit := u, take := 0, st := { c with ph := .body } }
  | .body =>
    let left := c.blkLen - c.blkDone
    if left = 0 then
      let u : Unit_ := if c.mode ≠ 0 && !(c.csf && c.bkind = 0) then symBits (c.lens.take 288) 256 else (0, 0)
      some { unit := u, take := 0, st := { c with ph := if c.csf then .blockEnd else if c.last then .tail else .block } }
    else if c.mode = 0 then
      let hdr : Unit_ :=
        if !c.csf && c.blkDone % 65535 = 0 then
          let k := min left 65535
          let pad := padTo (c.n + 3)
          (b2n (c.last && k = left) + (k + (65535 - k) * 2 ^ 16) * 2 ^ (3 + pad), 3 + pad + 32)
        else (0, 0)
      let x := rest.take 1
      some { unit := catBits hdr (leNat x, 8), take := 1, st := c.eat x }
    else if c.csf && c.bkind = 0 then
      let w := 2 ^ c.width
      let x := rest.take w
      let (s, e, k) := numSym c.width c.bpred c.stride (c.blkDone / w) c.hist (leNat x)
      some { unit := catBits (symBits c.lens s) (e, k), take := w, st := c.eat x }
    else
      match pickTok (if c.csf then min c.blkDone 32768 else min c.inTotal 32768) c.hist (rest.take left) with
      | none => none
      | some t => some { unit := tokBits c.lens t, take := t.len, st := c.eat (rest.take t.len) }
  | .blockEnd =>
    let pad := padTo c.n
    some { unit := ((c.blkCrc ^^^ 0xFFFFFFFF) * 2 ^ pad, pad + 32), take := 0, st := { c with ph := if c.last then .tail else .block } }
  | .tail =>
    let pad := padTo c.n
    let u : Unit_ :=
      if c.csf then (c.inTotal + (c.crc ^^^ 0xFFFFFFFF) * 2 ^ 64, 96)
      else if c.wrap = 1 then (leNat (leBytes 4 c.wchk).reverse, 32)
      else if c.wrap = 2 then ((c.wchk ^^^ 0xFFFFFFFF) + (c.inTotal % 2 ^ 32) * 2 ^ 32, 64)
      else (0, 0)
    some { unit := (u.1 * 2 ^ pad, pad + u.2), take := 0, st := { c with ph := .done } }
  | .done => none

/-- How a run of the compressor ends. -/
inductive CEnd where
  | done | full | notShrunk
  /-- The source bytes asked for have been consumed and more follow. -/
  | unit
  deriving DecidableEq, Repr

/-- A run: state, source left, room left, output newest first. -/
structure CRun where
  c : Comp
  src : List Byte
  /-- Source bytes after `src`. -/
  beyond : Nat
  room : Nat
  out : List Byte

/-- Emit units until the stream ends, the destination is full, the limit is reached, or the next one would represent source beyond
`stop` (13 R366, R367). -/
def CRun.loop (stop : Nat) : Nat → CRun → CRun × CEnd
  | 0, r => (r, .unit)
  | f + 1, r =>
    if stop ≤ r.c.inTotal && (!r.src.isEmpty || decide (0 < r.beyond)) then (r, .unit)
    else match r.c.next r.src r.beyond with
    | none => (r, .done)
    | some e =>
      if stop < r.c.inTotal + e.take then (r, .unit) else
      let all := catBits (r.c.buf, r.c.n) e.unit
      let bytes := all.2 / 8
      if e.unit.2 ≠ 0 && r.c.limit ≤ r.c.outTotal + (all.2 + 7) / 8 then (r, .notShrunk)
      else if r.room < bytes then (r, .full)
      else
        CRun.loop stop f { c := { e.st with buf := all.1 / 2 ^ (8 * bytes), n := all.2 % 8, outTotal := r.c.outTotal + bytes }
                           src := r.src.drop e.take, beyond := r.beyond, room := r.room - bytes, out := (leBytes bytes all.1).reverse ++ r.out }

/-- Steps that suffice. -/
def CRun.run (stop : Nat) (r : CRun) : CRun × CEnd := r.loop stop (64 + 16 * (r.src.length + 1))

/-- A compressor at the start of a stream. -/
def Comp.start (csf : Bool) (wrap tables kind width pred stride blkLog limit : Nat) : Comp :=
  { csf := csf, wrap := wrap, tables := tables, kind := kind, width := width, pred := pred, stride := stride
    blkLog := if blkLog = 0 then 20 else blkLog, limit := limit, ph := .head, buf := 0, n := 0, mode := 0, bkind := 0, bpred := 0
    last := false, lens := [], blkLen := 0, blkDone := 0, blkCrc := 0xFFFFFFFF, outTotal := 0, inTotal := 0, crc := 0xFFFFFFFF
    wchk := if wrap = 1 then 1 else 0xFFFFFFFF, hist := [] }

end Sys2Proof.Machine
end

