-- ==== Sys2Proof/Machine/FloatArith.lean ====
section
/-! DEFINITION. binary32 and binary64 arithmetic of 03 R90 to R97: every operation as if exact, then rounded once. Numbers are
held as sign, Nat significand and Int exponent, so nothing is rounded before the last step. -/

namespace Sys2Proof.Machine
open Sys2Proof

/-- FCSR flags: bit 4 NV, 3 DZ, 2 OF, 1 UF, 0 NX (03 R95). -/
abbrev FFlags := BitVec 5
/-- NV. -/
def fNV : FFlags := 16
/-- DZ. -/
def fDZ : FFlags := 8
/-- OF and NX. -/
def fOF : FFlags := 5
/-- UF and NX. -/
def fUF : FFlags := 3
/-- NX. -/
def fNX : FFlags := 1

/-- Stored fraction bits: 23 or 52. -/
def fMant (d : Bool) : Nat := if d then 52 else 23
/-- Exponent bits: 8 or 11. -/
def fExpBits (d : Bool) : Nat := if d then 11 else 8
/-- Exponent of the least subnormal: −149 or −1074. -/
def fQmin (d : Bool) : Int := if d then -1074 else -149
/-- Exponent field of infinities and NaNs. -/
def fExpTop (d : Bool) : Nat := 2 ^ fExpBits d - 1

/-- A decoded operand. -/
inductive FNum where
  | fin (neg : Bool) (m : Nat) (e : Int)
  | inf (neg : Bool)
  | qnan
  | snan
  deriving DecidableEq, Repr

/-- Decode an operand; a binary32 source ignores bits 63:32 (03 R90). -/
def fDecode (d : Bool) (w : Word) : FNum :=
  let n := if d then w.toNat else w.toNat % 2 ^ 32
  let frac := n % 2 ^ fMant d
  let ex := (n >>> fMant d) % 2 ^ fExpBits d
  let neg := n.testBit (fMant d + fExpBits d)
  if ex = fExpTop d then
    if frac = 0 then .inf neg
    else if frac.testBit (fMant d - 1) then .qnan else .snan
  else if ex = 0 then .fin neg frac (fQmin d)
  else .fin neg (frac + 2 ^ fMant d) (fQmin d + (ex - 1 : Nat))

/-- Assemble sign, exponent field and fraction. -/
def fPack (d neg : Bool) (ex frac : Nat) : Word :=
  w64 ((b2n neg <<< (fMant d + fExpBits d)) + (ex <<< fMant d) + frac)
/-- The canonical quiet NaN (03 R92). -/
def fNaN (d : Bool) : Word := fPack d false (fExpTop d) (2 ^ (fMant d - 1))
/-- Infinity. -/
def fInf (d neg : Bool) : Word := fPack d neg (fExpTop d) 0
/-- Zero. -/
def fZero (d neg : Bool) : Word := fPack d neg 0 0
/-- The largest finite value. -/
def fMax (d neg : Bool) : Word := fPack d neg (fExpTop d - 1) (2 ^ fMant d - 1)

/-- Whether the magnitude rounds up: rounding mode, sign, low bit of the kept part, and the discarded part against half
(0 exact, 1 below half, 2 half, 3 above) (03 R95). -/
def fUp (rm : Nat) (neg odd : Bool) (rest : Nat) : Bool :=
  if rest = 0 then false
  else if rm = 1 then false
  else if rm = 2 then neg
  else if rm = 3 then !neg
  else if rm = 4 then decide (rest ≥ 2)
  else decide (rest = 3) || (decide (rest = 2) && odd)

/-- The discarded low sh bits of m, with a sticky bit below them, against half. -/
def fRest (m sh : Nat) (sticky : Bool) : Nat :=
  if sh = 0 then (if sticky then 1 else 0)
  else
    let r := m % 2 ^ sh
    let half := 2 ^ (sh - 1)
    if r = 0 then (if sticky then 1 else 0)
    else if r < half then 1
    else if r = half then (if sticky then 3 else 2)
    else 3

/-- m × 2^e rounded to a multiple of 2^q, as the quotient, with whether it was inexact. -/
def fRoundAt (rm : Nat) (neg : Bool) (m : Nat) (e q : Int) (sticky : Bool) : Nat × Bool :=
  if e ≥ q then (m <<< (e - q).toNat, sticky)
  else
    let sh := (q - e).toNat
    let k := m >>> sh
    let rest := fRest m sh sticky
    ((if fUp rm neg (k % 2 = 1) rest then k + 1 else k), decide (rest ≠ 0))

/-- Round a nonzero magnitude (m + sticky) × 2^e once into the format (03 R91). -/
def fRound (d : Bool) (rm : Nat) (neg : Bool) (m : Nat) (e : Int) (sticky : Bool) : Word × FFlags :=
  let p : Int := fMant d + 1
  let qn : Int := e + (Nat.log2 m + 1 : Nat) - p
  let q : Int := max qn (fQmin d)
  let (k, inx) := fRoundAt rm neg m e q sticky
  -- tininess after rounding: rounded at unbounded exponent range, still below the least normal
  let (kn, _) := fRoundAt rm neg m e qn sticky
  let tiny := decide (qn + (Nat.log2 kn : Int) < fQmin d + fMant d)
  let (k, q) := if k = 2 ^ (fMant d + 1) then (2 ^ fMant d, q + 1) else (k, q)
  let ex : Int := if k < 2 ^ fMant d then 0 else q - fQmin d + 1
  if ex ≥ fExpTop d then
    ((if rm = 1 || (rm = 2 && !neg) || (rm = 3 && neg) then fMax d neg else fInf d neg), fOF)
  else
    (fPack d neg ex.toNat (k % 2 ^ fMant d), if inx then (if tiny then fUF else fNX) else 0)

/-- Round an exact integer multiple v × 2^e; an exact zero takes the sign zneg. -/
def fRoundInt (d : Bool) (rm : Nat) (zneg : Bool) (v : Int) (e : Int) : Word × FFlags :=
  if v = 0 then (fZero d zneg, 0) else fRound d rm (decide (v < 0)) v.natAbs e false

/-- NV for a signalling NaN operand (03 R92). -/
def fSig (x : FNum) : FFlags := match x with | .snan => fNV | _ => 0
/-- Is it a NaN? -/
def fIsNaN (x : FNum) : Bool := match x with | .snan => true | .qnan => true | _ => false

/-- Signed significand at exponent e0 ≤ e. -/
def fAlign (neg : Bool) (m : Nat) (e e0 : Int) : Int :=
  let v : Int := (m <<< (e - e0).toNat : Nat)
  if neg then -v else v

/-- Exact sum of two finite values, rounded once; the sign rule of an exact zero sum is 03 R93's. -/
def fSum (d : Bool) (rm : Nat) (na : Bool) (ma : Nat) (ea : Int) (nb : Bool) (mb : Nat) (eb : Int) : Word × FFlags :=
  if ma = 0 ∧ mb = 0 ∧ na = nb then (fZero d na, 0)
  else
    let e0 := min ea eb
    fRoundInt d rm (rm = 2) (fAlign na ma ea e0 + fAlign nb mb eb e0) e0

/-- `fadd`, and `fsub` with the second operand negated (03 R93). -/
def fAdd (d : Bool) (rm : Nat) (sub : Bool) (a b : Word) : Word × FFlags :=
  match fDecode d a, fDecode d b with
  | .fin na ma ea, .fin nb mb eb => fSum d rm na ma ea (nb != sub) mb eb
  | .inf na, .inf nb => if na = (nb != sub) then (fInf d na, 0) else (fNaN d, fNV)
  | .inf na, .fin .. => (fInf d na, 0)
  | .fin .., .inf nb => (fInf d (nb != sub), 0)
  | x, y => (fNaN d, fSig x ||| fSig y)

/-- `fmul` (03 R93). -/
def fMul (d : Bool) (rm : Nat) (a b : Word) : Word × FFlags :=
  match fDecode d a, fDecode d b with
  | .fin na ma ea, .fin nb mb eb =>
    if ma * mb = 0 then (fZero d (na != nb), 0) else fRound d rm (na != nb) (ma * mb) (ea + eb) false
  | .inf na, .inf nb => (fInf d (na != nb), 0)
  | .inf na, .fin nb mb _ => if mb = 0 then (fNaN d, fNV) else (fInf d (na != nb), 0)
  | .fin na ma _, .inf nb => if ma = 0 then (fNaN d, fNV) else (fInf d (na != nb), 0)
  | x, y => (fNaN d, fSig x ||| fSig y)

/-- `fdiv` (03 R93): the quotient to 120 bits with a sticky bit. -/
def fDiv (d : Bool) (rm : Nat) (a b : Word) : Word × FFlags :=
  match fDecode d a, fDecode d b with
  | .fin na ma ea, .fin nb mb eb =>
    if mb = 0 then (if ma = 0 then (fNaN d, fNV) else (fInf d (na != nb), fDZ))
    else if ma = 0 then (fZero d (na != nb), 0)
    else
      let n := ma <<< 180
      fRound d rm (na != nb) (n / mb) (ea - eb - 180) (n % mb ≠ 0)
  | .inf _, .inf _ => (fNaN d, fNV)
  | .inf na, .fin nb _ _ => (fInf d (na != nb), 0)
  | .fin na _ _, .inf nb => (fZero d (na != nb), 0)
  | x, y => (fNaN d, fSig x ||| fSig y)

/-- Integer square root by k result bits, most significant first. -/
def isqrt : Nat → Nat → Nat → Nat
  | 0, _, r => r
  | k + 1, n, r => let t := r + 2 ^ k; isqrt k n (if t * t ≤ n then t else r)

/-- `fsqrt` (03 R93). -/
def fSqrt (d : Bool) (rm : Nat) (a : Word) : Word × FFlags :=
  match fDecode d a with
  | .fin na ma ea =>
    if ma = 0 then (fZero d na, 0)
    else if na then (fNaN d, fNV)
    else
      let odd : Bool := ea % 2 ≠ 0
      let n := ma <<< (if odd then 121 else 120)
      let e : Int := (if odd then ea - 121 else ea - 120) / 2
      let r := isqrt 90 n 0
      fRound d rm false r e (r * r ≠ n)
  | .inf na => if na then (fNaN d, fNV) else (fInf d false, 0)
  | x => (fNaN d, fSig x)

/-- `fma` family (03 R93): np negates the product, nc the addend; one rounding. -/
def fFma (d : Bool) (rm : Nat) (np nc : Bool) (a b c : Word) : Word × FFlags :=
  let y := fDecode d c
  let prod : Option (Bool × Nat × Int) ⊕ Option Bool :=
    match fDecode d a, fDecode d b with
    | .fin na ma ea, .fin nb mb eb => .inl (some ((na != nb) != np, ma * mb, ea + eb))
    | .inf na, .inf nb => .inr (some ((na != nb) != np))
    | .inf na, .fin nb mb _ => if mb = 0 then .inl none else .inr (some ((na != nb) != np))
    | .fin na ma _, .inf nb => if ma = 0 then .inl none else .inr (some ((na != nb) != np))
    | _, _ => .inr none
  let sig := fSig (fDecode d a) ||| fSig (fDecode d b) ||| fSig y
  match prod with
  | .inl none => (fNaN d, fNV)
  | .inr none => (fNaN d, sig)
  | .inl (some (np', mp, ep)) =>
    match y with
    | .fin ny my ey => fSum d rm np' mp ep (ny != nc) my ey
    | .inf ny => (fInf d (ny != nc), 0)
    | _ => (fNaN d, sig)
  | .inr (some np') =>
    match y with
    | .fin .. => (fInf d np', 0)
    | .inf ny => if np' = (ny != nc) then (fInf d np', 0) else (fNaN d, fNV)
    | _ => (fNaN d, sig)

/-- Total order of non-NaN values for fmin and fmax: −0 is less than +0 (03 R93). -/
def fLess (zeros : Bool) (x y : FNum) : Bool :=
  match x, y with
  | .inf true, .inf true => false
  | .inf true, _ => true
  | _, .inf true => false
  | .inf false, _ => false
  | _, .inf false => true
  | .fin na ma ea, .fin nb mb eb =>
    let e0 := min ea eb
    let va := fAlign na ma ea e0
    let vb := fAlign nb mb eb e0
    if va = 0 ∧ vb = 0 then zeros && na && !nb else decide (va < vb)
  | _, _ => false

/-- An operand as a result of its format (binary32 clears bits 63:32, 03 R90). -/
def fTrim (d : Bool) (a : Word) : Word := if d then a else w64 (a.toNat % 2 ^ 32)

/-- `fmin`, `fmax` (03 R93). -/
def fMinMax (d isMax : Bool) (a b : Word) : Word × FFlags :=
  let x := fDecode d a
  let y := fDecode d b
  let sig := fSig x ||| fSig y
  if fIsNaN x && fIsNaN y then (fNaN d, sig)
  else if fIsNaN x then (fTrim d b, sig)
  else if fIsNaN y then (fTrim d a, sig)
  else
    let less := fLess true x y
    (fTrim d (if isMax then (if less then b else a) else (if fLess true y x then b else a)), 0)

/-- The three comparisons (03 R93). -/
inductive FCmp where
  | eq | lt | le
  deriving DecidableEq, Repr

/-- `fcmp.eq`, `fcmp.lt`, `fcmp.le` (03 R93). -/
def fCmp (d : Bool) (c : FCmp) (a b : Word) : Word × FFlags :=
  let x := fDecode d a
  let y := fDecode d b
  if fIsNaN x || fIsNaN y then
    (0, match c with | .eq => fSig x ||| fSig y | _ => fNV)
  else
    let lt := fLess false x y
    let gt := fLess false y x
    (boolW (match c with | .eq => !lt && !gt | .lt => lt | .le => !gt), 0)

/-- `fclass` (03 R93). -/
def fClass (d : Bool) (a : Word) : Word :=
  match fDecode d a with
  | .inf true => 1
  | .inf false => 0x80
  | .snan => 0x100
  | .qnan => 0x200
  | .fin neg m _ =>
    if m = 0 then (if neg then 8 else 0x10)
    else if m < 2 ^ fMant d then (if neg then 4 else 0x20)
    else (if neg then 2 else 0x40)

/-- `fcvt.l`, `fcvt.lu` (03 R93, R94). -/
def fToInt (d : Bool) (rm : Nat) (signed : Bool) (a : Word) : Word × FFlags :=
  let hi : Int := if signed then 2 ^ 63 - 1 else 2 ^ 64 - 1
  let lo : Int := if signed then -(2 ^ 63) else 0
  match fDecode d a with
  | .fin neg m e =>
    let (k, inx) := fRoundAt rm neg m e 0 false
    let v : Int := if neg then -(k : Int) else k
    if v > hi then (BitVec.ofInt 64 hi, fNV)
    else if v < lo then (BitVec.ofInt 64 lo, fNV)
    else (BitVec.ofInt 64 v, if inx then fNX else 0)
  | .inf neg => (BitVec.ofInt 64 (if neg then lo else hi), fNV)
  | _ => (BitVec.ofInt 64 hi, fNV)

/-- `fcvt.fl`, `fcvt.flu` (03 R93). -/
def fFromInt (d : Bool) (rm : Nat) (signed : Bool) (a : Word) : Word × FFlags :=
  fRoundInt d rm false (if signed then a.toInt else a.toNat) 0

/-- `fcvt.p`: to binary64 from binary32, or to binary32 from binary64 (03 R93). -/
def fCvtP (d : Bool) (rm : Nat) (a : Word) : Word × FFlags :=
  match fDecode (!d) a with
  | .fin neg m e => if m = 0 then (fZero d neg, 0) else fRound d rm neg m e false
  | .inf neg => (fInf d neg, 0)
  | x => (fNaN d, fSig x)

end Sys2Proof.Machine
end

