-- ==== Sys2Proof/Machine/Fraction.lean ====
section
/-! DEFINITION. The fraction functions of 03 R81 to R89: exact products, 160-bit accumulators, extraction. -/

namespace Sys2Proof.Machine
open Sys2Proof

/-- An accumulator: a 160-bit two's-complement integer (03 R82). -/
abbrev Acc := BitVec 160

/-- Fraction operand widths: k = 15, 31 or 63 (03 R81). -/
inductive QFmt where
  | q15 | q31 | q63
  deriving DecidableEq, Repr

/-- k of Qk. -/
def QFmt.k : QFmt → Nat
  | .q15 => 15
  | .q31 => 31
  | .q63 => 63

/-- The integer of a Qk operand (03 R81). -/
def qVal (q : QFmt) (a : Word) : Int := (BitVec.ofNat (q.k + 1) a.toNat).toInt

/-- The product with its binary point at bit 126 (03 R83). -/
def qProd (q : QFmt) (a b : Word) : Int := qVal q a * qVal q b * 2 ^ (126 - 2 * q.k)

/-- An accumulator set to a true result, with whether it wrapped (03 R86). -/
def accSet (v : Int) : Acc × Bool := (BitVec.ofInt 160 v, decide ((BitVec.ofInt 160 v).toInt ≠ v))

/-- The addend of `acc.add`: signed 128 bits, high half rb, low half ra (03 R84). -/
def accAddend (a b : Word) : Int := b.toInt * 2 ^ 64 + a.toNat

/-- A rounded to a multiple of 2^sh under FXCSR.RM, as the quotient (03 R87). -/
def qRound (rm : Nat) (v : Int) (sh : Nat) : Int :=
  let x := v / 2 ^ sh
  let r := v % 2 ^ sh
  let half : Int := 2 ^ (sh - 1)
  if r = 0 then x
  else if rm = 0 then x
  else if rm = 1 then (if r ≥ half then x + 1 else x)
  else if rm = 2 then (if r > half ∨ (r = half ∧ x % 2 ≠ 0) then x + 1 else x)
  else (if v < 0 then x + 1 else x)

/-- `ext.qK` (03 R87): the result and whether it saturated. -/
def qExt (q : QFmt) (rm : Nat) (a : Acc) : Word × Bool :=
  let x := qRound rm a.toInt (126 - q.k)
  let hi : Int := 2 ^ q.k - 1
  let lo : Int := -(2 ^ q.k)
  if x > hi then (BitVec.ofInt 64 hi, true)
  else if x < lo then (BitVec.ofInt 64 lo, true)
  else (BitVec.ofInt 64 x, false)

/-- `acc.rdl`, `acc.rdm`, `acc.rdh` (03 R85): part 0, 1, 2. -/
def accRead (a : Acc) (part : Nat) : Word :=
  if part = 0 then a.extractLsb' 0 64
  else if part = 1 then a.extractLsb' 64 64
  else (a.extractLsb' 128 32).signExtend 64

/-- `acc.wrl`, `acc.wrm`, `acc.wrh` (03 R85). -/
def accWrite (a : Acc) (part : Nat) (v : Word) : Acc :=
  if part = 0 then BitVec.ofNat 160 (a.toNat / 2 ^ 64 * 2 ^ 64 + v.toNat)
  else if part = 1 then BitVec.ofNat 160 (a.toNat / 2 ^ 128 * 2 ^ 128 + v.toNat * 2 ^ 64 + a.toNat % 2 ^ 64)
  else BitVec.ofNat 160 (v.toNat % 2 ^ 32 * 2 ^ 128 + a.toNat % 2 ^ 128)

end Sys2Proof.Machine
end

