-- ==== Sys2Proof/Machine/SMap.lean ====
section
/-! DEFINITION. Sparse data by key: a list of (key, value) pairs in one canonical form. Keys rise strictly and no entry equals
what an unlisted key reads as, so equal contents are equal data. Memory and every sparse array of the model are such lists. -/

namespace Sys2Proof.Machine
open Sys2Proof

/-- Sparse map from Nat keys. -/
abbrev SMap (α : Type) := List (Nat × α)

/-- The value at k; d says what an unlisted key reads as. -/
def smGet {α : Type} (d : Nat → α) : SMap α → Nat → α
  | [], k => d k
  | (k', v) :: r, k => if k = k' then v else smGet d r k

/-- Entry for k inserted before the first greater key. -/
def smIns {α : Type} (k : Nat) (v : α) : SMap α → SMap α
  | [] => [(k, v)]
  | (k', v') :: r => if k < k' then (k, v) :: (k', v') :: r else (k', v') :: smIns k v r

/-- The map without key k. -/
def smDel {α : Type} (k : Nat) : SMap α → SMap α
  | [] => []
  | (k', v') :: r => if k' = k then smDel k r else (k', v') :: smDel k r

/-- The map with v at k; the unlisted value removes the entry. -/
def smSet {α : Type} [DecidableEq α] (d : Nat → α) (m : SMap α) (k : Nat) (v : α) : SMap α :=
  if v = d k then smDel k m else smIns k v (smDel k m)

/-- Keys rise strictly from a bound. -/
def smRising {α : Type} : Nat → SMap α → Bool
  | _, [] => true
  | lo, (k, _) :: r => decide (lo ≤ k) && smRising (k + 1) r

/-- The canonical form. -/
def smWf {α : Type} [DecidableEq α] (d : Nat → α) (m : SMap α) : Bool :=
  smRising 0 m && m.all fun e => decide (e.2 ≠ d e.1)

/-- Main memory's bytes: canonical list of cells (00 R4, 10 R261). -/
abbrev Memory := List Host.Cell

/-- What an unlisted byte reads as: 0, as the cold test leaves memory (19 R483). -/
def memDefault : Nat → Byte := fun _ => 0

/-- Memory's canonical form. -/
def Memory.wf (m : Memory) : Bool := smWf memDefault m

/-- Read one byte. -/
def memByte (m : Memory) (a : Nat) : Byte := smGet memDefault m a

/-- Write one byte. -/
def memPut (m : Memory) (a : Nat) (b : Byte) : Memory := smSet memDefault m a b

/-- Write (address, byte) pairs in order. -/
def memPuts (m : Memory) (bs : List (Nat × Byte)) : Memory := bs.foldl (fun m e => memPut m e.1 e.2) m

/-- The n bytes from a. -/
def memBytes (m : Memory) (a n : Nat) : List Byte := (List.range n).map fun i => memByte m (a + i)

/-- Consecutive addresses for a list of bytes. -/
def at_ (a : Nat) (bs : List Byte) : List (Nat × Byte) := (List.range bs.length).zip bs |>.map fun e => (a + e.1, e.2)

end Sys2Proof.Machine
end

