-- ==== Sys2Proof/Machine/LpState.lean ====
section
/-! DEFINITION. The state of a logical processor and its triad: architectural registers, the bundle in assembly, commit
records, store and combining buffers, predictors, translation caches, the L2 with its miss registers and victim buffer
(02, 04, 05, 06, 07, 08, 09). -/

namespace Sys2Proof.Machine
open Sys2Proof

/-- One entry of the load-shadow record (05 R132): reads of the register still return `old` for `remain` bundles. -/
structure Shadow where
  isF : Bool
  idx : Nat
  old : Word
  remain : Nat
  deriving DecidableEq, Repr

/-- The architectural state of an LP (02 R36, R41, 05 R136, 06 R152). -/
structure Arch where
  /-- g0 to g63. Entries 0 and 63 are not used: g0 reads zero, g63 is the stack pointer of the level (02 R37). -/
  g : Vector Word 64
  f : Vector Word 32
  acc : Vector Acc 4
  pc : Word
  /-- The successor of the bundle at PC, without any end action of it (05 R128). -/
  npc : Word
  /-- The bundle at PC is a delay bundle (04 R100, 05 R141). -/
  delay : Bool
  psw : Word
  fcsr : Word
  fxcsr : Word
  lsa : Vector Word 3
  lea : Vector Word 3
  lct : Vector Word 3
  spU : Word
  spS : Word
  spM : Word
  vtbS : Word
  vtbM : Word
  est : Word
  escHandler : Word
  deleg : Word
  s1root : Word
  s1cfg : Word
  part : Word
  s2fpra : Word
  /-- Held progress word (02 R69, R70). -/
  progress : Word
  nmtIs : Bool
  escIs : Bool
  /-- The bundle at PC is the first of a handler, not yet committed (05 R136 reason 6). -/
  handlerFirst : Bool
  /-- ESC_HANDLER has been written since chip reset (02 R42). -/
  escLocked : Bool
  /-- Load shadows in force at PC, oldest first (02 R51, 05 R132). -/
  shadows : List Shadow
  deriving DecidableEq, Repr

/-- At release from a chip reset: g, f, acc and loop registers zero, PSW at its reset value (02 R38, R39). PC, NEXT_PC, EST
and ESC_HANDLER have no reset value of the spec: DESIGN CHOICE 0, and NEXT_PC 16 (log entries 2 and 3). -/
def Arch.reset : Arch where
  g := Vector.replicate 64 0
  f := Vector.replicate 32 0
  acc := Vector.replicate 4 0
  pc := 0
  npc := 16
  delay := false
  psw := 0x0F000103
  fcsr := 0
  fxcsr := 0
  lsa := Vector.replicate 3 0
  lea := Vector.replicate 3 0
  lct := Vector.replicate 3 0
  spU := 0
  spS := 0
  spM := 0
  vtbS := 0
  vtbM := 0
  est := 0
  escHandler := 0
  deleg := 0
  s1root := 0
  s1cfg := 0
  part := 0
  s2fpra := 0
  progress := 0
  nmtIs := false
  escIs := false
  handlerFirst := false
  escLocked := false
  shadows := []

/-- Instruction groups (02 R45). -/
inductive Group where
  | branch | system | integer | memory | long | float | fraction
  deriving DecidableEq, Repr

/-- A synchronous fault (05 R123, R131). -/
structure Flt where
  vec : Nat
  detail : Nat
  faddr : Word
  /-- Partition-real address for S2FPRA (08 R221), used by vector 12. -/
  pra : Nat := 0
  /-- A PMT entry refused for naming the control space: partition and entry address (08 R221). -/
  s2ctl : Option (Nat × Nat) := none
  /-- Lines of tables that the walk read before it failed (08 R212). -/
  tables : List Nat := []
  /-- Core cycles that the translation took (08 R226). -/
  cycles : Nat := 0
  deriving DecidableEq, Repr

/-- What an exception reports besides the state it is taken in (05 R128, R131). -/
structure ExcInfo where
  vec : Nat
  detail : Nat := 0
  slot : Nat := 0
  faddr : Word := 0
  pra : Nat := 0
  deriving DecidableEq, Repr

/-- Operations of `amo.*` (09 R243). -/
inductive AmoOp where
  | swap | add | and | or
  deriving DecidableEq, Repr

/-- A register destination: g, f or acc (06 R146). -/
inductive Dst where
  | g (i : Nat)
  | f (i : Nat)
  | acc (i : Nat)
  deriving DecidableEq, Repr

/-- How a load extends what it read. -/
inductive Ext where
  | zero | sign
  deriving DecidableEq, Repr

/-- The memory access of a slot, its operands already read (02 R46). -/
inductive MemOp where
  | load (dst : Dst) (va : Word) (size : Nat) (ext : Ext) (nt : Bool)
  | store (va : Word) (size : Nat) (data : Word) (nt : Bool)
  | amo (op : AmoOp) (dst : Dst) (va : Word) (operand : Word)
  | casD (dst : Dst) (va cmp new : Word)
  | casQ (rd : Nat) (va cmpLo cmpHi newLo newHi : Word)
  | bar (full : Bool)
  deriving DecidableEq, Repr

/-- Actions of the cache maintenance operations (07 R201). -/
inductive CmAct where
  | clean | inv | cleanInv
  deriving DecidableEq, Repr

/-- TLB operations (08 R227). -/
inductive TlbOp where
  | va | asid | all | pra | part
  deriving DecidableEq, Repr

/-- The system operation of slot 0. -/
inductive SysOp where
  | none
  | call
  | brk
  | eret
  | wait
  | cmLine (act : CmAct) (a : Word)
  | cmRange (act : CmAct) (rd : Nat) (a b : Word)
  | cmSw (act : CmAct) (a : Word)
  | isync
  | lkfill (rd : Nat) (a b : Word)
  | tlb (op : TlbOp) (a b : Word)
  deriving DecidableEq, Repr

/-- The five long instructions (02 R64). -/
inductive LongKind where
  | mv | cmp | crc (poly : Nat) (w : Bool) | cmpx | cphx
  deriving DecidableEq, Repr

/-- A long instruction: its register numbers and the number of units the environment lets it run before the next event is
looked for (02 R64, R68). -/
structure LongOp where
  kind : LongKind
  rd : Nat
  ra : Nat
  rb : Nat
  budget : Nat
  deriving DecidableEq, Repr

/-- How a branch is predicted (04 R114). A conditional branch carries the target its encoding gives. -/
inductive BrKind where
  | cond (taken : Bool) (dest : Word) | jmp (link : Bool) | jr (link : Bool) (viaG62 : Bool)
  deriving DecidableEq, Repr

/-- What one instruction does, computed from the registers as they stood before the bundle (02 R46). -/
structure SlotEff where
  slot : Nat
  group : Group := .integer
  /-- The word is exactly 0x0000_0000 (02 R44). -/
  nop : Bool := false
  reserved : Bool := false
  modeChg : Bool := false
  /-- Registers written, for 02 R47. -/
  dests : List Dst := []
  /-- Registers read, for the latent rule (06 R154). -/
  reads : List Dst := []
  gw : List (Nat × Word) := []
  fw : List (Nat × Word) := []
  aw : Option (Nat × Acc) := none
  fault : Option Flt := none
  dzSet : Bool := false
  dzClr : Bool := false
  fflags : FFlags := 0
  aov : Bool := false
  sat : Bool := false
  /-- Core cycles of the execute stage; 1 where 03 R530 gives none (DESIGN CHOICE, log entry 5). -/
  time : Nat := 1
  divTime : Nat := 0
  /-- Branch outcome: target address of the next bundle after the delay bundle (04 R99). -/
  branch : Option (BrKind × Word) := none
  /-- `lp.set`: level and count (04 R106) with start and end addresses. -/
  lpset : Option (Nat × Word × Word × Word) := none
  /-- `mtcr`: number and value. -/
  cr : Option (Nat × Word) := none
  mem : Option MemOp := none
  sys : SysOp := .none
  long : Option LongOp := none
  deriving DecidableEq, Repr

/-- Where a store ends (09 R233, R250). -/
inductive StKind where
  | cache | nt | devPosted | devStrict | ctl
  /-- The place of a `bar.st` in the stream of stores: the combining buffer drains here (09 R247). -/
  | fence
  deriving DecidableEq, Repr

/-- A store as a list of absolute byte addresses with their bytes, first byte first. -/
structure Store where
  kind : StKind
  addr : Nat
  /-- PERS flag of the stage-2 result (08 R220). -/
  pers : Bool
  /-- Partition of the requester (08 R209). -/
  part : Nat
  bytes : List (Nat × Byte)
  deriving DecidableEq, Repr

/-- A request of a commit record (06 R146): a barrier, atomic or compare-and-swap with its operands and absolute address, a
maintenance or TLB operation with its operands, or the engine request of `cmpx` and `cphx` with the block's registers. -/
inductive ReqItem where
  | mem (op : MemOp) (abs : Nat)
  | sys (op : SysOp)
  | engine (o : LongOp) (block : List Word)
  deriving DecidableEq, Repr

/-- What a request of a bundle has returned or done, kept until the record of its bundle is released, so that a retry does not repeat
it (06 R158, 07 R206, 09 R244): data of a device or control-space load (none: it failed) or of an atomic by the bundle's PC and address,
the results of a maintenance or TLB operation, or that slot 1's store has left (09 R237). -/
inductive Held where
  | data (pc : Word) (addr : Nat) (v : Option Word)
  | done (pc : Word) (results : List (Nat × Word))
  | stored (pc : Word)
  deriving DecidableEq, Repr

/-- A commit record not yet released (06 R146): the state after it, from which its register, control-register and exception items
are read, its stores and its requests. -/
structure Record where
  post : Arch
  stores : List Store
  /-- Registers written and registers read by the bundle, for the latent rule (06 R154). -/
  writes : List Dst
  reads : List Dst
  reqs : List ReqItem := []
  /-- What the bundle's requests returned, for a retry (06 R158). -/
  held : List Held
  /-- For the record of an entry: the vector it was taken for, whose pending bit or failed-store state it cleared. -/
  evt : Option Nat
  /-- For the record of the entry of a trap: what a retry takes again, since the trap's own bundle has its own record. -/
  trap : Option ExcInfo := none
  /-- Registers in which only one core's record differed: its release starts their latent watch (06 R154). -/
  odd : List Dst := []
  deriving DecidableEq, Repr

/-- A line of the combining buffer (09 R245). -/
structure CombLine where
  line : Nat
  bytes : List (Nat × Byte)
  /-- Partitions whose stores it holds, as a mask (08 R228). -/
  parts : Nat := 0
  deriving DecidableEq, Repr

/-- A device or control-space access of the LP under way (09 R251, 01 R19). -/
structure DevReq where
  addr : Nat
  size : Nat
  slot : Nat
  /-- Partition of the requester. -/
  part : Nat
  /-- The interval of DEVICE_TIMEOUT: none until the next boundary, then the TOD at which it expires (01 R31). -/
  due : Option Nat
  /-- PC of the bundle of a load. -/
  pc : Word := 0
  /-- A store of HUB_ORDER_MODE that its block has taken and that waits for the LPs to apply it (09 R238). -/
  taken : Bool := false
  deriving DecidableEq, Repr

/-- What stands at an absolute address (08 R210, R219). -/
inductive Region where
  | mem | devPosted | devStrict | ctl
  deriving DecidableEq, Repr

/-- Predictors of a core (04 R112, R113). Counters: 0 strongly not-taken, 1 weakly not-taken,
2 weakly taken, 3 strongly taken. -/
structure Pred where
  bimodal : SMap Nat
  global : SMap Nat
  indirect : SMap (Option Word)
  stack : List Word
  gh : Nat
  deriving DecidableEq, Repr

/-- Flushed predictors (04 R116). -/
def Pred.reset : Pred := { bimodal := [], global := [], indirect := [], stack := [], gh := 0 }

/-- A TLB entry (08 R225): tags, the stage-1 leaf and the PMT entry it was formed from. -/
structure TlbEnt where
  part : Nat
  asid : Nat
  g : Bool
  /-- Formed while S1CFG.EN = 1. -/
  en : Bool
  /-- Level class M: partition 0, an identity entry of 64 KiB. -/
  mcl : Bool := false
  /-- Page base and log2 of its size. -/
  va : Nat
  lg : Nat
  leaf : Word
  /-- Partition-real base of the page. -/
  pra : Nat
  pmt : Word
  deriving DecidableEq, Repr

/-- A walk-cache entry (08 R224): a stage-1 pointer entry for a path, or a PMT entry. -/
inductive WalkEnt where
  /-- level, the partition-real address of the table it was read from, and the virtual address shifted to the bits that select it. -/
  | ptr (part asid level tab prefix_ : Nat) (entry : Word)
  | pmt (part idx : Nat) (entry : Word)
  deriving DecidableEq, Repr

/-- Translation caches changed by a translation (08 R224). -/
structure XFill where
  tlb : Option TlbEnt := none
  walk : List WalkEnt := []
  /-- Lines of tables read, for their fills (07 R184). -/
  tables : List Nat := []
  cycles : Nat := 0
  deriving DecidableEq, Repr

/-- A checked access: absolute address of each byte. -/
structure Access where
  region : Region
  addrs : List Nat
  pers : Bool
  fills : List XFill
  cycles : Nat
  deriving DecidableEq, Repr

/-- A checked memory operation of a slot. -/
structure MemAcc where
  slot : Nat
  op : MemOp
  acc : Access
  deriving DecidableEq, Repr

/-- What the memory operations of a bundle have produced so far. -/
structure MemRes where
  loads : List (Dst × Word) := []
  stores : List Store := []
  reqs : List ReqItem := []
  held : List Held := []
  deriving DecidableEq, Repr

/-- A bundle being run, which may freeze the pipeline (02 R54, 09 R237, R247). -/
structure Frozen where
  effs : List SlotEff
  /-- Fetched; what the return stack then predicted (04 R115). -/
  fetched : Bool := false
  top : Option Word := none
  /-- The maintenance or TLB operation of slot 0 is done: its register results. -/
  sys : Option (List (Nat × Word)) := none
  /-- The checked memory operations, once every check has passed and the first effect has been made; those still to do. -/
  todo : Option (List MemAcc) := none
  res : MemRes := {}
  /-- Device and control-space data by slot; none is an error or timeout answer. -/
  dev : List (Nat × Option Word) := []
  deriving DecidableEq, Repr

/-- Where a control-store sequence stands: the address of its word, and the micro-stack of at most 4 entries, the newest first (16 R427). -/
structure Useq where
  addr : Nat
  stack : List Nat
  deriving DecidableEq, Repr

/-- The conditions that the sequencer can sample in a cycle (16 R428). -/
structure UcSample where
  aluZero : Bool
  aluNegative : Bool
  aluCarry : Bool
  loopZero : Bool
  unitBoundary : Bool
  event : Bool
  memFault : Bool
  engineReady : Bool
  engineStatus : Bool
  ti : Bool
  atM : Bool
  delay : Bool
  progress : Bool
  escalation : Bool
  holdReply : Bool
  deriving DecidableEq, Repr

/-- The arrays of one core (06 R144, 07 R180, 08 R224): its L1s, L1 TLBs and predictors. -/
structure CoreArr where
  /-- Presence in the L1s: set × 4 + way ↦ line + 1, 0 when invalid. -/
  l1i : SMap Nat
  l1d : SMap Nat
  tlbI : List TlbEnt
  tlbD : List TlbEnt
  pred : Pred
  deriving DecidableEq, Repr

/-- Invalidated arrays, flushed predictors (06 R159, 07 R208). -/
def CoreArr.reset : CoreArr := { l1i := [], l1d := [], tlbI := [], tlbD := [], pred := Pred.reset }

/-- Coherence states of a line (07 R185). -/
inductive Coh where
  | i | s | e | m
  deriving DecidableEq, Repr

/-- One position of an L2 or an L3 (07 R180). -/
structure CLine where
  st : Coh
  /-- Line number: absolute address / 128. -/
  line : Nat
  /-- The line's bytes while modified; 0 otherwise. -/
  data : Line
  /-- L2: pending-write mark (07 R199). -/
  pend : Bool
  /-- A store has reached it since it was installed from the victim buffer (07 R199). -/
  stored : Bool
  /-- Poisoned 32-byte granules of modified data, a mask of four bits (07 R207, 10 R529). -/
  poison : Nat
  /-- The line's stage-2 result carried PERS = 1 (08 R220). -/
  pers : Bool
  deriving DecidableEq, Repr

/-- An empty position. -/
def CLine.empty : CLine :=
  { st := .i, line := 0, data := 0, pend := false, stored := false, poison := 0, pers := false }

/-- A miss register of an L2 (07 R191): line, ownership wanted, whether it left the L2, secondary misses, and what filled it. -/
structure MissReg where
  line : Nat
  own : Bool
  left : Bool
  secondary : Nat
  /-- A prefetch: never faults, triggers nothing (07 R193). -/
  prefetch : Bool
  /-- `ld.nt.d`: no replacement-state update (07 R184). -/
  nt : Bool
  /-- Fill for `cm.lkfill` (07 R195). -/
  lock : Bool
  /-- A victim-buffer entry gave its data with the modified state (07 R199). -/
  mod : Bool := false
  l1i : Bool
  l1d : Bool
  deriving DecidableEq, Repr

/-- A victim-buffer entry (07 R197). -/
structure VbEnt where
  line : Nat
  data : Line
  toMem : Bool
  issued : Bool
  poison : Nat
  pers : Bool
  deriving DecidableEq, Repr

/-- A set-associative array of lines with its tree bits (07 R180, R188). -/
structure Cache where
  ways : SMap CLine
  tree : SMap Nat
  deriving DecidableEq, Repr

/-- An invalid cache with zero tree bits (07 R208). -/
def Cache.reset : Cache := { ways := [], tree := [] }

/-- A resynchronisation (06 R159 to R162): the target's arrays as copied from the lead, lines of the lead's L1D that released stores
have changed since, and whether it waits at the isolate phase for a retried record. -/
structure Resync where
  tgt : CoreArr
  touched : List Nat
  restart : Bool
  deriving DecidableEq, Repr

/-- Phases of a recovery of the odd core (06 R159, R167, R173). -/
inductive Recov where
  | none
  /-- Resynchronising core c. -/
  | resync (core : Nat) (r : Resync)
  /-- Substituting spare sp (0 low, 1 high) for core c; once its self-test passed it is attached and resynchronised. -/
  | subst (core sp : Nat) (attached : Option Resync)
  deriving DecidableEq, Repr

/-- A core that has rejoined its triad, watched for 256 released bundles (06 R163, R165). -/
structure Rejoin where
  core : Nat
  released : Nat
  /-- A substitution brought it in. -/
  viaSub : Bool
  deriving DecidableEq, Repr

/-- The latent watch of a correction (06 R154): its registers, each with whether it has been written again (by a load whose shadow
still shows the old value), and released bundles left. -/
structure Latent where
  regs : List (Dst × Bool)
  left : Nat
  /-- Still the mismatch that TRD_LAST_MISMATCH describes. -/
  last : Bool
  deriving DecidableEq, Repr

/-- A debugger write in the replay log (06 R178). -/
inductive Replay where
  | reg (idx : Nat) (v : Word)
  | mem (va : Word) (size : Nat) (v : Word)
  deriving DecidableEq, Repr

/-- A logical processor with its triad. -/
structure Lp where
  arch : Arch
  /-- The voted state (06 R152). -/
  voted : Arch
  /-- SHADOW0 to SHADOW3 of the voted state as TRD_VS_DATA left them, until they arm (06 R174). -/
  vsShadow : Option (List Nat)
  /-- Voted-state words that hold an uncorrectable error, by index: they read zero until written (06 R171). -/
  vsLost : List Nat
  /-- Instructions of the bundle in assembly (the model's own: a command is one instruction). -/
  asm : List SlotEff
  frozen : Option Frozen
  /-- Commit records not yet released, oldest first. -/
  records : List Record
  /-- Store buffer, at most 32 entries, oldest first (09 R233). -/
  storeBuf : List Store
  /-- The head of the store buffer is a strict device store that left the hub: its timeout (09 R251). -/
  stReq : Option DevReq
  /-- Posted device writes accepted by the hub and not answered, oldest first (09 R250). -/
  posted : List DevReq
  /-- Combining buffer, at most 16 lines, oldest first (09 R245). -/
  comb : List CombLine
  devReq : Option DevReq
  /-- Device-load hold: what re-executed requests take, in their order (06 R158). -/
  devHold : List Held
  /-- An exception entry that waits: for older stores in Ordered mode (09 R237), or to be taken again by a retry (06 R156). -/
  entry : Option ExcInfo
  /-- In `wait` (05 R142). -/
  waiting : Bool
  /-- The control-store sequence of the long instruction under way (16 R427). -/
  micro : Option Useq
  /-- Stopped until the next tick boundary (15 R420). -/
  stopTick : Bool
  /-- Core cycles (20 R505). -/
  cycles : Nat
  /-- Arrays of the lead, the second and the third core. -/
  lead : CoreArr
  second : CoreArr
  third : CoreArr
  tlb2 : List TlbEnt
  walk : List WalkEnt
  l2 : Cache
  miss : List MissReg
  /-- Requests that wait for a register, or for the register of their line to be freed, in their order (07 R191). -/
  missWait : List MissReg
  vbuf : List VbEnt
  recov : Recov
  /-- Cores that rejoined or were brought in less than 256 released bundles ago (06 R163, R165). -/
  rejoin : List Rejoin
  latent : List Latent
  /-- Ticks of the last resynchronisations of each core that is in the triad, oldest first (06 R164). -/
  resyncs : SMap (List Nat)
  /-- The current bundle's TRD_RETRY has been raised (06 R176). -/
  retryTold : Bool
  /-- The next bundle is one being retried: no event is looked for before it (06 R156). -/
  retried : Bool
  replay : List Replay
  /-- Held by a power-fail quiesce (10 R266). -/
  quiesced : Bool
  /-- Released by Keystone or started (19 R494, 06 R173). -/
  released : Bool
  /-- Debug halt requested, not yet reached (06 R177). -/
  haltReq : Bool
  /-- The halt to come ends a single step (06 R179). -/
  stepping : Bool
  /-- A flush of the near, the shared predictors waits for the next boundary (04 R117, R118). -/
  flushNear : Bool
  flushShared : Bool
  /-- The store-order mode in force per partition bit, as this LP has applied it (09 R238). -/
  orderMode : Nat
  deriving DecidableEq, Repr

/-- A triad at power-good: nothing in flight, everything empty. -/
def Lp.reset : Lp where
  arch := Arch.reset
  voted := Arch.reset
  vsShadow := none
  vsLost := []
  asm := []
  frozen := none
  records := []
  storeBuf := []
  stReq := none
  posted := []
  comb := []
  devReq := none
  devHold := []
  entry := none
  waiting := false
  micro := none
  stopTick := false
  cycles := 0
  lead := CoreArr.reset
  second := CoreArr.reset
  third := CoreArr.reset
  tlb2 := []
  walk := []
  l2 := Cache.reset
  miss := []
  missWait := []
  vbuf := []
  recov := .none
  rejoin := []
  latent := []
  resyncs := []
  retryTold := false
  retried := false
  replay := []
  quiesced := false
  released := false
  haltReq := false
  stepping := false
  flushNear := false
  flushShared := false
  orderMode := 0x1FFFFFFFF

end Sys2Proof.Machine
end

