-- ==== Sys2Proof/Machine/HubState.lean ====
section
/-! DEFINITION. The state of the units on the hub, one structure per unit. -/

namespace Sys2Proof.Machine
open Sys2Proof

/-- What a fault source records (17 R452): its number, the address or value, the other identifiers in order, the unit and the
partition. -/
structure FaultInfo where
  src : Nat
  info0 : Nat := 0
  idA : Nat := 0
  idB : Nat := 0
  unit : Nat := 0x7F
  part : Nat := 0
  deriving DecidableEq, Repr

/-- A cached PMT entry of the hub (08 R231). -/
structure HubPmt where
  part : Nat
  idx : Nat
  entry : Word
  deriving DecidableEq, Repr

/-- A tick-counted interval (01 R31): its length, and once the next boundary has fixed it, the TOD at which it ends. -/
structure Ival where
  ticks : Nat
  due : Option Nat
  deriving DecidableEq, Repr

/-! ### Channel subsystem (11) -/

/-- A ring's engine request on the hub (11 R295, R275). -/
structure EngReq where
  ring : Nat
  part : Nat
  rt : Bool
  tag : Nat
  sub : List Word
  warm : Bool
  deriving DecidableEq, Repr

/-- A completion that a ring could not write, held until RESUME (11 R292, R293). -/
structure Owed where
  tag : Nat
  status : Nat
  flags : Nat
  jslot : Nat
  result : Nat
  aux : Nat
  ts : Bool
  /-- The engine request that it ends: a save keeps that in its place (11 R297). -/
  req : Option EngReq := none
  deriving DecidableEq, Repr

/-- A ring (11 R289, R316). -/
structure Ring where
  part : Nat
  rt : Bool
  log2 : Nat
  sqBase : Nat
  cqBase : Nat
  intEn : Bool
  vector : Nat
  target : Nat
  slot : Nat
  dbl : Nat
  ver : Nat
  feat : Nat
  /-- 1 ACTIVE, 2 ERROR, 3 DRAINING. -/
  state : Nat
  consumed : Nat
  produced : Nat
  intPend : Bool
  irqOff : Bool
  head : Nat
  tail : Nat
  /-- Every increment its arrays touch had PERS = 1 at creation or last RESUME (11 R532). -/
  pers : Bool
  /-- INT_EN, VECTOR and TARGET_LP of a RETARGET, from the next boundary on (11 R292). -/
  retarget : Option (Bool × Nat × Nat)
  owed : List Owed
  /-- A DESTROY in state ERROR: completions that cannot be written are dropped (11 R292). -/
  noCq : Bool
  /-- The next entry, which has passed every check but for a free journal slot (11 R297 step 9). -/
  admitted : Option (List Word) := none
  deriving DecidableEq, Repr

/-- A journal entry held by the accelerator (11 R307). -/
structure JEnt where
  tag : Nat
  ring : Nat
  part : Nat
  /-- 1 PREPARED, 2 ISSUED, 3 ACKED, 4 COMPLETED. -/
  state : Nat
  seq : Nat
  epoch : Nat
  path : Nat
  session : Nat
  unknown : Bool
  cqCount : Nat
  redrives : Nat
  pstatus : Nat
  prepTod : Nat
  result : Nat
  aux : Nat
  /-- The submission entry as eight doublewords. -/
  sub : List Word
  /-- Held modified: memory has an older state (11 R309). -/
  dirty : Bool
  /-- Found by the scan of a warm return (11 R315). -/
  warm : Bool
  /-- Restored by a warm return and not driven since: its re-drive is no path loss (11 R315). -/
  resume : Bool
  /-- Frames of the present copy that have left. -/
  sent : Nat
  /-- Its path was declared failed: a re-drive is due (11 R311, R312). -/
  lost : Bool := false
  /-- DATA frames of a READ that wait for HUB_PMT_p, as FRAME_NO and bytes, and the answer that came meanwhile (11 R532). -/
  held : List (Nat × List Byte) := []
  ans : Option (Nat × Nat) := none
  deriving DecidableEq, Repr

/-- A watched doorbell line (11 R284): the absolute line, and whether the subsystem's copy has been invalidated. -/
structure Watch where
  line : Nat
  stale : Bool
  deriving DecidableEq, Repr

/-- The channel subsystem. Journal entries are keyed by 65536 × partition + slot. -/
structure Css where
  rings : SMap (Option Ring)
  jent : SMap (Option JEnt)
  /-- Slot after the one taken last, by partition (11 R308). -/
  jnext : SMap Nat
  watch : SMap (Option Watch)
  /-- Partitions whose transfers wait for HUB_PMT_p after a warm return, as a mask (11 R532). -/
  deferred : Nat
  /-- Normal-class round robin: the ring being served and entries left in its turn (11 R301). -/
  turn : Nat × Nat
  deriving DecidableEq, Repr

/-- Nothing created. -/
def Css.reset : Css := { rings := [], jent := [], jnext := [], watch := [], deferred := 0, turn := (16383, 0) }

/-! ### Span (12) -/

/-- A path of a session (12 R326, R330 to R332). -/
structure Path where
  valid : Bool
  /-- 0 idle, 1 logging in, 2 usable, 3 failed. -/
  pstate : Nat
  port : Nat
  faddr : Nat
  /-- LOGINs sent without an answer. -/
  sends : Nat
  login : Option Ival
  ka : Option Ival
  /-- A frame was sent, was received, during the tick. -/
  tx : Bool
  rx : Bool
  deriving DecidableEq, Repr

/-- A path position that is not configured. -/
def Path.none : Path :=
  { valid := false, pstate := 0, port := 0, faddr := 0, sends := 0, login := .none, ka := .none, tx := false, rx := false }

/-- A session (12 R325, R326). -/
structure Session where
  name : Word
  epoch : Nat
  rev : Nat
  /-- 1 LOGIN, 2 ACTIVE, 3 NO_PATH, 4 GONE. -/
  sstate : Nat
  part : Nat
  revMask : Nat
  nextSeq : Nat
  ackMark : Nat
  /-- Sequence numbers above ACK_MARK that are acknowledged (12 R333). -/
  ackedAbove : List Nat
  paths : List Path
  /-- A login has been made since OPEN. -/
  loggedIn : Bool
  /-- PATH_WAIT (11 R312). -/
  wait : Option Ival
  noPathTicks : Nat
  /-- RESUME_TICKS of a session restored by a warm return that has had no usable path yet (11 R533). -/
  resume : Option Ival
  deriving DecidableEq, Repr

/-- A frame as a port sends it (12 R321, R327, R328). -/
structure Frame where
  /-- KIND: 0 SESSION, 1 LINK_CTL, 2 FABRIC. -/
  kind : Nat := 0
  lsn : Nat
  vc : Nat
  /-- STYPE (12 R327). -/
  stype : Nat
  dst : Nat
  src : Nat := 0
  ack : Nat := 0
  cr0 : Nat := 0
  cr1 : Nat := 0
  /-- CTL of a LINK_CTL frame: 1 REPLAY_REQ, 2 IDLE. -/
  ctl : Nat := 0
  session : Nat
  path : Nat
  rev : Nat := 0
  epoch : Nat := 0
  seq : Nat
  frameNo : Nat
  last : Bool
  /-- The command block of the first OP frame, or the payload of another frame, in doublewords. -/
  words : List Nat
  payload : List Byte
  replays : Nat
  deriving DecidableEq, Repr

/-- The link layer of a Span port (12 R322). -/
structure SpanPort where
  nextLsn : Nat
  rxLsn : Nat
  unacked : List Frame
  /-- Frames waiting for a credit or for room in the replay buffer. -/
  queue : List Frame
  credit0 : Nat
  credit1 : Nat
  /-- Uncorrectable codewords of the present tick (12 R320). -/
  uncorr : Nat
  /-- LSN named by a REPLAY_REQ sent and not yet met: later frames are discarded (12 R322). -/
  asked : Option Nat
  /-- Credits to return to the peer with the next frame (12 R321, R322). -/
  ret0 : Nat := 0
  ret1 : Nat := 0
  /-- The last LINK_CTL frame sent; such frames are not kept for replay. -/
  link : Option Frame := none
  deriving DecidableEq, Repr

/-- A port whose link is not up. -/
def SpanPort.reset : SpanPort :=
  { nextLsn := 0, rxLsn := 0, unacked := [], queue := [], credit0 := 0, credit1 := 0, uncorr := 0, asked := none }

/-- The Span ports and sessions. -/
structure Span where
  ports : SMap SpanPort
  sessions : SMap (Option Session)
  /-- An event was written in the present tick (12 R324). -/
  evWritten : Bool
  /-- The session a CLOSE waits for. -/
  closing : Option Nat
  deriving DecidableEq, Repr

/-- No session. -/
def Span.reset : Span := { ports := [], sessions := [], evWritten := false, closing := none }

/-! ### PCIe (12) -/

/-- A configuration request in progress (12 R338): the TOD at which its retries end, if it is a read being retried. -/
structure CfgReq where
  write : Bool
  seg : Nat
  root : Nat
  data : Nat
  retryEnd : Option Nat
  deriving DecidableEq, Repr

/-- The PCIe root ports. -/
structure Pci where
  /-- Links that are up: bit 4n + r. -/
  up : Nat
  /-- Division in force of port n, from the last training (12 R336). -/
  division : SMap Nat
  /-- Cached requester-table entries: 65536 × segment + requester ID ↦ 1 + byte. -/
  rid : SMap Nat
  /-- Type 1 header doublewords of the root ports: 1024 × (4n + r) + register. -/
  cfg : SMap Nat
  req : Option CfgReq
  deriving DecidableEq, Repr

/-- All links down. -/
def Pci.reset : Pci := { up := 0, division := [], rid := [], cfg := [], req := none }

/-- Partition settings in force since the last boundary (15 R415, R416, R418). -/
structure PartSt where
  /-- HUB_PART_CFG_p and HUB_PART_L3Q_p as in force. -/
  cfg : SMap Word
  l3q : SMap Word
  /-- Partitions whose memory, whose Span reservations are honoured, as masks. -/
  honMem : Nat
  honSpan : Nat
  /-- Slots left of this tick: memory transfers by partition, frame bytes by 64 × partition + Span port (15 R417). -/
  memLeft : SMap Nat := []
  spanLeft : SMap Nat := []
  /-- What was admitted beyond them and takes the next tick's slots first (01 R32). -/
  memOwed : SMap Nat := []
  spanOwed : SMap Nat := []
  deriving DecidableEq, Repr

/-- No partition Sealed, nothing dedicated. -/
def PartSt.reset : PartSt := { cfg := [], l3q := [], honMem := 0, honSpan := 0 }

end Sys2Proof.Machine
end

