-- ==== Sys2Proof/Machine/PowerState.lean ====
section
/-! DEFINITION. The state of the tick generator, the power-fail save, Keystone with the start journal and the boot flash, the
fault collector's log, the clock and power controllers, the counters, the debug port and the thermal monitors (01, 10, 16, 17,
18, 19, 20, 21). -/

namespace Sys2Proof.Machine
open Sys2Proof

/-! ### Tick generator (01) -/

/-- The tick generator. -/
structure Tick where
  running : Bool
  /-- Period of the tick in progress (01 R26). -/
  period : Nat
  /-- Boundary that an accepted TICK_IN edge has set (01 R35). -/
  edge : Option Nat
  /-- Consecutive periods without an accepted edge, in follow mode. -/
  missed : Nat
  /-- TICK_OUT is held low since a power-fail boundary (01 R34). -/
  outLow : Bool
  /-- TOD at which the pulse on TICK_OUT that a boundary started ends (01 R34). -/
  outEnd : Option Nat
  deriving DecidableEq, Repr

/-- Not started. -/
def Tick.reset : Tick := { running := false, period := 5120, edge := none, missed := 0, outLow := false, outEnd := none }

/-! ### The Fumarole save (10) -/

/-- Phases of a save (10 R264). -/
inductive SavePhase where
  | none | quiesce | contexts | persistent | others | selfRefresh
  /-- Over: the module stays stopped. -/
  | ended
  deriving DecidableEq, Repr

/-- The save in progress or last made. -/
structure Save where
  phase : SavePhase
  /-- CAUSE of the header (10 R276). -/
  cause : Nat
  tick : Nat
  tod : Nat
  seq : Nat
  state : Nat
  bytesP : Nat
  bytesN : Nat
  duration : Nat
  /-- LOST_LINKS recorded so far, and as of the last header write (10 R271). -/
  lost : Nat
  lostHdr : Nat
  /-- Links that have acknowledged self-refresh. -/
  acked : Nat
  /-- The module stays stopped after the save: PF_WARN_N or a thermal trip (10 R263, 21 R525). -/
  stay : Bool
  /-- A thermal trip: no warm return under 10 R272 (21 R526). -/
  thermal : Bool
  deriving DecidableEq, Repr

/-- No save. -/
def Save.reset : Save :=
  { phase := .none, cause := 0, tick := 0, tod := 0, seq := 0, state := 0, bytesP := 0, bytesN := 0, duration := 0, lost := 0,
    lostHdr := 0, acked := 0, stay := false, thermal := false }

/-! ### Keystone, start journal, boot flash (19, 16) -/

/-- Where Keystone stands (19 R479, R482, R487, R499). -/
inductive KPhase where
  /-- A start is due at step `first`: Keystone runs with the command CHIP_RESET. -/
  | due (first : Nat)
  | released
  | halted
  /-- A start abandoned because of PF_WARN_N. -/
  | abandoned
  deriving DecidableEq, Repr

/-- The start journal besides its register fields (19 R489). Unit sets are bit masks. -/
structure Jrnl where
  exclCores : Nat
  exclSpares : Nat
  exclDies : Nat
  exclLinks : Nat
  exclPorts : Nat
  exclRoots : Nat
  exclEngines : Nat
  exclPipes : Nat
  /-- Links and ports with saved training parameters. -/
  memTrain : Nat
  spnTrain : Nat
  patchSlot : Nat
  fwSlot : Nat
  /-- SHA-384 of BODY of the image released last, with its LOAD, SIZE and WARM_ENTRY. -/
  digest : Nat
  load : Nat
  size : Nat
  warm : Nat
  /-- Absolute line of each registered doorbell line plus 1. -/
  dblLine : SMap Nat
  /-- Rings one of whose increments had PERS = 0. -/
  ringNoPers : SMap Bool
  epoch : Nat
  /-- Consecutive failures of the optional steps 15, 16, 18 (19 R486). -/
  optFail : SMap Nat
  retryOpt : Bool
  /-- Ring requests resident at the save, by 8 × slot of the engine region + entry: the submission entry, the bytes used and written
  and a message's IV and status, for which an entry of the region has no room (the model's own, log entry 21). -/
  engSubs : SMap (List Word)
  deriving DecidableEq, Repr

/-- Cold-start defaults. Epochs start at 1, since the counter skips 0 (12 R330). -/
def Jrnl.reset : Jrnl :=
  { exclCores := 0, exclSpares := 0, exclDies := 0, exclLinks := 0, exclPorts := 0, exclRoots := 0, exclEngines := 0,
    exclPipes := 0, memTrain := 0, spnTrain := 0, patchSlot := 0, fwSlot := 0, digest := 0, load := 0, size := 0, warm := 0,
    dblLine := [], ringNoPers := [], epoch := 1, optFail := [], retryOpt := false, engSubs := [] }

/-- A copy of the journal in boot flash: generation, register fields and the rest (19 R490). -/
structure FlashCopy where
  gen : Nat
  fields : SMap Word
  rest : Jrnl
  deriving DecidableEq, Repr

/-- The hub copy of the patch image in use (16 R436): words of 144 bits and match registers. -/
structure PatchCopy where
  words : List Nat
  matches_ : List Nat
  deriving DecidableEq, Repr

/-- Keystone and what it keeps. -/
structure Kst where
  phase : KPhase
  cause : Nat
  /-- The start journal in always-on SRAM is valid. -/
  aon : Bool
  rest : Jrnl
  flashA : Option FlashCopy
  flashB : Option FlashCopy
  /-- The next flash write goes to copy B. -/
  nextB : Bool
  patch : PatchCopy
  /-- Buffers whose DRAM holds the image: initialised by a cold start, and not recorded as lost by a save since (10 R271, 19 R495). -/
  dram : Nat
  pwrok : Bool
  resetN : Bool
  pfWarn : Bool
  deriving DecidableEq, Repr

/-- Always-on power-good before step 1: nothing in always-on SRAM or flash, signals inactive. -/
def Kst.reset : Kst :=
  { phase := .due 1, cause := 0, aon := false, rest := Jrnl.reset, flashA := none, flashB := none, nextB := false,
    patch := { words := [], matches_ := [] }, dram := 0, pwrok := true, resetN := true, pfWarn := false }

/-! ### Fault collector (17) -/

/-- A log entry (17 R452). -/
structure LogEnt where
  seq : Nat
  src : Nat
  cls : Nat
  level : Nat
  esc : Bool
  err : Bool
  held : Bool
  tod : Nat
  info : FaultInfo
  deriving DecidableEq, Repr

/-- The collector's log and quiet intervals. -/
structure Fcu where
  log : SMap (Option LogEnt)
  quiet : SMap (Option Ival)
  /-- Blocks in block reset whose reactions are held (17 R444): first source number of the block. -/
  resetting : List Nat
  /-- ERR_OUT_N is held from a chip-reset event until release (17 R445). -/
  errHold : Bool
  /-- Logged in clock hold: the collector reacts at its end (18 R462). -/
  late : List FaultInfo
  deriving DecidableEq, Repr

/-- Empty log. -/
def Fcu.reset : Fcu := { log := [], quiet := [], resetting := [], errHold := false, late := [] }

/-! ### Clocks and power (18, 21) -/

/-- A frequency change in progress (18 R467). -/
structure FreqReq where
  tri : Nat
  old : Nat
  new : Nat
  /-- Waiting for the regulator's acknowledge of a rise. -/
  avs : Bool
  /-- Done but for the acknowledge of the lowered voltage. -/
  lower : Bool
  deriving DecidableEq, Repr

/-- Clock and power controllers. -/
structure Pwr where
  tod : Nat
  todRun : Bool
  freq : List FreqReq
  /-- Requested voltage of VDD_C0 to VDD_C3 in mV (21 R514, R515). -/
  vdd : Vector Nat 4
  /-- Units whose closure is being forced wait in CLK_GATE_PEND; partition of the transfer on the port (18 R470). -/
  holdTod : Nat
  /-- A power-fail boundary that waits for the end of HOLD (18 R465). -/
  holdPf : Bool
  /-- PLLs in holdover (18 R461). -/
  unlocked : SMap Bool
  /-- Domains whose units count as absent until the next chip reset (18 R473). -/
  absent : SMap Bool
  /-- Domains in C1 or C2 by idle selection: TOD at which the exit starts, if an event is known (18 R475). -/
  wake : SMap (Option Nat)
  deriving DecidableEq, Repr

/-- At always-on power-good; the regulator boots each rail at 0.80 V (21 R514). -/
def Pwr.reset : Pwr :=
  { tod := 0, todRun := false, freq := [], vdd := #v[800, 800, 800, 800], holdTod := 0, holdPf := false,
    unlocked := [], absent := [], wake := [] }

/-- Thermal monitor (21 R522 to R525). -/
structure Therm where
  /-- THERM_WARN may be raised again. -/
  armed : Bool
  warn : Bool
  trip : Bool
  /-- Every clock is stopped (21 R525, R526). -/
  stopped : Bool
  deriving DecidableEq, Repr

/-- Cool. -/
def Therm.reset : Therm := { armed := true, warn := false, trip := false, stopped := false }

/-! ### Counters and debug (20) -/

/-- Counters by 16 × unit + word, banks likewise, units that restarted. -/
structure Cnt where
  live : SMap Nat
  bank : SMap Nat
  restart : SMap Bool
  /-- Index of the chip reset, for the words the model leaves free. -/
  era : Nat
  deriving DecidableEq, Repr

/-- Zero. -/
def Cnt.reset : Cnt := { live := [], bank := [], restart := [], era := 0 }

/-- The last debug reply (20 R507). -/
structure DbgReply where
  op : Nat
  tag : Nat
  status : Nat
  addr : Nat
  data : Nat
  deriving DecidableEq, Repr

end Sys2Proof.Machine
end

