-- ==== Sys2Proof/Machine/EngineState.lean ====
section
/-! DEFINITION. The state of the compression engines (13). -/

namespace Sys2Proof.Machine
open Sys2Proof

/-- What an engine works with: a decoder or a compressor. -/
inductive Codec where
  | dec (d : Dec)
  | comp (c : Comp)
  deriving DecidableEq, Repr

/-- A ring request resident on an engine (13 R344, R374). -/
structure CmpReq where
  req : EngReq
  /-- Words 0x00 to 0x38 of the request block, once read. -/
  blk : List Word
  codec : Option Codec
  /-- CTL word and limit of the stream. -/
  ctl : Word
  limit : Nat
  /-- Addresses and lengths advanced to where the request stands. -/
  src : Nat
  srcLen : Nat
  dst : Nat
  dstLen : Nat
  /-- Output bytes written and source bytes consumed by this request. -/
  wrote : Nat
  used : Nat
  /-- Restored by a warm return: bytes of its history area still to be read (13 R374). -/
  needHist : Nat
  deriving DecidableEq, Repr

/-- A `cmpx` between units: its codec, CTL word and limit, where its context and history areas are, the words of its block
registers when this execution began, and the engine that serves it. -/
structure LpCmp where
  codec : Codec
  ctl : Word
  limit : Nat
  ctx : Word
  hist : Word
  regs : List Word
  engine : Nat
  deriving DecidableEq, Repr

/-- The compression engines: queued ring requests, and the residents of each engine, the one being served first. -/
structure Cmp where
  queue : List EngReq
  engines : SMap (List CmpReq)
  /-- Engine state of an LP's `cmpx` between units (02 R68). -/
  lp : SMap (Option LpCmp)
  deriving DecidableEq, Repr

/-- Idle. -/
def Cmp.reset : Cmp := { queue := [], engines := [], lp := [] }

end Sys2Proof.Machine
end

