-- ==== Sys2Proof/Machine/CipherState.lean ====
section
/-! DEFINITION. The state of the cipher pipelines, the key store and the random source (14). -/

namespace Sys2Proof.Machine
open Sys2Proof

/-- A key slot that holds a key: the key as a big-endian number (a 128-bit key below 2^128) and ATTR (14 R380, R381). -/
structure KeySlot where
  key : Nat
  attr : Word
  deriving DecidableEq, Repr

/-- Where a message stands. -/
inductive MPh where
  /-- Placed; nothing checked yet. -/
  | new
  | aad
  | data
  /-- Overwriting its output with zeros (14 R395). -/
  | zeroing
  /-- Over: status and DETAIL are settled, to be reported. -/
  | over
  deriving DecidableEq, Repr

/-- A message on a pipeline (14 R387, R399). -/
structure Msg where
  /-- Words 0x00 to 0x58 of the request block. -/
  blk : List Word
  part : Nat
  ph : MPh
  /-- Source, its length, destination and its room. -/
  src : Nat
  srcLen : Nat
  dst : Nat
  dstLen : Nat
  /-- Source bytes taken and output bytes written by this request. -/
  used : Nat
  wrote : Nat
  inTotal : Nat
  outTotal : Nat
  dstStart : Nat
  aadDone : Nat
  ctr : Nat
  ghash : Nat
  chain : Nat
  tweak : Nat
  /-- CMAC's last full block, held. -/
  held : List Byte
  /-- GCM: AAD and data bytes in all. -/
  lenA : Nat
  /-- Hold mode: output kept until the check has passed (14 R394). -/
  hold : Bool
  staged : List Byte
  iv : Nat
  /-- Bytes zeroed, bytes that could not be. -/
  zeroed : Nat
  unzeroed : Nat
  status : Nat
  detail : Nat
  tag : Option (List Byte)
  /-- The pipeline of an LP's message. -/
  pipe : Nat := 0
  deriving DecidableEq, Repr

/-- A ring request resident on a pipeline. -/
structure CphReq where
  req : EngReq
  cls : Nat
  msg : Option Msg
  deriving DecidableEq, Repr

/-- A pipeline: its active and its suspended message (14 R392). -/
structure Pipe where
  active : Option CphReq
  susp : Option CphReq
  deriving DecidableEq, Repr

/-- Idle. -/
def Pipe.idle : Pipe := { active := none, susp := none }

/-- Pipelines, key store and DRBG instances. -/
structure Cph where
  queue : List EngReq
  pipes : SMap Pipe
  slots : SMap (Option KeySlot)
  drbg : SMap (Option Drbg)
  /-- Message of an LP's `cphx` between units. -/
  lp : SMap (Option Msg)
  /-- Slots whose clearing waits for their last resident request; the Bool says whether CPH_KCMD waits for it (14 R386). -/
  clearing : List (Nat × Bool)
  deriving DecidableEq, Repr

/-- Idle and empty. -/
def Cph.reset : Cph := { queue := [], pipes := [], slots := [], drbg := [], lp := [], clearing := [] }

end Sys2Proof.Machine
end

