-- ==== Sys2Proof/Machine/FaultMap.lean ====
section
/-! DEFINITION. The fault sources of the module with their classes (17 R439, R440, 06 R175, 10 R280, 18 R478, 19 R500, 20 R510,
21 R528), the cold-start selections of each class (17 R450), and the assigned counter units (20 R505). -/

namespace Sys2Proof.Machine
open Sys2Proof

/-- Entry i of a list of classes; none past its end. -/
def clsAt (l : List Nat) (i : Nat) : Option Nat := l[i]?

/-- Class of a source; none for a number that is never raised. -/
def srcClass (i : Nat) : Option Nat :=
  if i < 0x200 then clsAt [2, 2, 2, 2, 2, 2, 0, 3, 0, 0, 1, 1, 1, 6, 6, 11] (i % 16)
  else if i < 0x240 then clsAt [0, 1, 1, 1, 0, 0, 4, 4, 4] (i % 16)
  else if i < 0x2C0 then clsAt [0, 1, 5, 5, 13, 8] (i % 8)
  else if i < 0x3C0 then clsAt [5, 5, 13, 11, 11] (i % 8)
  else if i < 0x440 then clsAt [5, 0, 1, 12, 12] (i % 8)
  else if i < 0x480 then clsAt [0, 1, 10, 13] (i % 8)
  else if i < 0x4C0 then clsAt [0, 1, 10, 13] (i % 8)
  else clsAt [12, 15, 15, 7, 12, 12, 6, 11, 11, 11, 5, 5, 12, 12, 10, 1, 10, 10, 13, 4,
              7, 7, 7, 7, 7, 8, 8, 13, 13, 13, 13, 13, 14, 14, 14, 14, 8, 9, 9] (i - 0x4C0)

/-- Cold-start REACTION, ERR_OUT, CAP and QUIET of a class (17 R450). -/
def clsDefault (k : Nat) : Nat × Nat × Nat × Nat :=
  if k = 0 then (0, 0, 0, 500)
  else if k = 2 then (0, 0, 1, 50)
  else if k = 3 then (1, 1, 2, 50)
  else if k ∈ [5, 6, 11, 12] then (0, 0, 1, 500)
  else if k = 10 then (0, 0, 2, 50)
  else if k = 13 then (0, 1, 1, 50)
  else if k = 14 then (0, 0, 0, 50)
  else (1, 1, 3, 50)

/-- FCU_SRC_CFG_i after a cold start. -/
def srcCfgRst (i : Nat) : Nat :=
  match srcClass i with
  | none => 0
  | some k => k * 2 ^ 12 + (clsDefault k).2.1 * 4 + (clsDefault k).1

/-- FCU_CLASS_CFG_k after a cold start: VECTOR 0xF0 + k, TARGET_LP 0. -/
def clsCfgRst (k : Nat) : Nat :=
  (clsDefault k).2.2.2 * 2 ^ 48 + (clsDefault k).2.2.1 * 2 ^ 40 + (0xF0 + k) * 2 ^ 32

/-- Is a counter unit assigned (20 R505)? -/
def cntUnit (u : Nat) : Bool :=
  decide (u < 0xA8) || (decide (0xB0 ≤ u) && decide (u < 0x1D5)) || (decide (0x1E0 ≤ u) && decide (u < 0x211))
    || (decide (0x220 ≤ u) && decide (u < 0x281))

end Sys2Proof.Machine
end

