-- ==== Sys2Proof/Machine/Regs.lean ====
section
/-! DEFINITION. The register maps of the control space (00 R6 to R9, 01 R16 to R18): for every implemented register its reset
value, the masks of its access codes and the mask of its fields that the start journal loads (19 R481). Made from the register
tables of the chapters. Fields whose Reset column reads "journal" have the cold-start value of their description, or 0; HUB_ID's
fuses read 0xF and 0x1 as 01 R20 gives for the QN8100-B0-LC. -/

namespace Sys2Proof.Machine
open Sys2Proof

/-- One register: its reset value and the masks of the access codes of 00 R6. -/
structure RegDesc where
  rst : Nat
  rw : Nat := 0
  w1c : Nat := 0
  w1s : Nat := 0
  ro : Nat := 0
  rc : Nat := 0
  wo : Nat := 0
  /-- Fields loaded from the start journal. -/
  jr : Nat := 0
  deriving DecidableEq, Repr

/-- Base of the control space (01 R16). -/
def ctlSpace : Nat := 0xFFF0000000000

/-- Base of window i (01 R16). -/
def winBase (i : Nat) : Nat := ctlSpace + i * 0x100000000

/-- Is the offset one of cnt registers from base, stride bytes apart? -/
def inFam (off base cnt stride : Nat) : Bool :=
  decide (base ≤ off) && decide (off < base + cnt * stride) && decide ((off - base) % stride = 0)

/-- Registers of window 0x0 (hub). -/
def hubDesc (off : Nat) : Option RegDesc :=
  if off = 0x0 then some { rst := 0x8100100F1000, ro := 0xFFFFFF0FF000 } -- HUB_ID
  else if inFam off 0x200 4 8 then some { rst := 0x0, rc := 0xFFFF } -- HUB_TRS_WORST0 to HUB_TRS_WORST3
  else if off = 0x100 then some { rst := 0x1400, rw := 0xFFFF } -- HUB_TICK_PERIOD
  else if off = 0x108 then some { rst := 0x10, rw := 0xFFF0013 } -- HUB_TICK_CFG
  else if off = 0x110 then some { rst := 0x0, ro := 0xFFFFFFFFFFFFFFFF } -- HUB_TICK_NUM
  else if off = 0x118 then some { rst := 0x0, ro := 0xFFFFFFFFFFFFFFFF } -- HUB_TICK_LAST_TOD
  else if off = 0x120 then some { rst := 0x0, w1c := 0x1E, ro := 0x1 } -- HUB_TICK_STATUS
  else if off = 0x300 then some { rst := 0x0, rw := 0x1FFFFFFFF } -- HUB_PREFETCH_EN
  else if inFam off 0x1008 32 8 then some { rst := 0x0, rw := 0x800FFFFFFFFFFFFF } -- HUB_PMT_1 to HUB_PMT_32
  else if off = 0x308 then some { rst := 0x1FFFFFFFF, rw := 0x1FFFFFFFF } -- HUB_ORDER_MODE
  else if off = 0x310 then some { rst := 0x2, rw := 0xFF } -- HUB_DEV_TIMEOUT
  else if inFam off 0x2008 32 8 then some { rst := 0x0, rw := 0x8000FFFF00000000, jr := 0x8000FFFF00000000 } -- HUB_PART_CFG_1 to HUB_PART_CFG_32
  else if inFam off 0x2208 32 8 then some { rst := 0x0, rw := 0xFFFFFFFFFFFFFFFF, jr := 0xFFFFFFFFFFFFFFFF } -- HUB_PART_L3Q_1 to HUB_PART_L3Q_32
  else if inFam off 0x2408 32 8 then some { rst := 0x0, rw := 0xFFFFFFFFFF, jr := 0xFFFFFFFFFF } -- HUB_PART_RES_1 to HUB_PART_RES_32
  else if off = 0x2600 then some { rst := 0x0, w1c := 0xE, ro := 0x1 } -- HUB_PART_STATUS
  else if off = 0x800 then some { rst := 0x0, ro := 0xFFFFFFFFFFFFFFE7, jr := 0xFFFFFFFFFFFFFFE7 } -- HUB_UC_STATUS
  else if off = 0x808 then some { rst := 0x0, rw := 0x7FF } -- HUB_UC_RD_INDEX
  else if inFam off 0x810 3 8 then some { rst := 0x0, ro := 0xFFFFFFFFFFFFFFFF } -- HUB_UC_RD_DATA0 to HUB_UC_RD_DATA2
  else none

/-- Registers of window 0x1 (clk). -/
def clkDesc (off : Nat) : Option RegDesc :=
  if off = 0x0 then some { rst := 0x0, w1c := 0xE0, ro := 0x1F } -- CLK_STATUS
  else if off = 0x8 then some { rst := 0x0, wo := 0x1 } -- CLK_REF_CTL
  else if off = 0x10 then some { rst := 0x0, ro := 0xFFFFFFFFFFFFFFFF } -- CLK_TOD
  else if off = 0x20 then some { rst := 0x1FFF1FFFF, rw := 0x1FFF1FFFF, jr := 0x1FFF1FFFF } -- CLK_GATE
  else if off = 0x28 then some { rst := 0x0, ro := 0x1FFF1FFFF } -- CLK_GATE_PEND
  else if inFam off 0x100 8 16 then some { rst := 0x0, rw := 0xFFFFFFFFFFFFFFFF } -- CLK_TODCMP_VAL_0 to CLK_TODCMP_VAL_7
  else if inFam off 0x108 8 16 then some { rst := 0x30, rw := 0x8000000000001FFF, w1c := 0x4000000000000000 } -- CLK_TODCMP_CFG_0 to CLK_TODCMP_CFG_7
  else if inFam off 0x200 32 8 then some { rst := 0x68, rw := 0x7F, ro := 0x8000000000000000, jr := 0x7F } -- CLK_TRD_FREQ_0 to CLK_TRD_FREQ_31
  else if off = 0x1000 then some { rst := 0x100, rw := 0xFFFF } -- PWR_IDLE_CFG
  else if inFam off 0x1100 64 8 then some { rst := if 0x1200 ≤ off ∧ off < 0x1240 then 0x8000000000000020 else 0x20, rw := 0x8000000000000030, w1c := 0x4000000000000000, ro := 0x3, rc := 0xFFFF0000, jr := 0x8000000000000030 } -- PWR_DOM_0 to PWR_DOM_63
  else if off = 0x1400 then some { rst := 0x0, ro := 0xFFFFFFFFFFFF } -- PWR_THERM_STATUS
  else if off = 0x1408 then some { rst := 0x64, rw := 0xFF } -- PWR_THERM_CFG
  else none

/-- Registers of window 0x2 (fcu). -/
def fcuDesc (off : Nat) : Option RegDesc :=
  if off = 0x0 then some { rst := 0x0, ro := 0x1FFFFFFFF, rc := 0xFFFF000000000000 } -- FCU_STATUS
  else if off = 0x8 then some { rst := 0x0, ro := 0xFFFFFFFF } -- FCU_LOG_HEAD
  else if off = 0x10 then some { rst := 0x0, rw := 0xFFFFFFFF } -- FCU_LOG_INDEX
  else if inFam off 0x18 4 8 then some { rst := 0x0, ro := 0xFFFFFFFFFFFFFFFF } -- FCU_LOG_DATA0 to FCU_LOG_DATA3
  else if inFam off 0x100 16 8 then some { rst := clsCfgRst ((off - 0x100) / 8), rw := 0xFFFF03FF1F000000, jr := 0xFFFF03FF1F000000 } -- FCU_CLASS_CFG_0 to FCU_CLASS_CFG_15
  else if inFam off 0x200 16 8 then some { rst := 0x0, w1c := 0x1, ro := 0xFFFF0000FFFFFC1E, rc := 0xFFFF00000000 } -- FCU_CLASS_STAT_0 to FCU_CLASS_STAT_15
  else if inFam off 0x10000 1536 8 then -- FCU_SRC_CFG_0 to FCU_SRC_CFG_1535
    let m := if (srcClass ((off - 0x10000) / 8)).isSome then 0x7 else 0
    some { rst := srcCfgRst ((off - 0x10000) / 8), rw := m, w1c := 0x8, ro := 0xF000, rc := 0xFFFF000000000000, jr := m }
  else none

/-- Registers of window 0x3 (kst). -/
def kstDesc (off : Nat) : Option RegDesc :=
  if off = 0x0 then some { rst := 0x0, ro := 0xFF3F1F } -- KST_STATUS
  else if off = 0x8 then some { rst := 0x0, ro := 0xFFFFFFFF00000FF3, jr := 0xFFFFFFFF00000FF3 } -- KST_FW
  else if off = 0x10 then some { rst := 0x0, ro := 0xFFFFFFFF, jr := 0xFFFFFFFF } -- KST_JRNL_GEN
  else if off = 0x18 then some { rst := 0x0, wo := 0x7 } -- KST_CTL
  else if inFam off 0x108 20 8 then some { rst := 0x0, ro := 0xFFFFFFFF0000FF3F, jr := 0xFFFFFFFF0000FF3F } -- KST_STEP_1 to KST_STEP_20
  else none

/-- Registers of window 0x4 (cnt). -/
def cntDesc (off : Nat) : Option RegDesc :=
  if off = 0x0 then some { rst := 0x0, ro := 0xFFFFFFFFFFFFFFFF } -- CNT_GEN
  else if off = 0x8 then some { rst := 0x25F, ro := 0x3FF } -- CNT_UNITS
  else if 0x10000 ≤ off ∧ cntUnit ((off - 0x10000) / 0x80) then some { rst := 0x0, ro := 0xFFFFFFFFFFFFFFFF } -- counter banks
  else none

/-- Registers of window 0x8 (mem). -/
def memDesc (off : Nat) : Option RegDesc :=
  if inFam off 0x0 16 8 then some { rst := 0x0, ro := 0x3FF0FF7, rc := 0xFFFF00000000 } -- MEM_LINK_STATUS0 to MEM_LINK_STATUS15
  else if off = 0x100 then some { rst := 0x0, ro := 0x8000FF07FFFF0000 } -- MEM_MAP
  else if off = 0x200 then some { rst := 0x0, rw := 0x800FFFFFFF000000, jr := 0x800FFFFFFF000000 } -- MEM_SAVE_BASE
  else if off = 0x208 then some { rst := 0x0, w1c := 0x300000000000, ro := 0xFFC0FFFFFFFFFF, jr := 0xFFF0FFFFFFFFFF } -- MEM_SAVE_STATUS
  else none

/-- Registers of window 0x10 (css). -/
def cssDesc (off : Nat) : Option RegDesc :=
  if off = 0x0 then some { rst := 0x0, rw := 0xFFFFFFFF0000FFFF, jr := 0xFFFFFFFF0000FFFF } -- CSS_CFG
  else if off = 0x8 then some { rst := 0x0, w1c := 0x2000000000000, ro := 0x103FF0001FFFF } -- CSS_STATUS
  else if off = 0x100 then some { rst := 0x0, rw := 0xFFFFFFFFFFFC0 } -- CSS_RCMD_ADDR
  else if off = 0x108 then some { rst := 0x0, wo := 0x3FFF000F } -- CSS_RCMD
  else if off = 0x110 then some { rst := 0x0, ro := 0x800000000FFFFFFF } -- CSS_RCMD_STATUS
  else if inFam off 0x1008 32 8 then some { rst := 0x0, rw := 0x800FFFFFFFFF001F, jr := 0x800FFFFFFFFF001F } -- CSS_JRNL_1 to CSS_JRNL_32
  else if inFam off 0x10000 1024 8 then some { rst := 0x0, rw := 0x8003FFFFFFFFFF80, ro := 0x4000000000000000, jr := 0x8003FFFFFFFFFF80 } -- CSS_DBL_0 to CSS_DBL_1023
  else none

/-- Registers of window 0x11 (spn). -/
def spnDesc (off : Nat) : Option RegDesc :=
  if off = 0x0 then some { rst := 0x0, ro := 0xFFFFFFFFFFFFFFFF } -- SPN_MODULE_NAME
  else if off = 0x8 then some { rst := 0x3, rw := 0xFF } -- SPN_CFG
  else if off = 0x100 then some { rst := 0x0, wo := 0xFFFFFFFFFFFFFF07 } -- SPN_SCMD
  else if off = 0x108 then some { rst := 0x0, ro := 0x80000000000000FF } -- SPN_SCMD_STATUS
  else if off = 0x110 then some { rst := 0x0, rw := 0x800FFFFFFFFFF00F, jr := 0x800FFFFFFFFFF00F } -- SPN_EVQ_BASE
  else if off = 0x118 then some { rst := 0x6000000000000, rw := 0x43FFE000000FFFFF, w1c := 0x8000000000000000, ro := 0xFFFFF00000 } -- SPN_EVQ_CTL
  else if inFam off 0x200 32 8 then some { rst := 0x0, ro := 0xFFFFFF000007, rc := 0xFFFF000000FFFF00 } -- SPN_PORT_STATUS0 to SPN_PORT_STATUS31
  else none

/-- Registers of window 0x12 (pci). -/
def pciDesc (off : Nat) : Option RegDesc :=
  if inFam off 0x0 4 8 then some { rst := 0x0, rw := 0x307, jr := 0x307 } -- PCI_PORT_CFG0 to PCI_PORT_CFG3
  else if inFam off 0x100 4 8 then some { rst := 0x0, rw := 0x800FFFFFFFFF0000, wo := 0x1, jr := 0x800FFFFFFFFF0000 } -- PCI_RIDT_0 to PCI_RIDT_3
  else if off = 0x200 then some { rst := 0xF000, rw := 0x3FFFF00FFFC } -- PCI_CFG_ADDR
  else if off = 0x208 then some { rst := 0x0, rw := 0xFFFFFFFF, ro := 0xF000000000000000 } -- PCI_CFG_DATA
  else none

/-- Registers of window 0x18 (cmp). -/
def cmpDesc (off : Nat) : Option RegDesc :=
  if off = 0x0 then some { rst := 0xFF, rw := 0xFF } -- CMP_CFG
  else if off = 0x8 then some { rst := 0x0, ro := 0xFFFFFF, jr := 0xFFFF } -- CMP_STATUS
  else if off = 0x10 then some { rst := 0x0, ro := 0x1FFF } -- CMP_QUEUE
  else none

/-- Registers of window 0x19 (cph). -/
def cphDesc (off : Nat) : Option RegDesc :=
  if off = 0x0 then some { rst := 0xFF, rw := 0xFF } -- CPH_CFG
  else if off = 0x8 then some { rst := 0x0, w1c := 0x100000000, ro := 0xFFFFFFFF, jr := 0xFFFF } -- CPH_STATUS
  else if off = 0x10 then some { rst := 0x0, ro := 0x1FFF } -- CPH_QUEUE
  else if off = 0x100 then some { rst := 0x0, rw := 0xFFFFFFFFFFF00 } -- CPH_KCMD_ADDR
  else if off = 0x108 then some { rst := 0x0, wo := 0x1FFF000F } -- CPH_KCMD
  else if off = 0x110 then some { rst := 0x0, ro := 0x80000000000000FF } -- CPH_KCMD_STATUS
  else if inFam off 0x200 12 8 then some { rst := 0x0, ro := 0xFFFFFFFFFFFFFFFF } -- CPH_MODPUB0 to CPH_MODPUB11
  else if inFam off 0x1008 32 8 then some { rst := 0x0, rw := 0x800000001FFF3FFF, jr := 0x800000001FFF3FFF } -- CPH_KRANGE_1 to CPH_KRANGE_32
  else none

/-- Registers of window 0x1A (rng). -/
def rngDesc (off : Nat) : Option RegDesc :=
  if off = 0x0 then some { rst := 0x0, wo := 0x1 } -- RNG_CTL
  else if off = 0x8 then some { rst := 0x0, ro := 0x37 } -- RNG_STATUS
  else if off = 0x10 then some { rst := 0x0, ro := 0xFFFFFFFFFFFFFFFF } -- RNG_DATA
  else none

/-- Registers of window 0x20 (trd). -/
def trdDesc (off : Nat) : Option RegDesc :=
  if off = 0x400 then some { rst := 0x0, ro := 0x4, wo := 0x3 } -- TRD_PRED_CTL
  else if inFam off 0x500 4 8 then some { rst := 0x0, w1s := 0xFFFFFFFFFFFFFFFF } -- TRD_INT_PEND0 to TRD_INT_PEND3
  else if off = 0x480 then some { rst := 0x0, ro := 0xFF07 } -- TRD_EXC_STATUS
  else if off = 0x0 then some { rst := 0x1F000000, ro := 0xFFDF1F1F1F, jr := 0xF0001F1F1F } -- TRD_STATE
  else if off = 0x8 then some { rst := 0x0, wo := 0x3 } -- TRD_CTL
  else if off = 0x10 then some { rst := 0x0, ro := 0xE7E7, jr := 0xE7E7 } -- TRD_SPARE
  else if off = 0x18 then some { rst := 0x0, ro := 0xF3FFF } -- TRD_LAST_MISMATCH
  else if off = 0x20 then some { rst := 0x0, rc := 0xFFFFFFFFFFFFFFFF } -- TRD_RAS_COUNT
  else if off = 0x80 then some { rst := 0x0, rw := 0x1FF } -- TRD_VS_INDEX
  else if off = 0x88 then some { rst := 0x0, rw := 0xFFFFFFFFFFFFFFFF } -- TRD_VS_DATA
  else if off = 0x600 then some { rst := 0x0, rw := 0x1FFFF } -- TRD_L2_LOCK
  else if off = 0x608 then some { rst := 0x20, w1c := 0x1F, ro := 0x20 } -- TRD_L2_STATUS
  else if off = 0x700 then some { rst := 0x0, ro := 0xF00FFFFFFFFFFFFF } -- TRD_ASE_STATUS
  else none

/-- Registers of window 0x40 (dbg). -/
def dbgDesc (off : Nat) : Option RegDesc :=
  if off = 0x0 then some { rst := 0x0, w1s := 0x1 } -- DBG_CTL
  else if off = 0x8 then some { rst := 0x0, w1c := 0x4, ro := 0xFFFFFFFF00000003 } -- DBG_STATUS
  else none

/-- The description of the window with index i (01 R17). -/
def winDesc (i off : Nat) : Option RegDesc :=
  if i = 0x0 then hubDesc off
  else if i = 0x1 then clkDesc off
  else if i = 0x2 then fcuDesc off
  else if i = 0x3 then kstDesc off
  else if i = 0x4 then cntDesc off
  else if i = 0x8 then memDesc off
  else if i = 0x10 then cssDesc off
  else if i = 0x11 then spnDesc off
  else if i = 0x12 then pciDesc off
  else if i = 0x18 then cmpDesc off
  else if i = 0x19 then cphDesc off
  else if i = 0x1A then rngDesc off
  else if 0x20 ≤ i ∧ i < 0x40 then trdDesc off
  else if i = 0x40 then dbgDesc off
  else none

/-- Is window i assigned (01 R17)? -/
def winAssigned (i : Nat) : Bool :=
  i ∈ [0, 1, 2, 3, 4, 8, 0x10, 0x11, 0x12, 0x18, 0x19, 0x1A, 0x40] || (decide (0x20 ≤ i) && decide (i < 0x40))

/-- The register at an absolute address, if one is implemented there (01 R18 step 4). -/
def regDesc (a : Nat) : Option RegDesc :=
  if a < ctlSpace ∨ a % 8 ≠ 0 then none else winDesc ((a - ctlSpace) / 0x100000000) ((a - ctlSpace) % 0x100000000)

/-- Address of HUB_ID. -/
def aHubId : Nat := winBase 0x0 + (0x0)
/-- Address of HUB_TRS_WORST0 to HUB_TRS_WORST3. -/
def aHubTrsWorst (k : Nat) : Nat := winBase 0x0 + (0x200 + 8 * k)
/-- Address of HUB_TICK_PERIOD. -/
def aHubTickPeriod : Nat := winBase 0x0 + (0x100)
/-- Address of HUB_TICK_CFG. -/
def aHubTickCfg : Nat := winBase 0x0 + (0x108)
/-- Address of HUB_TICK_NUM. -/
def aHubTickNum : Nat := winBase 0x0 + (0x110)
/-- Address of HUB_TICK_LAST_TOD. -/
def aHubTickLastTod : Nat := winBase 0x0 + (0x118)
/-- Address of HUB_TICK_STATUS. -/
def aHubTickStatus : Nat := winBase 0x0 + (0x120)
/-- Address of HUB_PREFETCH_EN. -/
def aHubPrefetchEn : Nat := winBase 0x0 + (0x300)
/-- Address of HUB_PMT_1 to HUB_PMT_32. -/
def aHubPmt (k : Nat) : Nat := winBase 0x0 + (0x1000 + 8 * k)
/-- Address of HUB_ORDER_MODE. -/
def aHubOrderMode : Nat := winBase 0x0 + (0x308)
/-- Address of HUB_DEV_TIMEOUT. -/
def aHubDevTimeout : Nat := winBase 0x0 + (0x310)
/-- Address of HUB_PART_CFG_1 to HUB_PART_CFG_32. -/
def aHubPartCfg (k : Nat) : Nat := winBase 0x0 + (0x2000 + 8 * k)
/-- Address of HUB_PART_L3Q_1 to HUB_PART_L3Q_32. -/
def aHubPartL3q (k : Nat) : Nat := winBase 0x0 + (0x2200 + 8 * k)
/-- Address of HUB_PART_RES_1 to HUB_PART_RES_32. -/
def aHubPartRes (k : Nat) : Nat := winBase 0x0 + (0x2400 + 8 * k)
/-- Address of HUB_PART_STATUS. -/
def aHubPartStatus : Nat := winBase 0x0 + (0x2600)
/-- Address of HUB_UC_STATUS. -/
def aHubUcStatus : Nat := winBase 0x0 + (0x800)
/-- Address of HUB_UC_RD_INDEX. -/
def aHubUcRdIndex : Nat := winBase 0x0 + (0x808)
/-- Address of HUB_UC_RD_DATA0 to HUB_UC_RD_DATA2. -/
def aHubUcRdData (k : Nat) : Nat := winBase 0x0 + (0x810 + 8 * k)
/-- Address of CLK_STATUS. -/
def aClkStatus : Nat := winBase 0x1 + (0x0)
/-- Address of CLK_REF_CTL. -/
def aClkRefCtl : Nat := winBase 0x1 + (0x8)
/-- Address of CLK_TOD. -/
def aClkTod : Nat := winBase 0x1 + (0x10)
/-- Address of CLK_GATE and CLK_GATE_PEND. -/
def aClkGate (k : Nat) : Nat := winBase 0x1 + (0x20 + 8 * k)
/-- Address of CLK_TODCMP_VAL_0 to CLK_TODCMP_VAL_7. -/
def aClkTodcmpVal (k : Nat) : Nat := winBase 0x1 + (0x100 + 16 * k)
/-- Address of CLK_TODCMP_CFG_0 to CLK_TODCMP_CFG_7. -/
def aClkTodcmpCfg (k : Nat) : Nat := winBase 0x1 + (0x108 + 16 * k)
/-- Address of CLK_TRD_FREQ_0 to CLK_TRD_FREQ_31. -/
def aClkTrdFreq (k : Nat) : Nat := winBase 0x1 + (0x200 + 8 * k)
/-- Address of PWR_IDLE_CFG. -/
def aPwrIdleCfg : Nat := winBase 0x1 + (0x1000)
/-- Address of PWR_DOM_0 to PWR_DOM_63. -/
def aPwrDom (k : Nat) : Nat := winBase 0x1 + (0x1100 + 8 * k)
/-- Address of PWR_THERM_STATUS. -/
def aPwrThermStatus : Nat := winBase 0x1 + (0x1400)
/-- Address of PWR_THERM_CFG. -/
def aPwrThermCfg : Nat := winBase 0x1 + (0x1408)
/-- Address of FCU_STATUS. -/
def aFcuStatus : Nat := winBase 0x2 + (0x0)
/-- Address of FCU_LOG_HEAD. -/
def aFcuLogHead : Nat := winBase 0x2 + (0x8)
/-- Address of FCU_LOG_INDEX. -/
def aFcuLogIndex : Nat := winBase 0x2 + (0x10)
/-- Address of FCU_LOG_DATA0 to FCU_LOG_DATA3. -/
def aFcuLogData (k : Nat) : Nat := winBase 0x2 + (0x18 + 8 * k)
/-- Address of FCU_CLASS_CFG_0 to FCU_CLASS_CFG_15. -/
def aFcuClassCfg (k : Nat) : Nat := winBase 0x2 + (0x100 + 8 * k)
/-- Address of FCU_CLASS_STAT_0 to FCU_CLASS_STAT_15. -/
def aFcuClassStat (k : Nat) : Nat := winBase 0x2 + (0x200 + 8 * k)
/-- Address of FCU_SRC_CFG_0 to FCU_SRC_CFG_1535. -/
def aFcuSrcCfg (k : Nat) : Nat := winBase 0x2 + (0x10000 + 8 * k)
/-- Address of KST_STATUS. -/
def aKstStatus : Nat := winBase 0x3 + (0x0)
/-- Address of KST_FW. -/
def aKstFw : Nat := winBase 0x3 + (0x8)
/-- Address of KST_JRNL_GEN. -/
def aKstJrnlGen : Nat := winBase 0x3 + (0x10)
/-- Address of KST_CTL. -/
def aKstCtl : Nat := winBase 0x3 + (0x18)
/-- Address of KST_STEP_1 to KST_STEP_20. -/
def aKstStep (k : Nat) : Nat := winBase 0x3 + (0x100 + 8 * k)
/-- Address of CNT_GEN. -/
def aCntGen : Nat := winBase 0x4 + (0x0)
/-- Address of CNT_UNITS. -/
def aCntUnits : Nat := winBase 0x4 + (0x8)
/-- Address of MEM_LINK_STATUS0 to MEM_LINK_STATUS15. -/
def aMemLinkStatus (k : Nat) : Nat := winBase 0x8 + (0x0 + 8 * k)
/-- Address of MEM_MAP. -/
def aMemMap : Nat := winBase 0x8 + (0x100)
/-- Address of MEM_SAVE_BASE. -/
def aMemSaveBase : Nat := winBase 0x8 + (0x200)
/-- Address of MEM_SAVE_STATUS. -/
def aMemSaveStatus : Nat := winBase 0x8 + (0x208)
/-- Address of CSS_CFG. -/
def aCssCfg : Nat := winBase 0x10 + (0x0)
/-- Address of CSS_STATUS. -/
def aCssStatus : Nat := winBase 0x10 + (0x8)
/-- Address of CSS_RCMD_ADDR. -/
def aCssRcmdAddr : Nat := winBase 0x10 + (0x100)
/-- Address of CSS_RCMD. -/
def aCssRcmd : Nat := winBase 0x10 + (0x108)
/-- Address of CSS_RCMD_STATUS. -/
def aCssRcmdStatus : Nat := winBase 0x10 + (0x110)
/-- Address of CSS_JRNL_1 to CSS_JRNL_32. -/
def aCssJrnl (k : Nat) : Nat := winBase 0x10 + (0x1000 + 8 * k)
/-- Address of CSS_DBL_0 to CSS_DBL_1023. -/
def aCssDbl (k : Nat) : Nat := winBase 0x10 + (0x10000 + 8 * k)
/-- Address of SPN_MODULE_NAME. -/
def aSpnModuleName : Nat := winBase 0x11 + (0x0)
/-- Address of SPN_CFG. -/
def aSpnCfg : Nat := winBase 0x11 + (0x8)
/-- Address of SPN_SCMD. -/
def aSpnScmd : Nat := winBase 0x11 + (0x100)
/-- Address of SPN_SCMD_STATUS. -/
def aSpnScmdStatus : Nat := winBase 0x11 + (0x108)
/-- Address of SPN_EVQ_BASE. -/
def aSpnEvqBase : Nat := winBase 0x11 + (0x110)
/-- Address of SPN_EVQ_CTL. -/
def aSpnEvqCtl : Nat := winBase 0x11 + (0x118)
/-- Address of SPN_PORT_STATUS0 to SPN_PORT_STATUS31. -/
def aSpnPortStatus (k : Nat) : Nat := winBase 0x11 + (0x200 + 8 * k)
/-- Address of PCI_PORT_CFG0 to PCI_PORT_CFG3. -/
def aPciPortCfg (k : Nat) : Nat := winBase 0x12 + (0x0 + 8 * k)
/-- Address of PCI_RIDT_0 to PCI_RIDT_3. -/
def aPciRidt (k : Nat) : Nat := winBase 0x12 + (0x100 + 8 * k)
/-- Address of PCI_CFG_ADDR. -/
def aPciCfgAddr : Nat := winBase 0x12 + (0x200)
/-- Address of PCI_CFG_DATA. -/
def aPciCfgData : Nat := winBase 0x12 + (0x208)
/-- Address of CMP_CFG. -/
def aCmpCfg : Nat := winBase 0x18 + (0x0)
/-- Address of CMP_STATUS. -/
def aCmpStatus : Nat := winBase 0x18 + (0x8)
/-- Address of CMP_QUEUE. -/
def aCmpQueue : Nat := winBase 0x18 + (0x10)
/-- Address of CPH_CFG. -/
def aCphCfg : Nat := winBase 0x19 + (0x0)
/-- Address of CPH_STATUS. -/
def aCphStatus : Nat := winBase 0x19 + (0x8)
/-- Address of CPH_QUEUE. -/
def aCphQueue : Nat := winBase 0x19 + (0x10)
/-- Address of CPH_KCMD_ADDR. -/
def aCphKcmdAddr : Nat := winBase 0x19 + (0x100)
/-- Address of CPH_KCMD. -/
def aCphKcmd : Nat := winBase 0x19 + (0x108)
/-- Address of CPH_KCMD_STATUS. -/
def aCphKcmdStatus : Nat := winBase 0x19 + (0x110)
/-- Address of CPH_MODPUB0 to CPH_MODPUB11. -/
def aCphModpub (k : Nat) : Nat := winBase 0x19 + (0x200 + 8 * k)
/-- Address of CPH_KRANGE_1 to CPH_KRANGE_32. -/
def aCphKrange (k : Nat) : Nat := winBase 0x19 + (0x1000 + 8 * k)
/-- Address of RNG_CTL. -/
def aRngCtl : Nat := winBase 0x1A + (0x0)
/-- Address of RNG_STATUS. -/
def aRngStatus : Nat := winBase 0x1A + (0x8)
/-- Address of RNG_DATA. -/
def aRngData : Nat := winBase 0x1A + (0x10)
/-- Address of TRD_PRED_CTL. -/
def aTrdPredCtl (n : Nat) : Nat := winBase (0x20 + n) + (0x400)
/-- Address of TRD_INT_PEND0 to TRD_INT_PEND3. -/
def aTrdIntPend (n : Nat) (k : Nat) : Nat := winBase (0x20 + n) + (0x500 + 8 * k)
/-- Address of TRD_EXC_STATUS. -/
def aTrdExcStatus (n : Nat) : Nat := winBase (0x20 + n) + (0x480)
/-- Address of TRD_STATE. -/
def aTrdState (n : Nat) : Nat := winBase (0x20 + n) + (0x0)
/-- Address of TRD_CTL. -/
def aTrdCtl (n : Nat) : Nat := winBase (0x20 + n) + (0x8)
/-- Address of TRD_SPARE. -/
def aTrdSpare (n : Nat) : Nat := winBase (0x20 + n) + (0x10)
/-- Address of TRD_LAST_MISMATCH. -/
def aTrdLastMismatch (n : Nat) : Nat := winBase (0x20 + n) + (0x18)
/-- Address of TRD_RAS_COUNT. -/
def aTrdRasCount (n : Nat) : Nat := winBase (0x20 + n) + (0x20)
/-- Address of TRD_VS_INDEX. -/
def aTrdVsIndex (n : Nat) : Nat := winBase (0x20 + n) + (0x80)
/-- Address of TRD_VS_DATA. -/
def aTrdVsData (n : Nat) : Nat := winBase (0x20 + n) + (0x88)
/-- Address of TRD_L2_LOCK. -/
def aTrdL2Lock (n : Nat) : Nat := winBase (0x20 + n) + (0x600)
/-- Address of TRD_L2_STATUS. -/
def aTrdL2Status (n : Nat) : Nat := winBase (0x20 + n) + (0x608)
/-- Address of TRD_ASE_STATUS. -/
def aTrdAseStatus (n : Nat) : Nat := winBase (0x20 + n) + (0x700)
/-- Address of DBG_CTL. -/
def aDbgCtl : Nat := winBase 0x40 + (0x0)
/-- Address of DBG_STATUS. -/
def aDbgStatus : Nat := winBase 0x40 + (0x8)

end Sys2Proof.Machine
end

