-- ==== Sys2Proof/Machine/State.lean ====
section
/-! DEFINITION. The whole state of the module as plain data, its reset, and the ways a step can end without a next state. -/

namespace Sys2Proof.Machine
open Sys2Proof

/-- The QN8100. -/
structure State where
  /-- Commands waiting, first in first out. -/
  pending : List Instr
  lps : Vector Lp 32
  mem : Memory
  /-- Poison marks in memory: 32-byte granule number ↦ true (10 R529). -/
  poison : SMap Bool
  /-- Control-space registers by absolute address; an unlisted one holds its reset value. -/
  ctl : SMap Word
  /-- The four L3s (07 R180). -/
  l3 : Vector Cache 4
  hubPmt : List HubPmt
  part : PartSt
  tick : Tick
  save : Save
  kst : Kst
  fcu : Fcu
  pwr : Pwr
  therm : Therm
  cnt : Cnt
  css : Css
  spn : Span
  pci : Pci
  cmp : Cmp
  cph : Cph
  /-- Raised fault events the collector has not acted on yet (17 R441); empty between commands. -/
  raised : List FaultInfo
  /-- Counter of free values drawn (the model's own, log entry 4). -/
  free : Nat
  /-- Data of the last read answered (the model's own: where a read of a register or of memory by a command returns its value). -/
  bus : Word
  dbg : Option DbgReply
  deriving DecidableEq, Repr

/-- Why a step ends in a fault. No command of the model does: every exception the spec describes is taken, and every fault of a
unit is raised at the fault collector, both in a next state. -/
inductive Fault where
  /-- Raised by no command (safe). -/
  | none
  deriving DecidableEq, Repr

/-- Why a step is refused. -/
inductive Refusal where
  /-- A command whose meaning is not modelled. Raised by Dispatch.lean alone (safe). -/
  | notModelled (mnemonic : String)
  deriving DecidableEq, Repr

/-- The module right after always-on power-good (19 R479, R480): every register at its reset value, every unit empty, Keystone at
step 1. The command CHIP_RESET runs Keystone to release (log entry 2). -/
def State.reset : State where
  pending := []
  lps := Vector.replicate 32 Lp.reset
  mem := []
  poison := []
  ctl := []
  l3 := Vector.replicate 4 Cache.reset
  hubPmt := []
  part := PartSt.reset
  tick := Tick.reset
  save := Save.reset
  kst := Kst.reset
  fcu := Fcu.reset
  pwr := Pwr.reset
  therm := Therm.reset
  cnt := Cnt.reset
  css := Css.reset
  spn := Span.reset
  pci := Pci.reset
  cmp := Cmp.reset
  cph := Cph.reset
  raised := []
  free := 0
  bus := 0
  dbg := none

end Sys2Proof.Machine
end

