-- ==== Sys2Proof/Machine/Ops.lean ====
section
/-! DEFINITION. Named operations over the state: logical processors, control registers and their fields, fault raising, interrupt
posting, main memory and its links, hub reads of a line. -/

namespace Sys2Proof.Machine
open Sys2Proof

/-- LP n. -/
def State.lp (s : State) (n : Tri) : Lp := s.lps.get n

/-- LP n changed by f. -/
def State.updLp (s : State) (n : Tri) (f : Lp → Lp) : State := { s with lps := s.lps.set n (f (s.lp n)) }

/-- Architectural state of LP n changed by f. -/
def State.updArch (s : State) (n : Tri) (f : Arch → Arch) : State :=
  s.updLp n fun l => { l with arch := f l.arch }

/-- What an unlisted control-space register holds: its reset value (00 R9). -/
def ctlReset (a : Nat) : Word := match regDesc a with | some d => w64 d.rst | none => 0

/-- The stored value of a control-space register. -/
def State.reg (s : State) (a : Nat) : Word := smGet ctlReset s.ctl a

/-- The register at a set to v by hardware. -/
def State.setReg (s : State) (a : Nat) (v : Word) : State := { s with ctl := smSet ctlReset s.ctl a v }

/-- Field [h:l] of the register at a. -/
def State.fld (s : State) (a h l : Nat) : Nat := bits (s.reg a) h l

/-- One-bit field of the register at a. -/
def State.flag (s : State) (a i : Nat) : Bool := bit (s.reg a) i

/-- Field [h:l] set by hardware. -/
def State.setFld (s : State) (a h l v : Nat) : State := s.setReg a (putBits (s.reg a) h l v)

/-- A count field that saturates at its largest value goes up by k. -/
def State.addSat (s : State) (a h l k : Nat) : State :=
  s.setFld a h l (min (s.fld a h l + k) (2 ^ (h + 1 - l) - 1))

/-- A fault source is raised (17 R439). The collector acts on it at the end of the command. -/
def State.raise (s : State) (f : FaultInfo) : State := { s with raised := s.raised ++ [f] }

/-- Number of source i of triad n (17 R439). -/
def srcTriad (n : Tri) (i : Nat) : Nat := 16 * n.val + i
/-- Number of source i of die d. -/
def srcDie (d i : Nat) : Nat := 0x200 + 16 * d + i
/-- Number of source i of memory link m. -/
def srcLink (m i : Nat) : Nat := 0x240 + 8 * m + i
/-- Number of source i of Span port p. -/
def srcSpan (p i : Nat) : Nat := 0x2C0 + 8 * p + i
/-- Number of source i of root port n.r. -/
def srcRoot (n r i : Nat) : Nat := 0x3C0 + 8 * (4 * n + r) + i
/-- Number of source i of compression engine e. -/
def srcCmp (e i : Nat) : Nat := 0x440 + 8 * e + i
/-- Number of source i of cipher pipeline p. -/
def srcCph (p i : Nat) : Nat := 0x480 + 8 * p + i

/-- A fresh free value's index; the counter advances. -/
def State.draw (s : State) : Nat × State := (s.free, { s with free := s.free + 1 })

/-- The compute die of a triad (01 R13). -/
def dieOf (n : Tri) : Fin 4 := ⟨n.val / 8, by have := n.isLt; omega⟩

/-! ### Counters -/

/-- The event counter of unit u, word w, goes up by k, modulo 2^64 (20 R501). -/
def State.count (s : State) (u w k : Nat) : State :=
  let i := 16 * u + w
  { s with cnt := { s.cnt with live := smSet (fun _ => 0) s.cnt.live i ((smGet (fun _ => 0) s.cnt.live i + k) % 2 ^ 64) } }

/-! ### Triad registers -/

/-- TRD_STATE.MODE (06). -/
def State.mode (s : State) (n : Tri) : Nat := s.fld (aTrdState n) 39 36
/-- Set TRD_STATE.MODE. -/
def State.setMode (s : State) (n : Tri) (m : Nat) : State := s.setFld (aTrdState n) 39 36 m
/-- TRD_STATE.HELD. -/
def State.held (s : State) (n : Tri) : Bool := s.flag (aTrdState n) 30
/-- TRD_STATE.HALTED. -/
def State.halted (s : State) (n : Tri) : Bool := s.flag (aTrdState n) 33
/-- TRD_EXC_STATUS.CHECKSTOP. -/
def State.checkstopped (s : State) (n : Tri) : Bool := s.flag (aTrdExcStatus n) 2

/-! ### Interrupt posting -/

/-- Pending bit of vector v at LP n (05 R125, R126). -/
def State.pend (s : State) (n : Tri) (v : Nat) : Bool := s.flag (aTrdIntPend n (v / 64)) (v % 64)
/-- A source posts vector v to LP n; assertions merge (05 R125). -/
def State.post (s : State) (n : Tri) (v : Nat) : State := s.setFld (aTrdIntPend n (v / 64)) (v % 64) (v % 64) 1
/-- Entry clears the pending bit. -/
def State.unpend (s : State) (n : Tri) (v : Nat) : State := s.setFld (aTrdIntPend n (v / 64)) (v % 64) (v % 64) 0
/-- LP number from a register field. -/
def triOf (k : Nat) : Tri := ⟨k % 32, Nat.mod_lt k (by decide)⟩

/-! ### Main memory and its links -/

/-- Links of the map in ascending order (10 R260). -/
def State.mapLinks (s : State) : List Nat := (List.range 16).filter fun k => s.flag aMemMap (16 + k)
/-- Capacity behind each link in bytes (10 R261, MEM_MAP.CAP is in units of 4 GiB). -/
def State.linkCap (s : State) : Nat := s.fld aMemMap 47 40 * 2 ^ 32
/-- Size of main memory: N × C once the map is formed (10 R260). -/
def State.memSize (s : State) : Nat :=
  if s.flag aMemMap 63 then s.mapLinks.length * s.linkCap else 0
/-- Is the absolute address in main memory? -/
def State.isMain (s : State) (a : Nat) : Bool := decide (a < s.memSize)
/-- The link that holds an address: the (g mod N)-th of the map (10 R260). -/
def State.linkOf (s : State) (a : Nat) : Nat :=
  let ls := s.mapLinks
  (ls[(a / 4096) % ls.length]?).getD 0
/-- MEM_LINK_STATUS.STATE of a link. -/
def State.linkState (s : State) (m : Nat) : Nat := s.fld (aMemLinkStatus m) 2 0
/-- Memory behind a FAILED link (10 R259). -/
def State.linkFailed (s : State) (a : Nat) : Bool := s.isMain a && s.linkState (s.linkOf a) = 4
/-- Main memory that answers. -/
def State.memOk (s : State) (a : Nat) : Bool := s.isMain a && !(s.linkState (s.linkOf a) = 4)
/-- Is the address in the control space (01 R16)? -/
def isCtl (a : Nat) : Bool := decide (ctlSpace ≤ a)

/-- Poison of an address in memory (10 R529). -/
def State.poisoned (s : State) (a : Nat) : Bool := smGet (fun _ => false) s.poison (a / 32)
/-- Set or clear the mark of a granule. -/
def State.setPoison (s : State) (g : Nat) (b : Bool) : State :=
  { s with poison := smSet (fun _ => false) s.poison g b }

/-- Bytes of a poison granule at an address: the 128-byte line under protocol version 2 of its link, else 32 (10 R529). -/
def State.poisonGran (s : State) (a : Nat) : Nat := if s.fld (aMemLinkStatus (s.linkOf a)) 7 4 = 2 then 128 else 32

/-- The marks kept by a write of the given byte addresses: a fully written granule is cleared, a partly written one stays as it is (10
R529). -/
def State.clearPoison (s : State) (addrs : List Nat) : State :=
  ((addrs.map (· / 32)).eraseDups).foldl (fun s g =>
    let gran := s.poisonGran (32 * g)
    if (List.range gran).all fun i => addrs.contains (32 * g / gran * gran + i) then s.setPoison g false else s) s

/-- Memory with the pairs written, marks as 10 R529 says. -/
def State.memWrite (s : State) (bs : List (Nat × Byte)) : State :=
  if s.poison.isEmpty then { s with mem := memPuts s.mem bs }
  else State.clearPoison { s with mem := memPuts s.mem bs } (bs.map (·.1))

/-- Byte i of a line. -/
def lineByte (l : Line) (i : Nat) : Byte := l.extractLsb' (8 * i) 8
/-- A line with byte i set. -/
def lineSet (l : Line) (i : Nat) (b : Byte) : Line :=
  let k := 8 * i
  BitVec.ofNat 1024 (l.toNat - ((l.toNat >>> k) % 256) <<< k + b.toNat <<< k)
/-- The line as main memory holds it. -/
def State.memLine (s : State) (line : Nat) : Line := BitVec.ofNat 1024 (leNat (memBytes s.mem (128 * line) 128))
/-- The 128 (address, byte) pairs of a line. -/
def linePairs (line : Nat) (d : Line) : List (Nat × Byte) :=
  (List.range 128).map fun i => (128 * line + i, lineByte d i)
/-- Poison mask of a line as memory holds it. -/
def State.memPoison (s : State) (line : Nat) : Nat :=
  (List.range 4).foldl (fun m i => m + b2n (s.poisoned (128 * line + 32 * i)) * 2 ^ i) 0
/-- Write a whole line back to memory with its marks (10 R529). -/
def State.memPutLine (s : State) (line : Nat) (d : Line) (poison : Nat) : State :=
  if !s.memOk (128 * line) then s
  else
    let s := { s with mem := memPuts s.mem (linePairs line d) }
    (List.range 4).foldl (fun s i => s.setPoison (4 * line + i) (poison.testBit i)) s

end Sys2Proof.Machine
end

