-- ==== Sys2Proof/Machine/Coherence.lean ====
section
/-! DEFINITION. The caches (07): tree replacement, the L2s with their victim buffers and miss registers, the L3s, and what a
read by an LP or the hub sees. Only modified lines hold data of their own; every clean copy equals memory. -/

namespace Sys2Proof.Machine
open Sys2Proof

/-! ### Tree bits (07 R188) -/

/-- One level of touch: node n points away from the child used. -/
def treeStep (t n : Nat) : Nat :=
  let p := n / 2
  if n % 2 = 1 then t - (b2n (t.testBit p)) * 2 ^ p else t - (b2n (t.testBit p)) * 2 ^ p + 2 ^ p

/-- touch(w) on the 15 bits, bit p of t for node p. -/
def treeTouch (t w : Nat) : Nat :=
  let n := 16 + w
  treeStep (treeStep (treeStep (treeStep t n) (n / 2)) (n / 4)) (n / 8)

/-- Is way w under node c, whose leaves are sh levels below? -/
def underNode (c sh w : Nat) : Bool := decide ((16 + w) / 2 ^ sh = c)

/-- One level of the walk to the victim. -/
def victimStep (elig : List Nat) (t n sh : Nat) : Nat :=
  let c := 2 * n + b2n (t.testBit n)
  if elig.any (underNode c sh) then c else 2 * n + 1 - b2n (t.testBit n)

/-- victim(E): the lowest invalid eligible way, else by the tree. -/
def treeVictim (elig : List Nat) (invalid : Nat → Bool) (t : Nat) : Nat :=
  match elig.find? invalid with
  | some w => w
  | none => victimStep elig t (victimStep elig t (victimStep elig t (victimStep elig t 1 3) 2) 1) 0 - 16

/-! ### Arrays -/

/-- Sets of an L2 and of an L3 (07 R180). -/
def l2Sets : Nat := 8192
/-- Sets of an L3. -/
def l3Sets : Nat := 131072

/-- What an unlisted position holds. -/
def noLine : Nat → CLine := fun _ => CLine.empty

/-- The line at a position. -/
def Cache.pos (c : Cache) (k : Nat) : CLine := smGet noLine c.ways k
/-- Set a position. -/
def Cache.put (c : Cache) (k : Nat) (e : CLine) : Cache := { c with ways := smSet noLine c.ways k e }
/-- Position set × 16 + way that holds a line. -/
def Cache.find (sets : Nat) (c : Cache) (line : Nat) : Option Nat :=
  if c.ways.isEmpty then none
  else ((List.range 16).map (fun w => line % sets * 16 + w)).find? fun k =>
    let e := c.pos k
    e.st ≠ .i && e.line = line
/-- touch a position's way. -/
def Cache.touch (c : Cache) (k : Nat) : Cache :=
  { c with tree := smSet (fun _ => 0) c.tree (k / 16) (treeTouch (smGet (fun _ => 0) c.tree (k / 16)) (k % 16)) }
/-- The victim position of a set among eligible ways. -/
def Cache.victim (c : Cache) (set : Nat) (elig : List Nat) : Nat :=
  set * 16 + treeVictim elig (fun w => (c.pos (set * 16 + w)).st = .i) (smGet (fun _ => 0) c.tree set)
/-- Remove a line. -/
def Cache.drop (sets : Nat) (c : Cache) (line : Nat) : Cache :=
  match c.find sets line with
  | some k => c.put k CLine.empty
  | none => c

/-- An L2's position of a line. -/
def Lp.l2Find (l : Lp) (line : Nat) : Option Nat := l.l2.find l2Sets line
/-- The L2's state of a line. -/
def Lp.l2St (l : Lp) (line : Nat) : Coh :=
  match l.l2Find line with
  | some k => (l.l2.pos k).st
  | none => .i

/-- All triads. -/
def allTri : List Tri := List.finRange 32
/-- Triads of a die. -/
def dieTri (d : Fin 4) : List Tri := allTri.filter fun n => dieOf n = d

/-- L3 of a die. -/
def State.l3Of (s : State) (d : Fin 4) : Cache := s.l3.get d
/-- L3 of a die changed. -/
def State.updL3 (s : State) (d : Fin 4) (f : Cache → Cache) : State := { s with l3 := s.l3.set d (f (s.l3Of d)) }

/-! ### What a read sees (07 R184, 09 R236) -/

/-- Modified data of a line in one triad's L2. -/
def Lp.l2Mod (l : Lp) (line : Nat) : Option (Line × Nat) :=
  match l.l2Find line with
  | some k => let e := l.l2.pos k; if e.st = .m then some (e.data, e.poison) else none
  | none => none

/-- Data of a line in one triad's victim buffer that has not been issued to its destination (07 R197). -/
def Lp.vbMod (l : Lp) (line : Nat) : Option (Line × Nat) :=
  (l.vbuf.find? fun v => v.line = line && !v.issued).map fun v => (v.data, v.poison)

/-- Modified data of a line in an L3. -/
def Cache.l3Mod (c : Cache) (line : Nat) : Option (Line × Nat) :=
  match c.find l3Sets line with
  | some k => let e := c.pos k; if e.st = .m then some (e.data, e.poison) else none
  | none => none

/-- The newest modified data of a line: an L2 in M, else a victim buffer, else an L3. -/
def State.modLine (s : State) (line : Nat) : Option (Line × Nat) :=
  match allTri.findSome? fun n => (s.lp n).l2Mod line with
  | some r => some r
  | none => match allTri.findSome? fun n => (s.lp n).vbMod line with
    | some r => some r
    | none => (List.finRange 4).findSome? fun d => (s.l3Of d).l3Mod line

/-- The newest copy of a line with its poison mask. -/
def State.newest (s : State) (line : Nat) : Line × Nat :=
  match s.modLine line with
  | some r => r
  | none => (s.memLine line, s.memPoison line)

/-- The newest value of a byte: what every observer but a storing LP reads (09 R235). -/
def State.byte (s : State) (a : Nat) : Byte :=
  match s.modLine (a / 128) with
  | some (d, _) => lineByte d (a % 128)
  | none => memByte s.mem a

/-- The newest values of n bytes. -/
def State.bytes (s : State) (a n : Nat) : List Byte := (List.range n).map fun i => s.byte (a + i)
/-- A little-endian number of n bytes. -/
def State.num (s : State) (a n : Nat) : Nat := leNat (s.bytes a n)

/-- Is a byte poisoned where it would be taken from? -/
def State.badByte (s : State) (a : Nat) : Bool :=
  match s.modLine (a / 128) with
  | some (_, p) => p.testBit (a % 128 / 32)
  | none => if s.poison.isEmpty then false else s.poisoned a

/-! ### The L1s of a triad's cores (06 R144, 07 R180, R187) -/

/-- Every core's arrays changed alike. -/
def Lp.cores (l : Lp) (f : CoreArr → CoreArr) : Lp := { l with lead := f l.lead, second := f l.second, third := f l.third }

/-- An L1 of a core. -/
def CoreArr.l1 (c : CoreArr) (instr : Bool) : SMap Nat := if instr then c.l1i else c.l1d
/-- Does a core's L1 hold a line? -/
def CoreArr.has (c : CoreArr) (instr : Bool) (line : Nat) : Bool := (c.l1 instr).any fun e => e.2 = line + 1
/-- A line leaves a core's L1s. -/
def CoreArr.drop (c : CoreArr) (line : Nat) : CoreArr :=
  { c with l1i := c.l1i.filter fun e => e.2 ≠ line + 1, l1d := c.l1d.filter fun e => e.2 ≠ line + 1 }

/-- Remove a line from the L1s of a triad's cores (07 R187). -/
def Lp.dropL1 (l : Lp) (line : Nat) : Lp := l.cores fun c => c.drop line

/-- Cores of the triad whose L1 lacks a line. While there is no third core, its arrays mirror the second's. -/
def Lp.lacking (l : Lp) (instr : Bool) (line : Nat) : Nat :=
  ([l.lead, l.second, l.third].filter fun c => !c.has instr line).length

/-- An L1 fill: an invalid way, else a way the spec leaves open. -/
def l1Fill (m : SMap Nat) (line free : Nat) : SMap Nat :=
  let set := line % 128
  if m.any fun e => e.2 = line + 1 then m
  else
    let g := fun w => smGet (fun _ => 0) m (set * 4 + w)
    let w := match (List.range 4).find? fun w => g w = 0 with
      | some w => w
      | none => (Config.l1Way free).val
    smSet (fun _ => 0) m (set * 4 + w) (line + 1)

/-- Fill an L1 of every core of triad n that lacks the line. -/
def State.fillL1 (s : State) (n : Tri) (line : Nat) (instr : Bool) : State :=
  let (k, s) := s.draw
  s.updLp n fun l => l.cores fun c =>
    if instr then { c with l1i := l1Fill c.l1i line k } else { c with l1d := l1Fill c.l1d line k }

/-- Die-local core in a role. -/
def State.coreOf (s : State) (n : Tri) : Role → Nat
  | .lead => s.fld (aTrdState n) 4 0
  | .second => s.fld (aTrdState n) 12 8
  | .third => s.fld (aTrdState n) 20 16

/-- Word w of the counters of triad n's L2 (20 R505): 1 hits, 2 misses, 3 secondary merges, 4 prefetches, 5 victim-buffer recalls, 8
write-backs, 9 lock-fills. -/
def State.l2Count (s : State) (n : Tri) (w k : Nat) : State := s.count (0x20 + n.val) w k

/-- Cores of triad n whose L1 lacks a line count the miss (20 R505). -/
def State.l1Count (s : State) (n : Tri) (line : Nat) (instr : Bool) : State :=
  let l := s.lp n
  [(Role.lead, l.lead), (Role.second, l.second), (Role.third, l.third)].foldl (fun s c =>
    if c.2.has instr line || s.coreOf n c.1 = 0x1F then s
    else s.count (0x40 + 26 * (dieOf n).val + s.coreOf n c.1) (if instr then 2 else 3) 1) s

/-! ### Removing and cleaning copies -/

/-- Remove a line from a triad's L1s and L2. -/
def Lp.dropLine (l : Lp) (line : Nat) : Lp := { l.dropL1 line with l2 := l.l2.drop l2Sets line }

/-- Remove a line from a triad's L1s, L2 and victim buffer. -/
def Lp.purge (l : Lp) (line : Nat) : Lp := { l.dropLine line with vbuf := l.vbuf.filter fun v => v.line ≠ line }

/-- Does the triad hold the line in its L2 or victim buffer? -/
def Lp.hasLine (l : Lp) (line : Nat) : Bool := (l.l2Find line).isSome || l.vbuf.any fun v => v.line = line

/-- Is the triad's L2 way of a position locked (07 R194)? -/
def State.lockedWay (s : State) (n : Tri) (k : Nat) : Bool := s.flag (aTrdL2Lock n) (k % 16)

/-- LOCK_LOST when a line that a triad loses to coherence or an L3 eviction lies in a locked way (07 R196). -/
def State.lockLost (s : State) (n : Tri) (line : Nat) : State :=
  match (s.lp n).l2Find line with
  | some k => if s.lockedWay n k then s.setFld (aTrdL2Status n) 2 2 1 else s
  | none => s

/-- Modified data of a line goes to memory; copies stay as they are. -/
def State.writeBack (s : State) (line : Nat) : State :=
  match s.modLine line with
  | some (d, p) => s.memPutLine line d p
  | none => s

/-- A modified position becomes clean: M becomes E (07 R201). -/
def cleanPos (c : Cache) (k : Nat) : Cache :=
  let e := c.pos k
  if e.st = .m then c.put k { e with st := .e, data := 0, poison := 0, pend := false, stored := false } else c

/-- The L3 of die d holds its copy of a line clean. -/
def State.l3Clean (s : State) (d : Fin 4) (line : Nat) : State :=
  match (s.l3Of d).find l3Sets line with
  | some k => s.updL3 d fun c => cleanPos c k
  | none => s

/-- The L3 of die d holds its copy of a line modified, with this data. -/
def State.l3Modify (s : State) (d : Fin 4) (line : Nat) (data : Line) (poison : Nat) (pers : Bool) : State :=
  match (s.l3Of d).find l3Sets line with
  | some k => s.updL3 d fun c => c.put k { c.pos k with st := .m, line := line, data := data, poison := poison, pers := pers }
  | none => s.memPutLine line data poison

/-! ### The victim buffer (07 R197 to R199) -/

/-- The data of an entry reaches its destination: the die's L3, or memory and any L3 copy that remains (07 R197). -/
def State.vbLand (s : State) (n : Tri) (v : VbEnt) : State :=
  if v.toMem then (s.memPutLine v.line v.data v.poison).l3Clean (dieOf n) v.line
  else s.l3Modify (dieOf n) v.line v.data v.poison v.pers

/-- The write of entry i is issued: it is in order at its destination from here on, and waits only for the acknowledgement. -/
def State.vbIssue (s : State) (n : Tri) (i : Nat) : State :=
  match (s.lp n).vbuf[i]? with
  | none => s
  | some v =>
    if v.issued then s
    else (s.updLp n fun l => { l with vbuf := l.vbuf.modify i fun v => { v with issued := true } }).vbLand n v

/-- A line's pending-write mark goes at the acknowledgement: E if no store has reached it since it was installed (07 R199). -/
def Lp.clearPend (l : Lp) (line : Nat) : Lp :=
  match l.l2Find line with
  | some k =>
    let e := l.l2.pos k
    if e.pend then
      { l with l2 := if e.stored then l.l2.put k { e with pend := false }
                     else l.l2.put k { e with pend := false, st := .e, data := 0, poison := 0 } }
    else l
  | none => l

/-- The acknowledgement of victim-buffer entry i of triad n: the entry is freed (07 R197, R199). -/
def State.vbAck (s : State) (n : Tri) (i : Nat) : State :=
  match (s.lp n).vbuf[i]? with
  | none => s
  | some v => (s.vbIssue n i).updLp n fun l => { l with vbuf := l.vbuf.eraseIdx i }.clearPend v.line

/-- A free entry: a full buffer drains its oldest one first. -/
def State.vbRoom (s : State) (n : Tri) : State := if 32 ≤ (s.lp n).vbuf.length then s.vbAck n 0 else s

/-- A modified line leaves the L2 through an entry that drains within the same transaction (07 R186, R197). -/
def State.vbPass (s : State) (n : Tri) (v : VbEnt) : State := ((s.vbRoom n).vbLand n v).l2Count n 8 1

/-- A modified line enters the victim buffer; a fill that finds the buffer full waits for the oldest entry (07 R198). -/
def State.vbPush (s : State) (n : Tri) (v : VbEnt) (fill : Bool) : State :=
  let s := if fill && decide (32 ≤ (s.lp n).vbuf.length) then s.setFld (aTrdL2Status n) 1 1 1 else s
  ((s.vbRoom n).updLp n fun l => { l with vbuf := l.vbuf ++ [v] }).l2Count n 8 1

/-- The entry a modified position makes. -/
def CLine.victim (e : CLine) (toMem : Bool) : VbEnt :=
  { line := e.line, data := e.data, toMem := toMem, issued := false, poison := e.poison, pers := e.pers }

/-! ### Maintenance and the hub's accesses -/

/-- Remove every copy in every L1, L2, L3 and victim buffer; the triads listed report lost locked lines. -/
def State.dropAll (s : State) (report : Bool) (line : Nat) : State :=
  let s := allTri.foldl (fun s n =>
    if (s.lp n).hasLine line then (if report then s.lockLost n line else s).updLp n fun l => l.purge line else s) s
  (List.finRange 4).foldl (fun s d => if ((s.l3Of d).find l3Sets line).isSome then s.updL3 d fun c => c.drop l3Sets line else s) s

/-- Was the write of a waiting entry for the line issued before? The spec leaves it open (log entry 6). -/
def State.vbGuess (s : State) (n : Tri) (line : Nat) : State :=
  match (s.lp n).vbuf.findIdx? fun v => v.line = line && !v.issued with
  | none => s
  | some i => let (k, s) := s.draw; if Config.vbIssued k then s.vbIssue n i else s

/-- Invalidate: modified data is discarded, a write not yet issued is cancelled (07 R201). -/
def State.invLine (s : State) (line : Nat) : State := (allTri.foldl (fun s n => s.vbGuess n line) s).dropAll false line

/-- A modified line that maintenance writes passes the victim buffer of its L2 (07 R197). -/
def State.cmRoom (s : State) (line : Nat) : State :=
  allTri.foldl (fun s n => if ((s.lp n).l2Mod line).isSome then s.vbRoom n else s) s

/-- Clean and invalidate (07 R201). -/
def State.cleanInvLine (s : State) (line : Nat) : State := ((s.cmRoom line).writeBack line).dropAll false line

/-- Every copy of a line stays, in the state that f gives a position, and no victim-buffer entry remains. -/
def State.keepAll (s : State) (line : Nat) (f : Cache → Nat → Cache) : State :=
  let s := allTri.foldl (fun s n =>
    if (s.lp n).hasLine line then s.updLp n fun l =>
      { l with l2 := (match l.l2Find line with | some k => f l.l2 k | none => l.l2), vbuf := l.vbuf.filter fun v => v.line ≠ line }
    else s) s
  (List.finRange 4).foldl (fun s d => s.l3Clean d line) s

/-- Clean: the data is written, every copy remains, clean (07 R201). -/
def State.cleanLine (s : State) (line : Nat) : State := ((s.cmRoom line).writeBack line).keepAll line cleanPos

/-- A position becomes shared and clean. -/
def sharePos (c : Cache) (k : Nat) : Cache :=
  c.put k { c.pos k with st := .s, data := 0, poison := 0, pend := false, stored := false }

/-- A line is taken for modification: the channel subsystem's copy of a watched line is invalidated (11 R284). -/
def State.markWatch (s : State) (line : Nat) : State :=
  if s.css.watch.isEmpty then s
  else { s with css := { s.css with watch := s.css.watch.map fun e =>
    (e.1, e.2.map fun w => if w.line = line then { w with stale := true } else w) } }

/-- The channel subsystem takes a shared copy of a line: modified data goes to memory and the holders keep it shared (11 R284, 07
R186). -/
def State.hubShare (s : State) (line : Nat) : State := (s.writeBack line).keepAll line sharePos

/-- A write by the hub: every cached copy is invalidated, then memory is written (07 R184, 09 R235). -/
def State.hubWrite (s : State) (bs : List (Nat × Byte)) : State :=
  let lines := (bs.map fun e => e.1 / 128).eraseDups
  let s := lines.foldl (fun s line => ((s.writeBack line).dropAll true line).markWatch line) s
  s.memWrite (bs.filter fun e => s.memOk e.1)

/-! ### L3 fills -/

/-- Does a triad of the die hold the line in a locked way (07 R196)? -/
def State.l3Held (s : State) (d : Fin 4) (line : Nat) : Bool :=
  (dieTri d).any fun n => match (s.lp n).l2Find line with | some k => s.lockedWay n k | none => false

/-- HUB_PART_CFG_p as in force (15 R415). -/
def State.partCfg (s : State) (p : Nat) : Word := smGet (fun _ => 0) s.part.cfg p
/-- Is partition p Sealed (15 R415)? -/
def State.sealed (s : State) (p : Nat) : Bool := bit (s.partCfg p) 63
/-- Way mask of partition p on die d, as in force (15 R416). -/
def State.l3Mask (s : State) (p d : Nat) : Nat := bits (smGet (fun _ => 0) s.part.l3q p) (16 * d + 15) (16 * d)

/-- Do the memory transfers of partition p go by a reservation (15 R417)? During a save they travel at their own class (01 R21). -/
def State.memReserved (s : State) (p : Nat) : Bool := s.part.honMem.testBit p && s.save.phase = .none
/-- Has the partition no memory slot left in this tick: its next transfer waits (15 R417)? -/
def State.memStarved (s : State) (p : Nat) : Bool := s.memReserved p && smGet (fun _ => 0) s.part.memLeft p = 0
/-- Transfers attributed to partition p take its slots; what finds none takes those of the next tick first (15 R411, R417, 01 R32). -/
def State.memUse (s : State) (p k : Nat) : State :=
  let s := s.count (0x260 + p) 1 k
  if s.memReserved p then
    let left := smGet (fun _ => 0) s.part.memLeft p
    { s with part := { s.part with
      memLeft := smSet (fun _ => 0) s.part.memLeft p (left - k)
      memOwed := smSet (fun _ => 0) s.part.memOwed p (smGet (fun _ => 0) s.part.memOwed p + (k - left)) } }
  else s

/-- Eligible ways of an L3 fill for partition p (07 R190). -/
def State.l3Ways (s : State) (d : Fin 4) (p set : Nat) : List Nat :=
  let base := if s.sealed p then (List.range 16).filter fun w => (s.l3Mask p d.val).testBit w else List.range 16
  let c := s.l3Of d
  let free := base.filter fun w => let e := c.pos (set * 16 + w); !(e.st ≠ .i && s.l3Held d e.line)
  if free.isEmpty then base else free

/-- An L2 position is emptied, its line out of the L1s first; a modified line enters the victim buffer (07 R183, R197). `fill` says
that a fill of this L2 takes the place. -/
def State.l2Evict (s : State) (n : Tri) (k : Nat) (toMem fill : Bool) : State :=
  let e := (s.lp n).l2.pos k
  if e.st = .i then s
  else
    let s := s.updLp n fun l => { l.dropL1 e.line with l2 := l.l2.put k CLine.empty }
    if e.st = .m then s.vbPush n (e.victim toMem) fill else s

/-- A triad of a die loses a line that its L3 evicts; what its victim buffer holds of it goes to memory from then on (07 R196, R197). -/
def State.l3Recall (s : State) (n : Tri) (line : Nat) : State :=
  let s := s.updLp n fun l => { l with vbuf := l.vbuf.map fun v => if v.line = line then { v with toMem := true } else v }
  match (s.lp n).l2Find line with
  | some k => (s.lockLost n line).l2Evict n k true false
  | none => s

/-- An L3 position is evicted: the line leaves the L2s of the die first; its own modified data goes to memory unless newer data of a
victim buffer will (07 R183, R197). -/
def State.l3Evict (s : State) (d : Fin 4) (k : Nat) : State :=
  let e := (s.l3Of d).pos k
  if e.st = .i then s
  else
    let s := (dieTri d).foldl (fun s n => if (s.lp n).hasLine e.line then s.l3Recall n e.line else s) s
    let newer := (dieTri d).any fun n => ((s.lp n).vbMod e.line).isSome
    let s := if e.st = .m && !newer then s.memPutLine e.line e.data e.poison else s
    s.updL3 d fun c => c.put k CLine.empty

/-- State of a line in the L3 of a die. -/
def State.l3St (s : State) (d : Fin 4) (line : Nat) : Coh :=
  match (s.l3Of d).find l3Sets line with
  | some k => ((s.l3Of d).pos k).st
  | none => .i

/-- The L3 of die d holds the line, allocated for partition p if absent, in st or a stronger state; `hit` and `fill` say whether a hit
and a fill call touch (07 R184, R189). -/
def State.l3Fill (s : State) (d : Fin 4) (p line : Nat) (st : Coh) (hit fill : Bool) : State :=
  match (s.l3Of d).find l3Sets line with
  | some k => s.updL3 d fun c =>
      let e := c.pos k
      let c := if e.st = .s && st ≠ .s then c.put k { e with st := st } else c
      if hit then c.touch k else c
  | none =>
    let set := line % l3Sets
    let k := (s.l3Of d).victim set (s.l3Ways d p set)
    let s := s.memUse p (1 + b2n (((s.l3Of d).pos k).st = .m))
    let s := s.l3Evict d k
    s.updL3 d fun c =>
      let c := c.put k { CLine.empty with st := st, line := line }
      if fill then c.touch k else c

/-- Partition an LP's fills are attributed to: its PART.ID (15 R411). -/
def State.partOf (s : State) (n : Tri) : Nat := bits (s.lp n).arch.part 5 0

/-- Is the LP's partition Sealed (15 R415)? -/
def State.lpSealed (s : State) (n : Tri) : Bool := s.sealed (s.partOf n)

/-! ### The directory (07 R185, R186) -/

/-- A directory entry: the L3 state of the line and the L2s of the die that hold it, bit k for triad 8d + k. It duplicates the tags. -/
def State.dirEntry (s : State) (d : Fin 4) (line : Nat) : Coh × Nat :=
  (s.l3St d line, (dieTri d).foldl (fun m n => m + b2n ((s.lp n).hasLine line) * 2 ^ (n.val % 8)) 0)

/-- The L2s that an entry lists, but for the one that asks. -/
def State.dirList (s : State) (d : Fin 4) (line : Nat) (n : Tri) : List Tri :=
  (dieTri d).filter fun m => m ≠ n && (s.dirEntry d line).2.testBit (m.val % 8)

/-- What triad m holds of a line that another L2 asks for: its L2 gives the line up for ownership or keeps it shared, modified data
passing its victim buffer; a waiting entry whose write is not issued gives its data with the modified state (07 R186, R197, R199). -/
def State.snoop (s : State) (m : Tri) (line : Nat) (own toMem : Bool) : State × Option VbEnt :=
  let s := s.vbGuess m line
  let v := (s.lp m).vbuf.find? fun v => v.line = line && !v.issued
  let s := if v.isSome then s.updLp m fun l => { l with vbuf := l.vbuf.filter fun v => !(v.line = line && !v.issued) } else s
  match (s.lp m).l2Find line with
  | none => (s, v)
  | some k =>
    let e := (s.lp m).l2.pos k
    let s := if own then (s.lockLost m line).updLp m fun l => l.dropLine line else s.updLp m fun l => { l with l2 := sharePos l.l2 k }
    (if e.st = .m then s.vbPass m (e.victim toMem) else s, v)

/-- The L2s of a list answer; the last waiting entry given is kept. -/
def State.snoops (s : State) (ms : List Tri) (line : Nat) (own toMem : Bool) : State × Option VbEnt :=
  ms.foldl (fun st m =>
    let (s, v) := st.1.snoop m line own toMem
    (s, match v with | some v => some v | none => st.2)) (s, none)

/-- Another die gives a line up, or keeps it shared: modified data is written to memory in the same transaction (07 R186). A line given
with the modified state stays in no cache of the die. -/
def State.dieAsk (s : State) (d : Fin 4) (n : Tri) (line : Nat) (own : Bool) : State × Option VbEnt :=
  let (s, v) := s.snoops (s.dirList d line n) line own true
  let s := match v with | some v => s.memPutLine line v.data v.poison | none => s
  match (s.l3Of d).find l3Sets line with
  | none => (s, v)
  | some k =>
    let e := (s.l3Of d).pos k
    let s := if e.st = .m && v.isNone then s.memPutLine line e.data e.poison else s
    (s.updL3 d fun c => if own || v.isSome then c.put k CLine.empty else sharePos c k, v)

/-- A request that missed the L2 of triad n, or needs ownership there: the other L2s of the die, then the directory where the L3 does not
suffice; the line is then in the die's L3. The Bool says that the modified state comes with it (07 R185, R186, R199). -/
def State.dirAsk (s : State) (n : Tri) (line : Nat) (own hit fill : Bool) : State × Bool :=
  let d := dieOf n
  let (s, v) := s.snoops (s.dirList d line n) line own false
  let s := match v with | some v => s.l3Modify d line v.data v.poison v.pers | none => s
  let st := (s.dirEntry d line).1
  let enough := if own then decide (st = .e ∨ st = .m) else decide (st ≠ .i)
  let (s, w) := if enough then (s, none) else
    ((List.finRange 4).filter (· ≠ d)).foldl (fun st' d' =>
      let (s, w) := st'.1.dieAsk d' n line own
      (s, match w with | some w => some w | none => st'.2)) (s, none)
  let alone := (List.finRange 4).all fun d' => d' = d || s.l3St d' line = .i
  let s := s.l3Fill d (s.partOf n) line (if own || alone then .e else .s) hit fill
  match w with
  | some w => (s.l3Modify d line w.data w.poison w.pers, true)
  | none => (s, v.isSome)

/-! ### L2 fills -/

/-- Ways of TRD_L2_LOCK.WAYS, locked or not (07 R190). -/
def State.l2Ways (s : State) (n : Tri) (locked : Bool) : List Nat :=
  (List.range 16).filter fun w => s.flag (aTrdL2Lock n) w = locked

/-- Install a line in the L2 of triad n (07 R189, R190). -/
def State.l2Install (s : State) (n : Tri) (e : CLine) (lock touch : Bool) : State :=
  let set := e.line % l2Sets
  let k := (s.lp n).l2.victim set (s.l2Ways n lock)
  let s := s.l2Evict n k false true
  s.updLp n fun l =>
    let c := l.l2.put k e
    { l with l2 := if touch then c.touch k else c }

/-- A triad request for a line in its own victim buffer: the write is cancelled, or the line comes back with the pending-write mark (07
R199). -/
def State.vbRecall (s : State) (n : Tri) (line : Nat) (lock : Bool) : State :=
  if ((s.lp n).l2Find line).isSome then s
  else
    let s := s.vbGuess n line
    match (s.lp n).vbuf.find? fun v => v.line = line with
    | none => s
    | some v =>
      let s := s.l2Count n 5 1
      let s := if v.issued then s else s.updLp n fun l => { l with vbuf := l.vbuf.filter fun v => !(v.line = line && !v.issued) }
      s.l2Install n { CLine.empty with st := .m, line := line, data := v.data, poison := v.poison, pers := v.pers, pend := v.issued }
        lock true

/-! ### Miss registers (07 R191 to R195) -/

/-- The miss register of a line. -/
def Lp.missOf (l : Lp) (line : Nat) : Option MissReg := l.miss.find? fun m => m.line = line

/-- Does no other L2 of the module hold the line? -/
def State.soleL2 (s : State) (n : Tri) (line : Nat) : Bool := allTri.all fun m => m = n || ((s.lp m).l2Find line).isNone

/-- The state in which a fill installs a line (07 R185, R193, R199). -/
def State.fillSt (s : State) (n : Tri) (r : MissReg) : Coh :=
  let st := s.l3St (dieOf n) r.line
  if r.own then .m
  else if !s.soleL2 n r.line || st = .s then .s
  else if r.mod && st = .m then .m
  else .e

/-- The PERS mark of a line that an L3 holds modified (08 R220). -/
def State.l3Pers (s : State) (d : Fin 4) (line : Nat) : Bool :=
  match (s.l3Of d).find l3Sets line with
  | some k => let e := (s.l3Of d).pos k; e.st = .m && e.pers
  | none => false

/-- The L2 of triad n holds a line in M: its L3 holds it modified too, and the L1s drop it when a store takes it (07 R185, R187). -/
def State.l2Own (s : State) (n : Tri) (k line : Nat) : State :=
  let (d, q) := s.newest line
  let pers := s.l3Pers (dieOf n) line
  let s := s.l3Modify (dieOf n) line d q pers
  s.updLp n fun l =>
    { l.dropL1 line with l2 := (l.l2.put k { l.l2.pos k with st := .m, data := d, poison := q, pers := pers, stored := false }).touch k }

/-- A register's request leaves the L2 (07 R186, R192): DIRECTORY_REQUEST. -/
def State.regLeave (s : State) (n : Tri) (r : MissReg) : State × MissReg :=
  let fresh := !r.left
  let (s, m) := s.dirAsk n r.line r.own (fresh && !r.nt && !r.prefetch) (fresh && !r.nt)
  (s, { r with left := true, mod := r.mod || m })

/-- L1 fills that a request asks for. -/
def State.fillL1s (s : State) (n : Tri) (r : MissReg) : State :=
  let s := if r.l1i then s.fillL1 n r.line true else s
  if r.l1d then s.fillL1 n r.line false else s

/-- The reply to an L2 miss fills the line and frees the register: nothing is installed from memory that does not answer, and a prefetch
is dropped on poison (07 R191, R193, 10 R259). -/
def State.fillLine (s : State) (n : Tri) (r : MissReg) : State :=
  let s := s.updLp n fun l => { l with miss := l.miss.filter fun m => m.line ≠ r.line }
  if ((s.lp n).l2Find r.line).isSome || !s.memOk (128 * r.line) || (r.prefetch && (s.newest r.line).2 ≠ 0) then s
  else
    let (s, r) := s.regLeave n r
    let st := s.fillSt n r
    let (d, q) := if st = .m then s.newest r.line else (0, 0)
    let pers := s.l3Pers (dieOf n) r.line
    let s := if st = .m then s.l3Modify (dieOf n) r.line d q pers else s
    (s.l2Install n { CLine.empty with st := st, line := r.line, data := d, poison := q, pers := pers } r.lock (!r.nt)).fillL1s n r

/-- DIRECTORY_REQUEST: the request of a line's register leaves the L2. -/
def State.dirRequest (s : State) (n : Tri) (line : Nat) : State :=
  match (s.lp n).missOf line with
  | none => s
  | some r =>
    if r.left then s
    else
      let (s, r) := s.regLeave n r
      s.updLp n fun l => { l with miss := l.miss.map fun m => if m.line = line then r else m }

/-- A free register is taken for a miss. -/
def State.missTake (s : State) (n : Tri) (r : MissReg) : State :=
  (((s.l2Count n 2 1).l2Count n 4 (b2n r.prefetch)).l2Count n 9 (b2n r.lock)).updLp n fun l => { l with miss := l.miss ++ [r] }

/-- A request that misses the L2 (07 R191, R192): it merges into the register of its line, of which a read that has not left is promoted
to ownership; it takes a free register; or it waits, after eight secondary misses for the register of its line, else with MR_WAIT set. -/
def State.missAsk (s : State) (n : Tri) (r : MissReg) : State :=
  match (s.lp n).missOf r.line with
  | some m =>
    if m.secondary < 8 then (s.l2Count n 3 1).updLp n fun l => { l with miss := l.miss.map fun x => if x.line = r.line then
        { x with secondary := x.secondary + 1, own := x.own || (r.own && !x.left), l1i := x.l1i || r.l1i, l1d := x.l1d || r.l1d,
                 prefetch := x.prefetch && r.prefetch, nt := x.nt && r.nt }
      else x }
    else s.updLp n fun l => { l with missWait := l.missWait ++ [r] }
  | none =>
    if 48 ≤ (s.lp n).miss.length then
      (s.setFld (aTrdL2Status n) 0 0 1).updLp n fun l => { l with missWait := l.missWait ++ [r] }
    else s.missTake n r

/-- A waiting request is looked up again: it hits, or asks again (07 R191). -/
def State.missLook (s : State) (n : Tri) (r : MissReg) : State :=
  match (s.lp n).l2Find r.line with
  | some k => ((s.l2Count n 1 1).updLp n fun l => { l with l2 := l.l2.touch k }).fillL1s n r
  | none => s.missAsk n r

/-- A register is filled and freed, and the waiting requests are looked up again in their order. -/
def State.fill (s : State) (n : Tri) (r : MissReg) : State :=
  let s := s.fillLine n r
  let w := (s.lp n).missWait
  if w.isEmpty then s else w.foldl (fun s r => s.missLook n r) (s.updLp n fun l => { l with missWait := [] })

/-- The oldest register is filled. -/
def State.fillOldest (s : State) (n : Tri) : State :=
  match (s.lp n).miss.head? with
  | some r => s.fill n r
  | none => s

/-- The line that a store or a lock-fill asked for is filled: its own register, after those ahead of it while it waits for one. -/
def State.fillUntil (s : State) (n : Tri) (line : Nat) : Nat → State
  | 0 => s
  | k + 1 =>
    if ((s.lp n).l2Find line).isSome then s
    else match (s.lp n).missOf line with
      | some r => s.fill n r
      | none => (s.fillOldest n).fillUntil n line k

/-- A register for a line. -/
def MissReg.of (line : Nat) : MissReg :=
  { line := line, own := false, left := false, secondary := 0, prefetch := false, nt := false, lock := false, l1i := false, l1d := false }

/-- May a line's successor be prefetched for partition p: the enable bit and the 64 KiB rule (07 R193)? -/
def State.prefetchOk (s : State) (p line : Nat) : Bool := s.flag aHubPrefetchEn p && decide (line / 512 = (line + 1) / 512)

/-- Next-line prefetch after a demand miss of partition p (07 R193). -/
def State.prefetch (s : State) (n : Tri) (p line : Nat) : State :=
  let l := s.lp n
  let nx := line + 1
  if s.prefetchOk p line && !l.hasLine nx && (l.missOf nx).isNone && decide (l.miss.length + 1 + 8 ≤ 48) then
    s.missTake n { MissReg.of nx with prefetch := true }
  else s

/-- A demand request of a line that the L2 of triad n lacks, with the prefetch that a new miss triggers (07 R191, R193). -/
def State.demand (s : State) (n : Tri) (p : Nat) (r : MissReg) (triggers : Bool) : State :=
  let known := ((s.lp n).missOf r.line).isSome
  let s := s.missAsk n r
  if triggers && !known then s.prefetch n p r.line else s

/-- The line of a store is in the L2 at least shared: through its miss register, promoted if its request has not left (07 R192). -/
def State.ownFill (s : State) (n : Tri) (p line : Nat) : State :=
  let s := s.vbRecall n line false
  if ((s.lp n).l2Find line).isSome then s
  else
    let s := s.demand n p { MissReg.of line with own := true } true
    s.fillUntil n line ((s.lp n).missWait.length + 1)

/-- Triad n holds the line in M (07 R185, R187, R192, R233): the fill its store waits for, then an ownership request where the fill did not
bring it. p is the requester's partition for the prefetch enable. -/
def State.own (s : State) (n : Tri) (p line : Nat) : State :=
  let s := s.l2Count n 1 (b2n ((s.lp n).l2Find line).isSome)
  let s := s.ownFill n p line
  match (s.lp n).l2Find line with
  | none => s
  | some k =>
    if ((s.lp n).l2.pos k).st = .m then s.updLp n fun l => { l with l2 := l.l2.touch k }
    else (s.dirAsk n line true true true).1.l2Own n k line

/-- Poison mask after a write of the listed byte positions of a line (10 R529). -/
def poisonAfter (v2 : Bool) (mask : Nat) (pos : List Nat) : Nat :=
  if mask = 0 then 0
  else if v2 then (if (List.range 128).all pos.contains then 0 else mask)
  else (List.range 4).foldl (fun m g =>
    if (List.range 32).all fun i => pos.contains (32 * g + i) then m else m + b2n (mask.testBit g) * 2 ^ g) 0

/-- A cacheable store is performed by the L2 of triad n on lines it holds in M (09 R233, R242). -/
def State.l2Store (s : State) (n : Tri) (p : Nat) (bs : List (Nat × Byte)) (pers : Bool) : State :=
  (bs.map fun e => e.1 / 128).eraseDups.foldl (fun s line =>
    let s := (s.own n p line).markWatch line
    match (s.lp n).l2Find line with
    | none => s
    | some k => s.updLp n fun l =>
      let e := l.l2.pos k
      let mine := bs.filter fun b => b.1 / 128 = line
      let d := mine.foldl (fun d b => lineSet d (b.1 % 128) b.2) e.data
      let q := poisonAfter (s.poisonGran (128 * line) = 128) e.poison (mine.map fun b => b.1 % 128)
      { l with l2 := l.l2.put k { e with data := d, poison := q, stored := true, pers := e.pers || pers } }) s

/-! ### Reads (07 R184, R189) -/

/-- The L1I of a core that missed may prefetch the following line (04 R119, 07 R193). -/
def State.l1iNext (s : State) (n : Tri) (p line : Nat) : State :=
  if s.prefetchOk p line then
    let (k, s) := s.draw
    if Config.l1iPrefetch k then
      (if ((s.lp n).l2Find (line + 1)).isSome then s.fillL1 n (line + 1) true
       else if (s.lp n).hasLine (line + 1) || ((s.lp n).missOf (line + 1)).isSome || decide (40 ≤ (s.lp n).miss.length) then s
       else s.missAsk n { MissReg.of (line + 1) with prefetch := true, l1i := true })
    else s
  else s

/-- Cache work of a read by triad n of one line; the value itself is State.byte's (07 R184, R187, R189). A line that one core's L1 alone
lacks is refilled there from the L2. p is the requester's partition for the prefetch enable. -/
def State.touchRead (s : State) (n : Tri) (p line : Nat) (instr nt table : Bool) : State :=
  let lacking := if table then 3 else (s.lp n).lacking instr line
  let s := if nt || table then s else s.l1Count n line instr
  if lacking = 0 then s
  else if lacking = 1 then (if nt then s else s.fillL1 n line instr)
  else
    let s := s.vbRecall n line false
    let s := match (s.lp n).l2Find line with
      | some k =>
        let s := (s.l2Count n 1 1).updLp n fun l => { l with l2 := l.l2.touch k }
        if nt || table then s else s.fillL1 n line instr
      | none => s.demand n p { MissReg.of line with nt := nt, l1i := instr && !table, l1d := !instr && !nt && !table } (!nt && !table)
    if instr && !table then s.l1iNext n p line else s

/-! ### Reservations (15 R417) -/

/-- Does a fill of a line by triad n take a memory transfer: no cache holds it modified, and its L3 lacks it? Transfers are counted at
commands (DESIGN CHOICE, log entry 37). -/
def State.fillWaits (s : State) (n : Tri) (line : Nat) : Bool :=
  s.memStarved (s.partOf n) && s.l3St (dieOf n) line = .i && (s.modLine line).isNone

end Sys2Proof.Machine
end

