-- ==== Sys2Proof/Machine/Translate.lean ====
section
/-! DEFINITION. Address translation and storage protection (08), and the checks of an access in the order of 08 R222. -/

namespace Sys2Proof.Machine
open Sys2Proof

/-- Kinds of access (08 R216). -/
inductive AccKind where
  | load | store | rmw | fetch
  deriving DecidableEq, Repr

/-- Privilege levels in PL encoding (02 R39). -/
def plU : Nat := 0
/-- S. -/
def plS : Nat := 1
/-- M. -/
def plM : Nat := 3

/-- Current level of an LP. -/
def Arch.pl (a : Arch) : Nat := bits a.psw 1 0

/-- A translated byte address. -/
structure Xl where
  abs : Nat
  region : Region
  pers : Bool
  fill : XFill
  deriving DecidableEq, Repr

/-- Vector of a translation failure: fetch or data form (08 R222). -/
def vecTrans (k : AccKind) : Nat := if k = .fetch then 8 else 9
/-- Vector of a protection failure. -/
def vecProt (k : AccKind) : Nat := if k = .fetch then 10 else 11

/-! ### Stage 2 (08 R218 to R221) -/

/-- A valid PMT entry that is refused (08 R221). -/
def pmtRefused (e : Word) : Bool :=
  bits e 63 52 ≠ 0 || bits e 27 8 ≠ 0 || bits e 4 3 ≠ 0 || bits e 2 1 = 3 || (bit e 7 && bits e 2 1 ≠ 0) || bits e 51 40 = 0xFFF

/-- Absolute address of PMT entry idx of partition p. -/
def State.pmtAddr (s : State) (p idx : Nat) : Nat := s.fld (aHubPmt p) 51 16 * 65536 + 8 * idx

/-- Does partition p have increment idx (08 R222 step 5, code 0x20)? -/
def State.pmtIn (s : State) (p idx : Nat) : Bool :=
  decide (1 ≤ p) && decide (p ≤ 32) && s.flag (aHubPmt p) 63 && decide (idx ≤ s.fld (aHubPmt p) 15 0)

/-- Why a stage-2 step fails. -/
inductive S2Err where
  | code (c : Nat) (ctl : Option (Nat × Nat))
  | bus
  | poison
  deriving DecidableEq, Repr

/-- The PMT entry of a partition-real address: from a cache, or read from memory (08 R218, R221, R222). The Bool says that it
was read. -/
def State.pmtGet (s : State) (cached : Option Word) (p idx : Nat) : Except S2Err (Word × Bool) :=
  if !s.pmtIn p idx then .error (.code 0x20 none)
  else match cached with
    | some e => .ok (e, false)
    | none =>
      let a := s.pmtAddr p idx
      if !s.memOk a then .error .bus
      else if s.badByte a then .error .poison
      else
        let e := w64 (s.num a 8)
        if !bit e 0 then .error (.code 0x21 none)
        else if pmtRefused e then .error (.code 0x22 (if bits e 51 40 = 0xFFF then some (p, a) else none))
        else .ok (e, true)

/-- The line of memory that State.pmtGet reads, if it reads one (08 R212, R218). -/
def State.pmtLine (s : State) (cached : Option Word) (p idx : Nat) : List Nat :=
  if s.pmtIn p idx && cached.isNone && s.memOk (s.pmtAddr p idx) then [s.pmtAddr p idx / 128] else []

/-- A translation's fault, with the table lines its walk has read and the cycles it took (08 R212, R226). -/
def XFill.fault (f : XFill) (e : Flt) : Flt := { e with tables := f.tables, cycles := 8 }

/-- Absolute address a PMT entry gives. -/
def pmtAbs (e : Word) (pra : Nat) : Nat := bits e 51 28 * 2 ^ 28 + pra % 2 ^ 28

/-- Region a PMT entry's TYPE gives (08 R219). -/
def pmtRegion (e : Word) : Region :=
  if bits e 2 1 = 0 then .mem else if bits e 2 1 = 1 then .devPosted else .devStrict

/-- Stage-2 fault of an access (08 R223). -/
def s2Flt (err : S2Err) (tbl : Bool) (va : Word) (pra : Nat) : Flt :=
  match err with
  | .code c ctl => { vec := 12, detail := c + (if tbl then 0x80 else 0), faddr := va, pra := pra, s2ctl := ctl }
  | .bus => { vec := 13, detail := 0, faddr := va }
  | .poison => { vec := 15, detail := 0, faddr := va }

/-! ### Stage 1 (08 R211 to R217) -/

/-- A valid stage-1 entry that is malformed (08 R215). -/
def s1Malformed (level : Nat) (e : Word) : Bool :=
  if bit e 1 then
    level = 0 || bits e 59 44 ≠ 0 || bits e 15 11 ≠ 0 || bit e 7 || bit e 2
      || (level = 2 && bits e 23 16 ≠ 0) || (level = 1 && bits e 31 16 ≠ 0) || (bit e 4 && !bit e 3) || bits e 10 9 = 3
  else level = 3 || bits e 63 44 ≠ 0 || bits e 10 2 ≠ 0

/-- log2 of the page size of a leaf (08 R211). -/
def leafLg (level : Nat) : Nat := if level = 1 then 32 else if level = 2 then 24 else 16

/-- Index bits of a virtual address at a level. -/
def s1Index (level : Nat) (va : Word) : Nat :=
  if level = 0 then bits va 63 40 else if level = 1 then bits va 39 32 else if level = 2 then bits va 31 24 else bits va 23 16

/-- A table path: the address bits above the entry's reach. -/
def s1Prefix (level : Nat) (va : Word) : Nat := va.toNat >>> (40 - 8 * level)

/-- Context of a walk. -/
structure WalkCtx where
  part : Nat
  asid : Nat
  kind : AccKind
  va : Word
  cache : List WalkEnt

/-- A PMT entry held in the walk cache. -/
def WalkCtx.pmt (c : WalkCtx) (idx : Nat) : Option Word :=
  c.cache.findSome? fun e => match e with
    | .pmt p i w => if p = c.part ∧ i = idx then some w else none
    | .ptr .. => none
/-- A pointer entry held in the walk cache: the read of the table at `tab` that it supplies (log entry 6). -/
def WalkCtx.ptr (c : WalkCtx) (level tab : Nat) : Option Word :=
  c.cache.findSome? fun e => match e with
    | .ptr p a l t x w => if p = c.part ∧ a = c.asid ∧ l = level ∧ t = tab ∧ x = s1Prefix level c.va then some w else none
    | .pmt .. => none

/-- One level of the walk: the entry of the table at partition-real `tab` (08 R212, R222 step 3). -/
def State.s1Read (s : State) (c : WalkCtx) (level tab : Nat) (f : XFill) : Except Flt (Word × XFill) :=
  match c.ptr level tab with
  | some e => .ok (e, f)
  | none =>
    let pra := tab + 8 * s1Index level c.va
    let idx := pra / 2 ^ 28
    let f := { f with tables := s.pmtLine (c.pmt idx) c.part idx ++ f.tables }
    match s.pmtGet (c.pmt idx) c.part idx with
    | .error err => .error (f.fault (s2Flt err true c.va pra))
    | .ok (pe, fresh) =>
      if bits pe 2 1 ≠ 0 then .error (f.fault { vec := 12, detail := 0xA5, faddr := c.va, pra := pra })
      else
        let a := pmtAbs pe pra
        if !s.memOk a then .error (f.fault { vec := 13, detail := 0, faddr := c.va })
        else
          let f := { f with tables := (a / 128) :: f.tables, walk := if fresh then .pmt c.part idx pe :: f.walk else f.walk }
          let e := w64 (s.num a 8)
          if s.badByte a then .error (f.fault { vec := 15, detail := 0, faddr := c.va })
          else if !bit e 0 then .error (f.fault { vec := vecTrans c.kind, detail := 2 + level, faddr := c.va })
          else if s1Malformed level e then .error (f.fault { vec := vecTrans c.kind, detail := 0xA + level, faddr := c.va })
          else .ok (e, if bit e 1 then f else { f with walk := .ptr c.part c.asid level tab (s1Prefix level c.va) e :: f.walk })

/-- Walk from a level down; fuel is the number of levels left. Answers the leaf and its level. -/
def State.s1Walk (s : State) (c : WalkCtx) : Nat → Nat → Nat → XFill → Except Flt (Word × Nat × XFill)
  | 0, _, _, f => .error (f.fault { vec := vecTrans c.kind, detail := 0xD, faddr := c.va })
  | k + 1, level, tab, f =>
    match s.s1Read c level tab f with
    | .error e => .error e
    | .ok (e, f) => if bit e 1 then .ok (e, level, f) else s.s1Walk c k (level + 1) (bits e 43 11 * 2048) f

/-- Leaf privilege, then R/W/X, then key (08 R216, R217, R222 step 4): the code of the failure. -/
def s1Check (a : Arch) (pl : Nat) (k : AccKind) (leaf : Word) : Option Nat :=
  let u := bit leaf 6
  if pl = plU && !u then some 0x12
  else if pl = plS && u && (k = .fetch || !bit a.s1cfg 1) then some 0x11
  else if (match k with
      | .load => !bit leaf 3
      | .store => !bit leaf 4
      | .rmw => !bit leaf 3 || !bit leaf 4
      | .fetch => !bit leaf 5) then some 0x10
  else
    let key := bits leaf 63 60
    let scope := bits leaf 10 9
    let covered := match k with
      | .store | .rmw => true
      | .load => decide (1 ≤ scope)
      | .fetch => decide (2 ≤ scope)
    if key = bits a.psw 31 28 || key = 0xF || (pl = plS && bit a.s1cfg 2) || !covered then none else some 0x13

/-- Final stage-2 permissions (08 R220, R222 step 5). -/
def s2Perm (k : AccKind) (pe : Word) : Option Nat :=
  if (k = .store || k = .rmw) && !bit pe 5 then some 0x23
  else if k = .fetch && !bit pe 6 then some 0x24
  else none

/-- Does a TLB entry match an access at level pl (08 R225)? Entries of level class M match only at M. -/
def TlbEnt.hits (e : TlbEnt) (a : Arch) (pl part : Nat) (va : Word) : Bool :=
  e.mcl = decide (pl = plM) && e.va >>> e.lg = va.toNat >>> e.lg
    && (e.mcl || (e.part = part && e.en = bit a.s1cfg 0 && (!e.en || e.g || e.asid = bits a.psw 47 32)))

/-- The entry that serves an access, with its cycles (08 R224, R226). The L1 TLBs of the three cores are filled alike; the lead's
decides. -/
def Lp.tlbFind (l : Lp) (pl part : Nat) (k : AccKind) (va : Word) : Option (TlbEnt × Nat) :=
  match (if k = .fetch then l.lead.tlbI else l.lead.tlbD).find? fun e => e.hits l.arch pl part va with
  | some e => some (e, 0)
  | none => (l.tlb2.find? fun e => e.hits l.arch pl part va).map fun e => (e, 8)

/-- The entry of level class M for an address: an identity entry of 64 KiB that carries partition 0 (08 R225). -/
def mEntry (va : Word) : TlbEnt :=
  let base := va.toNat / 65536 * 65536
  { part := 0, asid := 0, g := false, en := false, mcl := true, va := base, lg := 16, leaf := 0, pra := base, pmt := 0 }

/-- What a translation at M changes: nothing where an L1 TLB has the entry (08 R225, R226). -/
def Lp.mFill (l : Lp) (k : AccKind) (va : Word) : XFill :=
  match l.tlbFind plM 0 k va with
  | some (e, cyc) => { tlb := if cyc = 0 then none else some e, cycles := cyc }
  | none => { tlb := some (mEntry va), cycles := 8 }

/-- Steps 4 to 6 of 08 R222 on a leaf (none while EN = 0) and PMT entry. -/
def finishXlat (a : Arch) (pl : Nat) (k : AccKind) (va : Word) (en : Bool) (leaf : Word) (pra : Nat) (pe : Word) (f : XFill) :
    Except Flt Xl :=
  let bad := fun (e : Flt) => Except.error { e with tables := f.tables, cycles := f.cycles }
  match (if en then s1Check a pl k leaf else none) with
  | some c => bad { vec := vecProt k, detail := c, faddr := va }
  | none =>
    match s2Perm k pe with
    | some c => bad { vec := 12, detail := c, faddr := va, pra := pra }
    | none =>
      if k = .fetch && bits pe 2 1 ≠ 0 then bad { vec := 10, detail := 0x14, faddr := va }
      else .ok { abs := pmtAbs pe pra, region := pmtRegion pe, pers := bit pe 7, fill := f }

/-- Translate one address at level pl for the LP, with its S1CFG, S1ROOT, PSW and PART (08 R209, R222 steps 2 to 6). -/
def State.xlat (s : State) (n : Tri) (pl : Nat) (k : AccKind) (va : Word) : Except Flt Xl :=
  let l := s.lp n
  let a := l.arch
  if pl = plM then
    if bits va 63 52 ≠ 0 then .error { vec := vecTrans k, detail := 1, faddr := va }
    else
      let abs := va.toNat
      let r : Region := if s.isMain abs then .mem else if isCtl abs then .ctl else .devStrict
      if k = .fetch && r ≠ .mem then .error { vec := 10, detail := 0x14, faddr := va }
      else .ok { abs := abs, region := r, pers := false, fill := l.mFill k va }
  else
    let part := bits a.part 5 0
    let en := bit a.s1cfg 0
    let asid := bits a.psw 47 32
    if (!en && bits va 63 44 ≠ 0) || (en && bits va 63 40 ≥ 2 ^ bits a.s1root 4 0) then
      .error { vec := vecTrans k, detail := 1, faddr := va }
    else
      match l.tlbFind pl part k va with
      | some (e, cyc) =>
        finishXlat a pl k va en e.leaf (e.pra + va.toNat % 2 ^ e.lg) e.pmt { tlb := if cyc = 0 then none else some e, cycles := cyc }
      | none =>
        let c : WalkCtx := { part := part, asid := asid, kind := k, va := va, cache := l.walk }
        let step1 : Except Flt (Word × Nat × XFill) :=
          if en then s.s1Walk c 4 0 (bits a.s1root 43 11 * 2048) {} else .ok (0, 3, {})
        match step1 with
        | .error e => .error e
        | .ok (leaf, level, f) =>
          let lg1 := if en then leafLg level else 16
          let pra := if en then bits leaf 43 16 * 65536 + va.toNat % 2 ^ lg1 else va.toNat
          match (if en then s1Check a pl k leaf else none) with
          | some code => .error (f.fault { vec := vecProt k, detail := code, faddr := va })
          | none =>
            let f := { f with tables := s.pmtLine (c.pmt (pra / 2 ^ 28)) part (pra / 2 ^ 28) ++ f.tables }
            match s.pmtGet (c.pmt (pra / 2 ^ 28)) part (pra / 2 ^ 28) with
            | .error err => .error (f.fault (s2Flt err false va pra))
            | .ok (pe, fresh) =>
              let lg := min lg1 28
              let f := { f with
                cycles := 8
                walk := if fresh then .pmt part (pra / 2 ^ 28) pe :: f.walk else f.walk
                tlb := some { part := part, asid := asid, g := bit leaf 8, en := en, va := va.toNat >>> lg <<< lg, lg := lg,
                              leaf := leaf, pra := pra >>> lg <<< lg, pmt := pe } }
              finishXlat a pl k va en leaf pra pe f

/-! ### Filling the translation caches (08 R224) -/

/-- A list of bounded length: a new entry first; a full list gives up an entry that the spec leaves open. -/
def cachePut {α : Type} (cap free : Nat) (l : List α) (e : α) : List α :=
  if l.length < cap then e :: l else e :: l.eraseIdx (Config.tlbVictim free % l.length)

/-- The second-level TLB: 8 ways in each of 512 sets indexed by page number of the entry's size (08 R224). -/
def tlb2Put (free : Nat) (l : List TlbEnt) (e : TlbEnt) : List TlbEnt :=
  let same := fun x : TlbEnt => x.va / 2 ^ x.lg % 512 = e.va / 2 ^ e.lg % 512
  let mine := l.filter fun x => decide (same x)
  let rest := l.filter fun x => !decide (same x)
  if l.contains e then l else rest ++ cachePut 8 free mine e

/-- Table lines that a walk has read go through the L2 (07 R184, 08 R212). -/
def State.walkLines (s : State) (n : Tri) (tables : List Nat) : State :=
  tables.reverse.foldl (fun s line => s.touchRead n (s.partOf n) line false false true) s

/-- An L1 TLB gains an entry it does not hold. -/
def tlb1Put (free : Nat) (l : List TlbEnt) (e : TlbEnt) : List TlbEnt := if l.contains e then l else cachePut 64 free l e

/-- The translation caches after a translation; its table reads go through the L2 (07 R184). -/
def State.xfill (s : State) (n : Tri) (instr : Bool) (f : XFill) : State :=
  let s := (s.count n.val 7 (b2n (f.tlb.isSome || !f.tables.isEmpty))).count n.val 8 (b2n !f.tables.isEmpty)
  let (k, s) := match f.tlb with | none => (0, s) | some _ => s.draw
  let s := s.updLp n fun l =>
    let l := match f.tlb with
      | none => l
      | some e =>
        let l := l.cores fun c => if instr then { c with tlbI := tlb1Put k c.tlbI e } else { c with tlbD := tlb1Put k c.tlbD e }
        { l with tlb2 := tlb2Put k l.tlb2 e }
    { l with walk := f.walk.foldl (fun w e => if w.contains e then w else cachePut 256 k w e) l.walk
             cycles := l.cycles + f.cycles }
  s.walkLines n f.tables

/-- What a failed translation leaves: the table lines it read, its cycles, and the report of a PMT entry that names the control space (08
R212, R221, R226). -/
def State.fltWork (s : State) (n : Tri) (f : Flt) : State :=
  let s := match f.s2ctl with
    | some (p, a) => s.raise { src := 0x4C4, info0 := a, part := p }
    | none => s
  let s := if f.cycles = 0 then s else s.updLp n fun l => { l with cycles := l.cycles + f.cycles }
  s.walkLines n f.tables

/-! ### One whole access (08 R222) -/

/-- What the checks need to know of an access. -/
structure AccReq where
  kind : AccKind
  va : Word
  size : Nat
  /-- Alignment the instruction itself asks for (09 R240): 1, 8 or 16. -/
  align : Nat := 1
  atomic : Bool := false
  /-- A byte of a long instruction's unit (09 R240). -/
  long : Bool := false

/-! ### Windows of the PCIe root ports (12 R336, R338) -/

/-- Root ports that the division in force of a port forms. -/
def rootFormed (division r : Nat) : Bool := decide (r < 2 ^ division)

/-- Register of a root port's Type 1 header. -/
def State.rootCfg (s : State) (n r reg : Nat) : Word := w64 (smGet (fun _ => 0) s.pci.cfg (1024 * (4 * n + r) + reg))

/-- Base and limit that a root port's header gives for its prefetchable window, in bytes; the layout of the header and its
enable bit are those of the PCI Express specification that 12 R336 names (log entry 11). -/
def State.rootWindow (s : State) (n r : Nat) : Nat × Nat :=
  let w := s.rootCfg n r 9
  (bits (s.rootCfg n r 10) 31 0 * 2 ^ 32 + bits w 15 4 * 2 ^ 20, bits (s.rootCfg n r 11) 31 0 * 2 ^ 32 + bits w 31 20 * 2 ^ 20 + 0xFFFFF)

/-- The root port that claims an absolute address: its window of 16 TiB and its base and limit registers (12 R338). -/
def State.devClaimedBy (s : State) (a : Nat) : Option (Nat × Nat) :=
  if a < 0xC000000000000 ∨ 0xC000000000000 + 4 * 0x100000000000 ≤ a then none
  else
    let n := (a - 0xC000000000000) / 0x100000000000
    ((List.range 4).find? fun r =>
      let (lo, hi) := s.rootWindow n r
      rootFormed (smGet (fun _ => 0) s.pci.division n) r && bit (s.rootCfg n r 1) 1 && decide (lo ≤ a) && decide (a ≤ hi)).map
      fun r => (n, r)

/-- Is an absolute address claimed by a device (08 R222 step 7)? -/
def State.devClaimed (s : State) (a : Nat) : Bool := (s.devClaimedBy a).isSome

/-- Does every byte of a range of addresses lie in memory that answers? Links interleave at 4 KiB (10 R260). -/
def State.memAll (s : State) (a n : Nat) : Bool :=
  (List.range ((a % 4096 + n + 4095) / 4096)).all fun i => s.memOk (max a ((a / 4096 + i) * 4096))

/-- Steps 6 and 7 of 08 R222, and 01 R18 for the control space, for the `len` bytes of the access that lie in one page. -/
def State.checkRegion (s : State) (r : AccReq) (x : Xl) (len : Nat) : Option Flt :=
  match x.region with
  | .ctl =>
    if len ≠ 8 || r.size ≠ 8 || x.abs % 8 ≠ 0 || r.atomic || r.long || (regDesc x.abs).isNone then
      some { vec := 13, detail := 0, faddr := r.va } else none
  | .mem => if s.memAll x.abs len then none else some { vec := 13, detail := 0, faddr := r.va }
  | _ =>
    if r.atomic || r.long then some { vec := 13, detail := 0, faddr := r.va }
    else if r.va.toNat % r.size ≠ 0 || len ≠ r.size then some { vec := 4, detail := 0, faddr := r.va }
    else if isCtl x.abs || !s.devClaimed x.abs then some { vec := 13, detail := 0, faddr := r.va }
    else none

/-- Is the address at M in the control space? Such an access is checked by 01 R18 alone (09 R240). -/
def atCtl (pl : Nat) (va : Word) : Bool := pl = plM && bits va 63 52 = 0 && isCtl va.toNat

/-- Translation and region check of the part of an access that lies in one page. -/
def State.pageCheck (s : State) (n : Tri) (pl : Nat) (r : AccReq) (len : Nat) : Except Flt Xl :=
  match s.xlat n pl r.kind r.va with
  | .error e => .error e
  | .ok x => match s.checkRegion r x len with | some e => .error { e with tables := x.fill.tables, cycles := x.fill.cycles } | none => .ok x

/-- The checks of one access in the order of 08 R222; an access that crosses 64 KiB checks both pages, the lower one first (09
R241). -/
def State.access (s : State) (n : Tri) (pl : Nat) (r : AccReq) : Except Flt Access :=
  if r.va.toNat % r.align ≠ 0 && !atCtl pl r.va then .error { vec := 4, detail := 0, faddr := r.va }
  else
    let lo := 65536 - r.va.toNat % 65536
    let cross := if r.va.toNat % 128 + r.size > 128 then 2 else 0
    match s.pageCheck n pl r (min r.size lo) with
    | .error e => .error e
    | .ok x =>
      if r.size ≤ lo then
        .ok { region := x.region, addrs := (List.range r.size).map fun i => x.abs + i, pers := x.pers, fills := [x.fill],
              cycles := if x.region = .mem then cross else 0 }
      else
        match s.pageCheck n pl { r with va := r.va + w64 lo } (r.size - lo) with
        | .error e => .error { e with tables := e.tables ++ x.fill.tables, cycles := e.cycles + x.fill.cycles }
        | .ok y =>
          .ok { region := x.region, addrs := (List.range lo).map (fun i => x.abs + i) ++ (List.range (r.size - lo)).map fun i => y.abs + i
                pers := x.pers || y.pers, fills := [x.fill, y.fill], cycles := cross }

/-- Fills of an access. -/
def State.applyFills (s : State) (n : Tri) (a : Access) (instr : Bool) : State :=
  a.fills.foldl (fun s f => s.xfill n instr f) s

/-- What a check of a data access leaves, passed or failed (08 R212, R226). -/
def State.checkWork (s : State) (n : Tri) (r : Except Flt Access) : State :=
  match r with
  | .ok a => s.applyFills n a false
  | .error f => s.fltWork n f

/-- Checks in order up to the first that fails, with what each leaves. -/
def State.checkAll (s : State) (n : Tri) : List (Except Flt Access) → State
  | [] => s
  | .ok a :: r => (s.applyFills n a false).checkAll n r
  | .error f :: _ => s.fltWork n f

end Sys2Proof.Machine
end

