-- ==== Sys2Proof/Machine/Hub.lean ====
section
/-! DEFINITION. What the units on the hub share: tick-counted intervals (01 R31), transfers of the hub for a partition (08 R231,
07 R184), counters (20 R501), and access to the units' parts of the state. -/

namespace Sys2Proof.Machine
open Sys2Proof

/-! ### Intervals -/

/-- An interval started between boundaries. -/
def Ival.start (n : Nat) : Ival := { ticks := max 1 n, due := none }

/-- An interval at a boundary: the first boundary fixes its end, a later one past it expires it (01 R31). -/
def Ival.tick (tod period : Nat) (i : Ival) : Option Ival :=
  match i.due with
  | none => some { i with due := some (tod + i.ticks * period) }
  | some d => if d ≤ tod then none else some i

/-- Would the interval expire at a boundary with this TOD? -/
def Ival.ends (tod : Nat) (i : Ival) : Bool := match i.due with | some d => decide (d ≤ tod) | none => false

/-- The TOD counter (18 R458). -/
def State.tod (s : State) : Nat := s.pwr.tod

/-! ### Power domains (18 R471 to R475) -/

/-- STATE of a domain: 0 ON, 1 C1, 2 C2, 3 OFF. -/
def State.domState (s : State) (d : Nat) : Nat := s.fld (aPwrDom d) 1 0
/-- Is gate b of CLK_GATE open (18 R468)? -/
def State.gateOpen (s : State) (b : Nat) : Bool := s.flag (aClkGate 0) b
/-- Does the clock behind gate b run: open, or its closure deferred (18 R468, R470)? -/
def State.gateRuns (s : State) (b : Nat) : Bool := s.gateOpen b || s.flag (aClkGate 1) b
/-- Is a domain neither commanded OFF nor absent? -/
def State.domUsable (s : State) (d : Nat) : Bool := !s.flag (aPwrDom d) 63 && !smGet (fun _ => false) s.pwr.absent d
/-- TRD_SPARE shows the spares of the die; the die's first triad holds it (06). -/
def spareReg (n : Tri) : Nat := aTrdSpare (8 * (n.val / 8))

/-- Domains of the spares attached to triad n. -/
def State.attached (s : State) (n : Tri) : List Nat :=
  let r := spareReg n
  (if s.fld r 7 5 = 2 && s.fld r 2 0 = n.val % 8 then [32 + 2 * (n.val / 8)] else [])
    ++ if s.fld r 15 13 = 2 && s.fld r 10 8 = n.val % 8 then [33 + 2 * (n.val / 8)] else []

/-- Set STATE of a domain; an attached spare follows its triad (18 R473). -/
def State.setDom (s : State) (d st : Nat) : State :=
  (d :: if d < 32 then s.attached (triOf d) else []).foldl (fun s e => s.setFld (aPwrDom e) 1 0 st) s

/-- A domain in an auto state is ON again (18 R475). -/
def State.wakeDom (s : State) (d : Nat) : State :=
  if s.domState d = 0 || !s.domUsable d then s
  else
    let s := (s.setDom d 0).addSat (aPwrDom d) 31 16 1
    ({ s with pwr := { s.pwr with wake := smSet (fun _ => none) s.pwr.wake d none } }).count (0x220 + d) 5 1

/-! ### Hub transfers (08 R231) -/

/-- PMT entry of an increment as the hub has it cached. -/
def State.hubCached (s : State) (p idx : Nat) : Option Word :=
  (s.hubPmt.find? fun h => h.part = p && h.idx = idx).map (·.entry)

/-- The hub keeps a PMT entry it has read. -/
def State.hubKeep (s : State) (p idx : Nat) (e : Word) : State :=
  { s with hubPmt := { part := p, idx := idx, entry := e } :: s.hubPmt.filter fun h => !(h.part = p && h.idx = idx) }

/-- Step 5 of 08 R222 for an increment, any TYPE. -/
def State.hubEntry (s : State) (p idx : Nat) (write : Bool) : Except S2Err (Word × Bool) :=
  match s.pmtGet (s.hubCached p idx) p idx with
  | .error e => .error e
  | .ok (e, read) =>
    match s2Perm (if write then .store else .load) e with
    | some c => .error (.code c none)
    | none => .ok (e, read)

/-- Does an increment translate as memory (08 R231)? -/
def State.hubInc (s : State) (p idx : Nat) (write : Bool) : Option Word :=
  match s.hubEntry p idx write with
  | .ok (e, _) => if bits e 2 1 = 0 then some e else none
  | .error _ => none

/-- Increments that a range touches. -/
def incsOf (pra n : Nat) : List Nat :=
  if n = 0 then [] else (List.range ((pra + n - 1) / 2 ^ 28 + 1 - pra / 2 ^ 28)).map fun i => pra / 2 ^ 28 + i

/-- A translation failure of the hub (08 R231, R221). -/
def State.hubFail (s : State) (p pra : Nat) (err : S2Err) : State :=
  let s := match err with
    | .code _ (some (q, a)) => s.raise { src := 0x4C4, info0 := a, part := q }
    | _ => s
  s.raise { src := 0x4C5, info0 := pra, part := p }

/-- A refused entry that names the control space, met by a check that is no transfer (08 R221). -/
def State.hubCtl (s : State) (p idx : Nat) (write : Bool) : State :=
  match s.hubEntry p idx write with
  | .error (.code _ (some (q, a))) => s.raise { src := 0x4C4, info0 := a, part := q }
  | _ => s

/-- Absolute address of n bytes of an increment for a transfer of the hub, or the status its operation completes with:
PARTITION_VIOLATION where it does not translate, INTERNAL_ERROR where the memory behind it does not answer. -/
def State.hubXlat (s : State) (p pra n : Nat) (write : Bool) : State × Except Nat Nat :=
  match s.hubEntry p (pra / 2 ^ 28) write with
  | .error .bus => (s, .error 0x7F)
  | .error .poison => (s, .error 0x7F)
  | .error e => (s.hubFail p pra e, .error 0x50)
  | .ok (e, read) =>
    let s := if read then s.hubKeep p (pra / 2 ^ 28) e else s
    if bits e 2 1 ≠ 0 then (s.hubFail p pra (.code 0x24 none), .error 0x50)
    else
      let a := pmtAbs e pra
      if s.memAll a n then (s, .ok a) else (s, .error 0x7F)

/-- A range cut at increment boundaries. -/
def pieces : Nat → Nat → Nat → List (Nat × Nat)
  | 0, _, _ => []
  | f + 1, pra, n =>
    if n = 0 then []
    else
      let k := min n (2 ^ 28 - pra % 2 ^ 28)
      (pra, k) :: pieces f (pra + k) (n - k)

/-- Absolute addresses of a range, byte by byte. -/
def State.hubAddrs (s : State) (p pra n : Nat) (write : Bool) : State × Except Nat (List Nat) :=
  (pieces (n / 2 ^ 28 + 2) pra n).foldl (fun (st : State × Except Nat (List Nat)) pc =>
    match st.2 with
    | .error e => (st.1, .error e)
    | .ok l =>
      match st.1.hubXlat p pc.1 pc.2 write with
      | (s, .error e) => (s, .error e)
      | (s, .ok a) => (s, .ok (l ++ (List.range pc.2).map fun i => a + i))) (s, .ok [])

/-- The hub reads n bytes for partition p; poisoned data completes with INTERNAL_ERROR (10 R262). -/
def State.hubRd (s : State) (p pra n : Nat) : State × Except Nat (List Byte) :=
  match s.hubAddrs p pra n false with
  | (s, .error e) => (s, .error e)
  | (s, .ok l) =>
    let s := s.memUse p ((l.map (· / 128)).eraseDups.length)
    if l.any s.badByte then (s, .error 0x7F) else (s, .ok (l.map s.byte))

/-- The hub writes bytes for partition p. -/
def State.hubWr (s : State) (p pra : Nat) (bs : List Byte) : State × Except Nat Unit :=
  match s.hubAddrs p pra bs.length true with
  | (s, .error e) => (s, .error e)
  | (s, .ok l) => ((s.memUse p ((l.map (· / 128)).eraseDups.length)).hubWrite (l.zip bs), .ok ())

/-- A write by the hub at absolute addresses. -/
def State.hubPut (s : State) (a : Nat) (bs : List Byte) : State := s.hubWrite (at_ a bs)

/-- Doublewords of a byte string. -/
def wordsOf (k : Nat) (bs : List Byte) : List Word := (List.range k).map fun i => w64 (leNat ((bs.drop (8 * i)).take 8))
/-- Bytes of doublewords. -/
def bytesOf (ws : List Word) : List Byte := ws.flatMap fun w => leBytes 8 w.toNat

/-! ### Parts of the state -/

/-- A ring. -/
def State.ring (s : State) (r : Nat) : Option Ring := smGet (fun _ => none) s.css.rings r
/-- Set or free a ring. -/
def State.setRing (s : State) (r : Nat) (x : Option Ring) : State :=
  { s with css := { s.css with rings := smSet (fun _ => none) s.css.rings r x } }
/-- A journal entry. -/
def State.jent (s : State) (p slot : Nat) : Option JEnt := smGet (fun _ => none) s.css.jent (65536 * p + slot)
/-- Set a journal entry. -/
def State.setJent (s : State) (p slot : Nat) (e : JEnt) : State :=
  { s with css := { s.css with jent := smSet (fun _ => none) s.css.jent (65536 * p + slot) (some e) } }
/-- A journal entry's new state is recorded in the accelerator (11 R308, R309). -/
def State.recordJ (s : State) (p slot : Nat) (e : JEnt) : State := (s.setJent p slot { e with dirty := true }).count 0x1D2 1 1
/-- Every journal entry with its partition and slot. -/
def State.jents (s : State) : List (Nat × Nat × JEnt) :=
  s.css.jent.filterMap fun e => e.2.map fun j => (e.1 / 65536, e.1 % 65536, j)
/-- A session. -/
def State.session (s : State) (i : Nat) : Option Session := smGet (fun _ => none) s.spn.sessions i
/-- Set or free a session. -/
def State.setSession (s : State) (i : Nat) (x : Option Session) : State :=
  { s with spn := { s.spn with sessions := smSet (fun _ => none) s.spn.sessions i x } }
/-- A Span port. -/
def State.port (s : State) (p : Nat) : SpanPort := smGet (fun _ => SpanPort.reset) s.spn.ports p
/-- Set a Span port. -/
def State.setPort (s : State) (p : Nat) (x : SpanPort) : State :=
  { s with spn := { s.spn with ports := smSet (fun _ => SpanPort.reset) s.spn.ports p x } }
/-- STATE of a Span port (12 R320). -/
def State.portState (s : State) (p : Nat) : Nat := s.fld (aSpnPortStatus p) 2 0
/-- Does port p carry frames: trained, and its group's clock running (12 R320, 18 R468)? -/
def State.portOk (s : State) (p : Nat) : Bool := (s.portState p = 2 || s.portState p = 3) && s.gateRuns (20 + p / 8)
/-- Path k of a session. -/
def Session.path (x : Session) (k : Nat) : Path := x.paths.getD k Path.none
/-- Path k changed. -/
def Session.setPath (x : Session) (k : Nat) (p : Path) : Session := { x with paths := x.paths.set k p }
/-- Has the module been released and is no save running? Units take up new work only then. -/
def State.running (s : State) : Bool :=
  s.kst.phase = .released && s.save.phase = .none && s.fld aClkStatus 2 0 ≠ 4 && !s.therm.stopped
/-- A transfer for partition p waits: for HUB_PMT_p after a warm return (11 R532), or for a memory slot of its partition (15 R417). -/
def State.deferredFor (s : State) (p : Nat) : Bool := s.css.deferred.testBit p || s.memStarved p

end Sys2Proof.Machine
end

