-- ==== Sys2Proof/Machine/SpanLink.lean ====
section
/-! DEFINITION. The link layer of the Span ports (12 R318 to R323) and the event queue (12 R324). -/

namespace Sys2Proof.Machine
open Sys2Proof

/-! ### Event queue (12 R324) -/

/-- Entries of the event queue. -/
def State.evqSize (s : State) : Nat := 2 ^ (s.fld aSpnEvqBase 3 0 + 4)

/-- Word 0 of an event. -/
def evWord0 (phase : Bool) (type path port session faddr : Nat) : Word :=
  putBits (putBits (putBits (putBits (putBits (putBits 0 63 63 (b2n phase)) 55 48 type) 47 45 path) 44 40 port) 35 24 session)
    23 0 faddr

/-- A Span event is written to the queue, or dropped with OVERFLOW; while VALID is 0 it is dropped (12 R324). -/
def State.spnEvent (s : State) (type path port session faddr : Nat) (word1 : Word) : State :=
  if !s.flag aSpnEvqBase 63 then s
  else
    let q := s.evqSize
    let e := s.fld aSpnEvqCtl 39 20
    if (e + 2 ^ 20 - s.fld aSpnEvqCtl 19 0) % 2 ^ 20 = q then s.setFld aSpnEvqCtl 63 63 1
    else
      let a := s.fld aSpnEvqBase 51 12 * 4096 + 16 * (e % q)
      let w0 := evWord0 (e / q % 2 = 0) type path port session faddr
      let s := s.hubPut (a + 8) (leBytes 8 word1.toNat)
      let s := s.hubPut a (leBytes 8 w0.toNat)
      let s := s.setFld aSpnEvqCtl 39 20 (e + 1)
      { s with spn := { s.spn with evWritten := true } }

/-! ### Frames (12 R321, R327, R328) -/

/-- PLEN: payload bytes. The command block of an OP frame is no payload. -/
def Frame.plen (f : Frame) : Nat := if f.stype = 0x10 then f.payload.length else 8 * f.words.length + f.payload.length

/-- The link words. -/
def Frame.linkWords (f : Frame) : List Nat :=
  [f.kind * 2 ^ 60 + f.vc * 2 ^ 58 + f.dst * 2 ^ 24 + f.src,
   f.lsn * 2 ^ 52 + f.ack * 2 ^ 40 + f.cr0 * 2 ^ 32 + f.cr1 * 2 ^ 24 + f.ctl * 2 ^ 16]

/-- The session header; the module sends no ANSWER, so DUP is 0. -/
def Frame.sessWords (f : Frame) : List Nat :=
  if f.kind = 0 then
    [f.stype * 2 ^ 56 + f.rev * 2 ^ 52 + b2n f.last * 2 ^ 51 + f.epoch, f.seq, f.frameNo * 2 ^ 32 + f.plen, 0]
  else []

/-- Every byte of a frame before its CRC. -/
def Frame.body (f : Frame) : List Byte := (f.linkWords ++ f.sessWords ++ f.words).flatMap (leBytes 8) ++ f.payload
/-- The bytes of a frame on the wire. -/
def Frame.bytes (f : Frame) : List Byte := f.body ++ leBytes 4 (crc32c f.body)
/-- Their number. -/
def Frame.size (f : Frame) : Nat := 20 + (if f.kind = 0 then 32 else 0) + 8 * f.words.length + f.payload.length

/-! ### Sending (12 R322) -/

/-- A frame leaves a port with the next LSN, the acknowledgement and the credits due; it is kept for replay and takes a credit of its VC. -/
def SpanPort.send (p : SpanPort) (src : Nat) (f : Frame) : SpanPort :=
  { p with
    nextLsn := (p.nextLsn + 1) % 4096
    unacked := p.unacked ++ [{ f with
      lsn := p.nextLsn, src := src, ack := (p.rxLsn + 4095) % 4096, cr0 := min p.ret0 255, cr1 := min p.ret1 255 }]
    ret0 := p.ret0 - 255
    ret1 := p.ret1 - 255
    credit0 := if f.vc = 0 then p.credit0 - 1 else p.credit0
    credit1 := if f.vc = 1 then p.credit1 - 1 else p.credit1 }

/-- A LINK_CTL frame leaves a port: REPLAY_REQ names the LSN expected, IDLE only acknowledges. It is not numbered. -/
def SpanPort.sendLink (p : SpanPort) (src ctl : Nat) : SpanPort :=
  { p with
    link := some { kind := 1, lsn := if ctl = 1 then p.rxLsn else 0, vc := 0, stype := 0, dst := 0, src := src
                   ack := (p.rxLsn + 4095) % 4096, cr0 := min p.ret0 255, cr1 := min p.ret1 255, ctl := ctl, session := 0, path := 0
                   seq := 0, frameNo := 0, last := false, words := [], payload := [], replays := 0 }
    ret0 := p.ret0 - 255
    ret1 := p.ret1 - 255 }

/-- Can a frame leave on a VC: a credit, and room among the 256 frames kept (12 R322)? -/
def SpanPort.can (p : SpanPort) (vc : Nat) : Bool :=
  decide (p.unacked.length < 256) && decide (0 < if vc = 0 then p.credit0 else p.credit1)

/-- Fabric address of a port. -/
def State.portAddr (s : State) (p : Nat) : Nat := s.fld (aSpnPortStatus p) 47 24

/-- A path has sent, or received, a frame in the tick (12 R332). -/
def State.markPath (s : State) (session path : Nat) (rx : Bool) : State :=
  match s.session session with
  | none => s
  | some x =>
    let p := x.path path
    s.setSession session (some (x.setPath path (if rx then { p with rx := true } else { p with tx := true })))

/-- Partition that a frame is made for: the session's, 0 for a FABRIC frame (15 R411). -/
def State.framePart (s : State) (f : Frame) : Nat :=
  if f.kind = 0 then (match s.session f.session with | some x => x.part | none => 0) else 0
/-- Has partition q no slot left on port p in this tick (15 R417)? -/
def State.spanStarved (s : State) (p q : Nat) : Bool := s.part.honSpan.testBit q && smGet (fun _ => 0) s.part.spanLeft (64 * q + p) = 0
/-- Frame bytes of partition q take its slots on port p; what finds none takes those of the next tick first. -/
def State.spanUse (s : State) (p q k : Nat) : State :=
  if s.part.honSpan.testBit q then
    let i := 64 * q + p
    let left := smGet (fun _ => 0) s.part.spanLeft i
    { s with part := { s.part with
      spanLeft := smSet (fun _ => 0) s.part.spanLeft i (left - k)
      spanOwed := smSet (fun _ => 0) s.part.spanOwed i (smGet (fun _ => 0) s.part.spanOwed i + (k - left)) } }
  else s

/-- May a frame leave port p now? -/
def State.mayLeave (s : State) (p : Nat) (f : Frame) : Bool :=
  s.portOk p && (s.port p).can f.vc && !s.spanStarved p (s.framePart f)

/-- A frame leaves port p. -/
def State.frameOut (s : State) (p : Nat) (f : Frame) : State :=
  let s := ((s.setPort p ((s.port p).send (s.portAddr p) f)).count (0x190 + p) 1 1).count (0x190 + p) 3 f.size
  let s := s.spanUse p (s.framePart f) f.size
  if f.kind = 0 then s.markPath f.session f.path false else s

/-- Control frames waiting at port p leave in order while they can; one that waits for its partition's slots holds up no other
partition. -/
def State.pumpCtl (s : State) (p : Nat) : Nat → State
  | 0 => s
  | k + 1 =>
    let q := s.port p
    match q.queue.find? fun f => s.mayLeave p f with
    | none => s
    | some f => ((s.setPort p { q with queue := q.queue.erase f }).frameOut p f).pumpCtl p k

/-- REV of a frame: 0 in LOGIN, else the granted revision (12 R327). -/
def Session.frameRev (x : Session) (stype : Nat) : Nat := if stype = 1 then 0 else x.rev

/-- A control frame is sent on port p (VC0); STYPE 0 is a FABRIC frame. -/
def State.sendCtl (s : State) (p stype dst session path : Nat) (words : List Nat) : State :=
  let x := s.session session
  let f : Frame := { kind := if stype = 0 then 2 else 0, lsn := 0, vc := 0, stype := stype, dst := dst, session := session, path := path
                     rev := if stype = 0 then 0 else (x.map (·.frameRev stype)).getD 0
                     epoch := if stype = 0 then 0 else (x.map (·.epoch)).getD 0
                     seq := 0, frameNo := 0, last := true, words := words, payload := [], replays := 0 }
  let q := s.port p
  (s.setPort p { q with queue := q.queue ++ [f] }).pumpCtl p (q.queue.length + 1)

/-- The FABRIC login of a trained port, with SPN_MODULE_NAME and the port number (12 R323). -/
def State.fabricLogin (s : State) (p : Nat) : State := s.sendCtl p 0 0xFFFFFE 0 0 [Config.moduleName, p]

/-! ### Acknowledgement and replay (12 R322) -/

/-- Frames up to ACK_LSN are acknowledged; an LSN that names no kept frame acknowledges none. -/
def ackFrames (fs : List Frame) (lsn : Nat) : List Frame :=
  if fs.any fun f => f.lsn = lsn then (fs.dropWhile fun f => f.lsn ≠ lsn).drop 1 else fs

/-- Frames from an LSN on, each replayed once more. -/
def replayFrames (fs : List Frame) (lsn : Nat) : List Frame :=
  (fs.takeWhile fun f => f.lsn ≠ lsn) ++ ((fs.dropWhile fun f => f.lsn ≠ lsn).map fun f => { f with replays := f.replays + 1 })

/-- Would a replay from the LSN replay a frame for the ninth time (12 R322)? -/
def replaySpent (fs : List Frame) (lsn : Nat) : Bool := (fs.dropWhile fun f => f.lsn ≠ lsn).any fun f => decide (8 ≤ f.replays)

/-- Number of frames a replay from the LSN sends. -/
def replayCount (fs : List Frame) (lsn : Nat) : Nat := (fs.dropWhile fun f => f.lsn ≠ lsn).length

/-- Set STATE of a port, with its PORT_STATE event (12 R324). -/
def State.setPortState (s : State) (p st : Nat) : State :=
  if s.portState p = st then s
  else (s.setFld (aSpnPortStatus p) 2 0 st).spnEvent 3 0 p 0 (s.fld (aSpnPortStatus p) 47 24) (w64 st)

end Sys2Proof.Machine
end

