-- ==== Sys2Proof/Machine/Channel.lean ====
section
/-! DEFINITION. The channel subsystem (11): doorbell lines, rings, submission and completion entries, the transaction journal, and
the sending, re-driving and settling of operations (12 R325 to R335). -/

namespace Sys2Proof.Machine
open Sys2Proof

/-! ### Submission entries (11 R294, R295) -/

/-- Doubleword i of an entry. -/
def subW (e : List Word) (i : Nat) : Word := e.getD i 0
/-- OPCODE. -/
def subOp (e : List Word) : Nat := bits (subW e 0) 7 0
/-- TAG. -/
def subTag (e : List Word) : Nat := bits (subW e 0) 63 32
/-- PARTNER. -/
def subPartner (e : List Word) : Nat := bits (subW e 0) 27 16
/-- FLAGS.TS. -/
def subTs (e : List Word) : Bool := bit (subW e 0) 10
/-- FLAGS.FENCE. -/
def subFence (e : List Word) : Bool := bit (subW e 0) 9
/-- FLAGS.LIST. -/
def subList (e : List Word) : Bool := bit (subW e 0) 8
/-- LENGTH. -/
def subLen (e : List Word) : Nat := bits (subW e 1) 63 32
/-- BUF. -/
def subBuf (e : List Word) : Nat := bits (subW e 3) 43 0
/-- LIST_COUNT. -/
def subCount (e : List Word) : Nat := bits (subW e 4) 15 0
/-- PARAM. -/
def subParam (e : List Word) : Nat := bits (subW e 5) 43 0

/-- READ, WRITE or CONTROL. -/
def opMove (op : Nat) : Bool := decide (1 ≤ op) && decide (op ≤ 3)
/-- COMPRESS, DECOMPRESS or CIPHER. -/
def opEngine (op : Nat) : Bool := op = 0x10 || op = 0x11 || op = 0x18

/-- Is the opcode available at a version with features (11 R291, R295)? -/
def opAvail (ver feat op : Nat) : Bool := op = 0 || (opMove op && decide (1 ≤ ver)) || (opEngine op && ver = 3 && feat.testBit 2)

/-- A mask if a condition holds. -/
def maskIf (b : Bool) (m : Nat) : Nat := if b then m else 0

/-- Bits of the eight doublewords that are not Reserved for an opcode and the features granted (11 R291, R294, R295). -/
def subMask (feat op : Nat) : List Nat :=
  let mv := opMove op
  let en := opEngine op
  [0xFFFFFFFF000000FF + maskIf mv 0x0FFF0000 + maskIf (feat.testBit 1) 0x400 + maskIf (feat.testBit 3) 0x200
      + maskIf (mv && feat.testBit 0) 0x100,
   maskIf (mv || en) 0xFFFFFFFF00000000 + maskIf mv 0xFFFF,
   maskIf mv 0xFFFFFFFFFFFFFFFF,
   maskIf mv 0xFFFFFFFFFFF,
   maskIf (mv && feat.testBit 0) 0xFFFF,
   maskIf en 0xFFFFFFFFFFF,
   maskIf (op = 3) 0xFFFFFFFFFFFFFFFF,
   maskIf (op = 3) 0xFFFFFFFFFFFFFFFF]

/-- Step 2 of 11 R297. -/
def subReservedOk (feat : Nat) (e : List Word) : Bool :=
  ((List.range 8).all fun i => (subW e i).toNat &&& (2 ^ 64 - 1 - (subMask feat (subOp e)).getD i 0) = 0)
    && (!subList e || (decide (subCount e ≤ 4096) && subBuf e % 16 = 0))

/-! ### Registers and watches -/

/-- Entries of a ring. -/
def Ring.size (q : Ring) : Nat := 2 ^ q.log2
/-- Difference of two counts modulo 2^24. -/
def m24 (a b : Nat) : Nat := (a % 2 ^ 24 + 2 ^ 24 - b % 2 ^ 24) % 2 ^ 24

/-- The watch of a doorbell line. -/
def State.watch (s : State) (n : Nat) : Option Watch := smGet (fun _ => none) s.css.watch n
/-- Set a watch; the start journal records the absolute line (11 R532, 19 R489). -/
def State.setWatch (s : State) (n : Nat) (w : Option Watch) : State :=
  { s with
    css := { s.css with watch := smSet (fun _ => none) s.css.watch n w }
    kst := { s.kst with rest := { s.kst.rest with
      dblLine := smSet (fun _ => 0) s.kst.rest.dblLine n (match w with | some w => w.line + 1 | none => 0) } } }
/-- The journal's note that an array of ring r lay in an increment with PERS = 0 (11 R532). -/
def State.setNoPers (s : State) (r : Nat) (b : Bool) : State :=
  { s with kst := { s.kst with rest := { s.kst.rest with
    ringNoPers := smSet (fun _ => false) s.kst.rest.ringNoPers r b } } }

/-- Every ring with its number. -/
def State.ringList (s : State) : List (Nat × Ring) := s.css.rings.filterMap fun e => e.2.map fun q => (e.1, q)
/-- Does a ring use doorbell line n? -/
def State.dblUsed (s : State) (n : Nat) : Bool := s.ringList.any fun e => e.2.dbl = n
/-- Does the partition have a ring? -/
def State.partRing (s : State) (p : Nat) : Bool := s.ringList.any fun e => e.2.part = p
/-- Real-time rings in existence. -/
def State.rtRings (s : State) : Nat := (s.ringList.filter fun e => e.2.rt).length
/-- Entries in PREPARED, ISSUED or ACKED. -/
def State.jrnlBusy (s : State) : Nat := (s.jents.filter fun e => decide (1 ≤ e.2.2.state) && decide (e.2.2.state ≤ 3)).length

/-- Absolute line and PERS of a partition-real address that may be a doorbell line (11 R283). -/
def State.dblLine (s : State) (p pra : Nat) : Option Nat :=
  match s.hubEntry p (pra / 2 ^ 28) true with
  | .ok (e, _) => if bits e 2 1 = 0 && bit e 7 then some (pmtAbs e pra / 128) else none
  | .error _ => none

/-- A write of CSS_DBL_n (11 R283, R285). -/
def State.cssDblWrite (s : State) (n : Nat) (v : Word) : State :=
  let a := aCssDbl n
  let old := s.reg a
  let refuse := s.setFld a 62 62 1
  let fields := w64 (v.toNat &&& 0x0003FFFFFFFFFF80)
  if bit v 63 then
    let p := bits v 49 44
    let pra := bits v 43 7 * 128
    if bit old 63 && s.dblUsed n then
      (if bits old 49 44 = p && bits old 43 7 * 128 = pra then s.setFld a 62 62 0 else refuse)
    else
      match s.dblLine p pra with
      | none => (s.hubCtl p (pra / 2 ^ 28) true).setFld a 62 62 1
      | some line =>
        if s.css.watch.any fun e => e.1 ≠ n && (match e.2 with | some w => w.line = line | none => false) then refuse
        else ((s.setReg a (putBits fields 63 63 1)).hubShare line).setWatch n (some { line := line, stale := false })
  else if s.dblUsed n then refuse
  else (s.setReg a fields).setWatch n none

/-- A write of CSS_JRNL_p (11 R306). -/
def State.cssJrnlWrite (s : State) (p : Nat) (v : Word) : State :=
  let a := aCssJrnl p
  let old := s.reg a
  let v := w64 (v.toNat &&& 0x800FFFFFFFFF001F)
  let bad := s.setFld aCssStatus 49 49 1
  if v = old then s
  else if s.partRing p then bad
  else if bit v 63 then
    let n := bits v 4 0
    let sum := ((List.range 32).map fun i =>
      let q := i + 1
      if q = p then 2 ^ n else if s.flag (aCssJrnl q) 63 then 2 ^ s.fld (aCssJrnl q) 4 0 else 0).foldl (· + ·) 0
    if n < 8 ∨ 16 < n ∨ 65536 < sum then bad
    else
      let s := s.setReg a v
      { s with css := { s.css with
        jent := s.css.jent.filter fun e => e.1 / 65536 ≠ p
        jnext := smSet (fun _ => 0) s.css.jnext p 0 } }
  else s.setReg a v

/-! ### Journal entries (11 R307 to R309) -/

/-- The 16 doublewords of a journal entry. -/
def jentWords (j : JEnt) : List Word :=
  [putBits (putBits (putBits (putBits 0 63 32 j.tag) 29 16 j.ring) 13 8 j.part) 2 0 j.state,
   w64 j.seq,
   putBits (putBits (putBits 0 63 32 j.epoch) 18 16 j.path) 11 0 j.session,
   putBits (putBits (putBits (putBits 0 40 40 (b2n j.unknown)) 39 16 j.cqCount) 15 8 j.redrives) 7 0 j.pstatus,
   w64 j.prepTod, w64 j.result, w64 j.aux, 0] ++ (List.range 8).map (subW j.sub)

/-- The entry that 16 doublewords describe, as a warm return's scan finds it (11 R315). -/
def jentOf (ws : List Word) : JEnt :=
  { tag := bits (subW ws 0) 63 32, ring := bits (subW ws 0) 29 16, part := bits (subW ws 0) 13 8, state := bits (subW ws 0) 2 0
    seq := (subW ws 1).toNat
    epoch := bits (subW ws 2) 63 32, path := bits (subW ws 2) 18 16, session := bits (subW ws 2) 11 0
    unknown := bit (subW ws 3) 40, cqCount := bits (subW ws 3) 39 16, redrives := bits (subW ws 3) 15 8
    pstatus := bits (subW ws 3) 7 0
    prepTod := (subW ws 4).toNat, result := (subW ws 5).toNat, aux := (subW ws 6).toNat
    sub := (List.range 8).map fun i => subW ws (8 + i)
    dirty := false, warm := true, resume := bits (subW ws 0) 2 0 = 2, sent := 0 }

/-- Absolute address of a journal slot. -/
def State.jrnlAddr (s : State) (p slot : Nat) : Nat := s.fld (aCssJrnl p) 51 16 * 65536 + 128 * slot

/-- An entry held modified is written back to the journal area (11 R309). -/
def State.jrnlWriteback (s : State) (p slot : Nat) : State :=
  match s.jent p slot with
  | none => s
  | some j =>
    if j.dirty && s.flag (aCssJrnl p) 63 then
      (((s.hubPut (s.jrnlAddr p slot) (bytesOf (jentWords j))).setJent p slot { j with dirty := false }).count 0x1D2 2 1)
    else s

/-- The first free slot from k on, wrapping round (11 R308). -/
def State.freeSlot (s : State) (p size : Nat) : Nat → Nat → Option Nat
  | 0, _ => none
  | f + 1, k =>
    let k := k % size
    match s.jent p k with
    | none => some k
    | some j => if j.state = 0 || j.state = 4 then some k else s.freeSlot p size f (k + 1)

/-- The slot a new operation of partition p takes. -/
def State.nextSlot (s : State) (p : Nat) : Option Nat :=
  let size := 2 ^ s.fld (aCssJrnl p) 4 0
  s.freeSlot p size size (smGet (fun _ => 0) s.css.jnext p)

/-! ### Completions (11 R303, R304) -/

/-- Flag bits 43:40 of a completion: WARM, TS_VALID, OUTCOME_UNKNOWN, JOURNALLED. -/
def cqFlags (warm ts unknown journalled : Bool) : Nat := 8 * b2n warm + 4 * b2n ts + 2 * b2n unknown + b2n journalled

/-- A completion as four doublewords, for completion number c. -/
def cqWords (q : Ring) (c tod : Nat) (o : Owed) : List Word :=
  [putBits (putBits (putBits (putBits 0 63 48 o.jslot) 43 40 o.flags) 39 32 o.status) 31 0 o.tag,
   w64 o.result, w64 o.aux,
   putBits (putBits (putBits 0 63 63 (b2n (c / q.size % 2 = 0))) 62 24 (if o.ts then tod / 256 % 2 ^ 39 else 0)) 23 0 q.consumed]

/-- Operations of a ring that have not completed. -/
def State.ringBusy (s : State) (r : Nat) : Bool :=
  (s.jents.any fun e => e.2.2.ring = r && decide (1 ≤ e.2.2.state) && decide (e.2.2.state ≤ 3))
    || s.cmp.queue.any (fun x => x.ring = r) || s.cph.queue.any (fun x => x.ring = r)
    || s.cmp.engines.any (fun e => e.2.any fun x => x.req.ring = r)
    || s.cph.pipes.any (fun e => (match e.2.active with | some x => x.req.ring = r | none => false)
        || (match e.2.susp with | some x => x.req.ring = r | none => false))
    || (match s.ring r with | some q => !q.owed.isEmpty | none => false)

/-- Operations of a ring in ACKED are marked COMPLETED without a completion (11 R292). -/
def State.markDone (s : State) (r : Nat) : State :=
  s.jents.foldl (fun s e => if e.2.2.ring = r && e.2.2.state = 3 then s.recordJ e.1 e.2.1 { e.2.2 with state := 4 } else s) s

/-- A ring enters state ERROR (11 R293). One that DESTROY is stopping writes no completion any more (11 R292). -/
def State.ringError (s : State) (r pra : Nat) : State :=
  match s.ring r with
  | none => s
  | some q =>
    let s := s.raise { src := 0x4C9, info0 := pra, idA := r, part := q.part }
    if q.state = 3 then (s.setRing r (some { q with noCq := true, owed := [] })).markDone r
    else s.setRing r (some { q with state := 2 })

/-- Free a ring: its slot and its real-time allowance are free, and the DESTROY ends (11 R292). -/
def State.freeRing (s : State) (r : Nat) : State :=
  ((s.setRing r none).setNoPers r false).setReg aCssRcmdStatus
    (putBits (putBits (s.reg aCssRcmdStatus) 63 63 0) 7 0 0)

/-- Can a ring write completions now? -/
def State.cqOpen (s : State) (q : Ring) : Bool := q.state ≠ 2 && !q.noCq && !s.deferredFor q.part

/-- Write one completion of a ring whose completions can be written; the Bool says that it was. -/
def State.cqWrite (s : State) (r : Nat) (q : Ring) (o : Owed) : State × Bool :=
  let c := q.produced
  let a := q.cqBase + 32 * (c % q.size)
  match s.hubWr q.part a (bytesOf (cqWords q c s.tod o)) with
  | (s, .error _) => (s.ringError r a, false)
  | (s, .ok _) =>
    let s := s.setRing r (some { q with produced := (c + 1) % 2 ^ 24, intPend := true })
    ((s.count 0x1D1 2 1).count (0x260 + q.part) 4 1, true)

/-- A completion without a journal entry; a ring that cannot write it keeps it (11 R292, R293, R532). -/
def State.complete (s : State) (r : Nat) (o : Owed) : State :=
  match s.ring r with
  | none => s
  | some q =>
    let keep := fun (s : State) (q : Ring) => if q.noCq then s else s.setRing r (some { q with owed := q.owed ++ [o] })
    if s.cqOpen q then
      match s.cqWrite r q o with
      | (s, true) => s
      | (s, false) => match s.ring r with | some q => keep s q | none => s
    else keep s q

/-- An entry that admission completes is consumed with its completion written; one whose completion cannot be written stays, to be fetched
again (11 R293, R297). `s` is the state before it counts as consumed, `t` after. -/
def State.completeEntry (s t : State) (r : Nat) (o : Owed) : State :=
  match t.ring r with
  | none => s
  | some q => match t.cqWrite r q o with
    | (t, true) => t
    | (_, false) => match s.ring r with
      | none => s
      | some q => (s.cqWrite r q o).1

/-- A CLOSE ends once the operations of its session have completed (12 R329). -/
def State.closeCheck (s : State) : State :=
  match s.spn.closing with
  | none => s
  | some i =>
    if s.jents.any fun e => subPartner e.2.2.sub = i && decide (1 ≤ e.2.2.state) && decide (e.2.2.state ≤ 3) then s
    else
      let s := (s.setSession i none).setReg aSpnScmdStatus 0
      { s with spn := { s.spn with closing := none } }

/-- The completion of an operation in ACKED (11 R303, R304, R308): with its PHASE word the entry becomes COMPLETED. -/
def State.completeJ (s : State) (p slot : Nat) : State :=
  match s.jent p slot with
  | none => s
  | some j =>
    if j.state ≠ 3 then s
    else match s.ring j.ring with
      | none => s
      | some q =>
        if q.noCq then (s.recordJ p slot { j with state := 4 }).closeCheck
        else if !s.cqOpen q then s
        else
          let o : Owed := { tag := j.tag, status := j.pstatus, flags := cqFlags j.warm (subTs j.sub) j.unknown true, jslot := slot
                            result := j.result, aux := j.aux, ts := subTs j.sub }
          match s.cqWrite j.ring q o with
          | (s, true) => (s.recordJ p slot { j with state := 4, cqCount := q.produced }).closeCheck
          | (s, false) => s

/-- Completions that wait at a ring are written: those kept, in order, then its ACKED operations. -/
def State.completeWaiting (s : State) (r : Nat) : State :=
  match s.ring r with
  | none => s
  | some q =>
    let s := s.setRing r (some { q with owed := [] })
    let s := q.owed.foldl (fun s o => s.complete r o) s
    s.jents.foldl (fun s e => if e.2.2.ring = r && e.2.2.state = 3 then s.completeJ e.1 e.2.1 else s) s

/-! ### Settling (11 R308, R311, R313, 12 R333) -/

/-- ACK_MARK with a sequence number acknowledged: the highest s such that 1 to s all are (12 R333). -/
def ackStep : Nat → Nat → List Nat → Nat × List Nat
  | 0, m, l => (m, l)
  | f + 1, m, l => if l.contains (m + 1) then ackStep f (m + 1) (l.filter fun x => x ≠ m + 1) else (m, l)

/-- A sequence number of the session is acknowledged. -/
def Session.ack (x : Session) (seq : Nat) : Session :=
  if seq ≤ x.ackMark then x
  else
    let l := if x.ackedAbove.contains seq then x.ackedAbove else seq :: x.ackedAbove
    let (m, l) := ackStep (l.length) x.ackMark l
    { x with ackMark := m, ackedAbove := l }

/-- An operation reaches ACKED, with its status settled, and completes (11 R308, R311). -/
def State.ackOp (s : State) (p slot status : Nat) (unknown : Bool) (result aux : Nat) : State :=
  match s.jent p slot with
  | none => s
  | some j =>
    let st := if status = 0 && j.redrives ≠ 0 then 0x40 else status
    let s := s.recordJ p slot { j with state := 3, pstatus := st, unknown := unknown, result := result, aux := aux }
    let s := if j.state = 2 then
        match s.session j.session with
        | some x => if x.epoch = j.epoch then s.setSession j.session (some (x.ack j.seq)) else s
        | none => s
      else s
    s.completeJ p slot

/-- Operations of a session that are not completed, with their places. -/
def State.opsOf (s : State) (i : Nat) : List (Nat × Nat × JEnt) :=
  s.jents.filter fun e => subPartner e.2.2.sub = i && decide (1 ≤ e.2.2.state) && decide (e.2.2.state ≤ 3)

/-- A session is gone: each operation is settled and completes (11 R313). -/
def State.sessionGone (s : State) (i : Nat) : State :=
  match s.session i with
  | none => s
  | some x =>
    if x.sstate = 4 then s
    else
      let ops := s.opsOf i
      let short := ops.filter fun e => e.2.2.state ≠ 3
      let paths := x.paths.map fun (p : Path) =>
        if p.valid then { p with pstate := 3, login := none, ka := none } else p
      let s := s.setSession i (some { x with sstate := 4, wait := none, resume := none, paths := paths })
      let s := s.spnEvent 0x20 0 0 i 0 0
      let s := if ops.isEmpty then s
        else s.raise { src := 0x4CB, idA := i, idB := short.length, part := x.part }
      let s := ops.foldl (fun s e =>
        let j := e.2.2
        if j.state = 3 then s.completeJ e.1 e.2.1
        else if let some (c, w) := j.ans then s.ackOp e.1 e.2.1 0 false c w
        else s.ackOp e.1 e.2.1 0x41 (j.state = 2) (if subOp j.sub = 1 then j.result else 0) 0) s
      s.closeCheck

/-! ### Buffers (11 R296, R298, R299) -/

/-- The part of a list of pieces that skips some bytes and holds n. -/
def cutPieces : List (Nat × Nat) → Nat → Nat → List (Nat × Nat)
  | [], _, _ => []
  | (a, k) :: r, skip, n =>
    if n = 0 then []
    else if k ≤ skip then cutPieces r (skip - k) n
    else
      let t := min (k - skip) n
      (a + skip, t) :: cutPieces r 0 (n - t)

/-- The buffer of an entry as pieces (11 R296): the elements of its list, or one piece. -/
def State.bufPieces (s : State) (p : Nat) (e : List Word) : State × Except Nat (List (Nat × Nat)) :=
  if subList e then
    match s.hubRd p (subBuf e) (16 * subCount e) with
    | (s, .error st) => (s, .error st)
    | (s, .ok bs) =>
      let ws := wordsOf (2 * subCount e) bs
      if (List.range (subCount e)).any fun i => bits (subW ws (2 * i)) 63 44 ≠ 0 || bits (subW ws (2 * i + 1)) 63 32 ≠ 0 then
        (s, .error 0x11)
      else (s, .ok ((List.range (subCount e)).map fun i => (bits (subW ws (2 * i)) 43 0, bits (subW ws (2 * i + 1)) 31 0)))
  else (s, .ok [(subBuf e, subLen e)])

/-- Does every increment of the pieces translate (11 R297 step 8)? The answer is the status of a failure. -/
def State.checkPieces (s : State) (p : Nat) (write : Bool) (ps : List (Nat × Nat)) : State × Option Nat :=
  (ps.flatMap fun x => (incsOf x.1 x.2).map fun i => (i, max x.1 (i * 2 ^ 28))).foldl (fun (st : State × Option Nat) x =>
    match st.2 with
    | some _ => st
    | none =>
      match st.1.hubEntry p x.1 write with
      | .error .bus => (st.1, some 0x7F)
      | .error .poison => (st.1, some 0x7F)
      | .error e => (st.1.hubFail p x.2 e, some 0x50)
      | .ok (e, read) =>
        if bits e 2 1 ≠ 0 then (st.1.hubFail p x.2 (.code 0x24 none), some 0x50)
        else (if read then st.1.hubKeep p x.1 e else st.1, none)) (s, none)

/-- Read the pieces in order; a failure stops with the status and the bytes read before it. -/
def State.rdPieces (s : State) (p : Nat) (ps : List (Nat × Nat)) : State × List Byte × Option Nat :=
  (ps.flatMap fun x => pieces 17 x.1 x.2).foldl (fun (st : State × List Byte × Option Nat) x =>
    match st.2.2 with
    | some _ => st
    | none => match st.1.hubRd p x.1 x.2 with
      | (s, .error e) => (s, st.2.1, some e)
      | (s, .ok bs) => (s, st.2.1 ++ bs, none)) (s, [], none)

/-- Write bytes to the pieces in order; a failure stops with the status and the count written before it. -/
def State.wrPieces (s : State) (p : Nat) (ps : List (Nat × Nat)) (bs : List Byte) : State × Nat × Option Nat :=
  (ps.flatMap fun x => pieces 17 x.1 x.2).foldl (fun (st : State × Nat × Option Nat) x =>
    match st.2.2 with
    | some _ => st
    | none => match st.1.hubWr p x.1 ((bs.drop st.2.1).take x.2) with
      | (s, .error e) => (s, st.2.1, some e)
      | (s, .ok _) => (s, st.2.1 + x.2, none)) (s, 0, none)

/-! ### Paths of an operation (11 R308, R311) -/

/-- ISSUED operations of a session recorded on path k. -/
def State.issuedOn (s : State) (i k : Nat) : Nat :=
  (s.jents.filter fun e => e.2.2.state = 2 && e.2.2.session = i && e.2.2.path = k).length
/-- ISSUED operations of a session. -/
def State.issuedOf (s : State) (i : Nat) : Nat := (s.jents.filter fun e => e.2.2.state = 2 && e.2.2.session = i).length

/-- Usable paths of a session, in ascending order. -/
def Session.usable (x : Session) : List Nat := (List.range 8).filter fun k => (x.path k).valid && (x.path k).pstate = 2

/-- The usable path with the fewest ISSUED operations, on a tie the lowest (11 R308, R311). -/
def State.bestPath (s : State) (i : Nat) (x : Session) : Option Nat :=
  x.usable.foldl (fun b k => match b with
    | none => some k
    | some b => if s.issuedOn i k < s.issuedOn i b then some k else some b) none

/-- ISSUED operations a session may have at its revision (12 R332). -/
def issuedLimit (rev : Nat) : Nat := if rev = 3 then 1024 else if rev = 4 then 4096 else 16384

/-! ### Frames of an operation (12 R321, R327, R328) -/

/-- Frames of a copy. -/
def opFrames (e : List Word) : Nat := if subOp e = 2 then max 1 ((subLen e + 8191) / 8192) else 1

/-- The command block (12 R328). -/
def cmdBlock (e : List Word) (ackMark : Nat) : List Nat :=
  [subLen e * 2 ^ 32 + bits (subW e 1) 15 0 * 2 ^ 16 + subOp e, (subW e 2).toNat,
   if subOp e = 3 then (subW e 6).toNat else 0, if subOp e = 3 then (subW e 7).toNat else 0, ackMark, opFrames e]

/-- Port of a session's path. -/
def State.pathPort (s : State) (i k : Nat) : Option Nat :=
  match s.session i with
  | some x => if (x.path k).valid && (x.path k).pstate = 2 then some (x.path k).port else none
  | none => none

/-- Has an operation a frame to send on port p? A WRITE's data waits with its partition's transfers (11 R532). -/
def State.sendable (s : State) (p : Nat) (j : JEnt) : Bool :=
  j.state = 2 && decide (j.sent < opFrames j.sub) && s.pathPort j.session j.path = some p
    && !(subOp j.sub = 2 && s.deferredFor j.part) && !s.spanStarved p j.part

/-- The next frame of an operation leaves on port p; an increment that no longer translates ends the operation (11 R299). -/
def State.sendOpFrame (s : State) (p q slot : Nat) (j : JEnt) : State :=
  let k := j.sent
  let n := if subOp j.sub = 2 then min 8192 (subLen j.sub - 8192 * k) else 0
  let (s, r) := if n = 0 then (s, Except.ok []) else
    match s.bufPieces q j.sub with
    | (s, .error st) => (s, .error st)
    | (s, .ok ps) => match s.rdPieces q (cutPieces ps (8192 * k) n) with
      | (s, bs, none) => (s, .ok bs)
      | (s, _, some st) => (s, .error st)
  match r with
  | .error st => s.ackOp q slot st false (8192 * k) 0
  | .ok bs =>
    let x := s.session j.session
    let f : Frame :=
      { lsn := 0, vc := 1, stype := 0x10, rev := (x.map (·.rev)).getD 0, epoch := j.epoch, dst := (x.map fun x => (x.path j.path).faddr).getD 0, session := j.session, path := j.path
        seq := j.seq, frameNo := k, last := k + 1 = opFrames j.sub
        words := if k = 0 then cmdBlock j.sub ((x.map (·.ackMark)).getD 0) else [], payload := bs, replays := 0 }
    let s := s.setJent q slot { j with sent := k + 1 }
    s.frameOut p f

/-- Operation frames leave port p while they can. -/
def State.pumpOps (s : State) (p : Nat) : Nat → State
  | 0 => s
  | f + 1 =>
    if s.portOk p && (s.port p).can 1 && s.running then
      match s.jents.find? fun e => s.sendable p e.2.2 with
      | none => s
      | some (q, slot, j) => (s.sendOpFrame p q slot j).pumpOps p f
    else s

/-- A port sends what it can: control frames, then frames of operations. -/
def State.pump (s : State) (p : Nat) : State := (s.pumpCtl p (s.port p).queue.length).pumpOps p 512

/-! ### Issue and re-drive (11 R308, R310, R311, R315) -/

/-- A PREPARED operation is issued on the least-loaded usable path (11 R308). -/
def State.issueOp (s : State) (p slot : Nat) : State :=
  match s.jent p slot with
  | none => s
  | some j =>
    let i := subPartner j.sub
    match s.session i with
    | none => s
    | some x =>
      if j.state ≠ 1 || x.sstate ≠ 2 || !s.running || issuedLimit x.rev ≤ s.issuedOf i then s
      else match s.bestPath i x with
        | none => s
        | some k =>
          let s := s.recordJ p slot
            { j with state := 2, seq := x.nextSeq, epoch := x.epoch, path := k, session := i, sent := 0, resume := false }
          let s := s.setSession i (some { x with nextSeq := (x.nextSeq + 1) % 2 ^ 64 })
          s.pump (x.path k).port

/-- Must an ISSUED operation be driven again on a usable path of its session: on its own path after a warm return (11 R315), on any once
its path is lost (11 R311, R312)? -/
def JEnt.redrive (j : JEnt) (x : Session) : Bool :=
  if j.resume then x.usable.contains j.path else j.lost || !x.usable.contains j.path

/-- An ISSUED operation is sent again from its first frame: on its own path after a warm return, else on the least-loaded one, with
REDRIVES incremented for the path loss (11 R311, R315). -/
def State.redriveOp (s : State) (p slot : Nat) : State :=
  match s.jent p slot with
  | none => s
  | some j =>
    match s.session j.session with
    | none => s
    | some x =>
      match (if j.resume then some j.path else s.bestPath j.session x) with
      | none => s
      | some k =>
        let n := if j.resume then j.redrives else min 255 (j.redrives + 1)
        let s := s.recordJ p slot { j with path := k, redrives := n, sent := 0, resume := false, lost := false, held := [], ans := none }
        if j.resume then s else s.count 0x1D1 3 1

/-- ISSUED operations of a session. -/
def State.issuedList (s : State) (i : Nat) : List (Nat × Nat × JEnt) :=
  s.jents.filter fun e => e.2.2.state = 2 && e.2.2.session = i

/-- Those whose path is lost are re-driven. -/
def State.redriveAll (s : State) (i : Nat) : State :=
  match s.session i with
  | none => s
  | some x =>
    let s := ((s.issuedList i).filter fun e => e.2.2.redrive x).foldl (fun s e => s.redriveOp e.1 e.2.1) s
    x.usable.foldl (fun s k => s.pump (x.path k).port) s

/-- The operations recorded on a path that is declared failed have lost it, those of a warm return too (DEDUCED from 11 R311, R315, log
entry 35). -/
def State.markLost (s : State) (i k : Nat) : State :=
  ((s.issuedList i).filter fun e => e.2.2.path = k).foldl (fun s e => s.setJent e.1 e.2.1 { e.2.2 with lost := true, resume := false }) s

/-- After the last path is lost: the session waits PATH_WAIT ticks (11 R312), or stays under R533 after a warm return. -/
def State.pathsLost (s : State) (i : Nat) : State :=
  match s.session i with
  | none => s
  | some x =>
    if x.usable.isEmpty && x.sstate = 2 then
      let n := s.fld aCssCfg 15 0
      s.setSession i (some { x with sstate := 3, noPathTicks := 0, wait := some (Ival.start (if n = 0 then 500 else n)) })
    else s

/-- A path of a session is declared failed (12 R331): its operations are re-driven (11 R311). -/
def State.pathFail (s : State) (i k : Nat) : State :=
  match s.session i with
  | none => s
  | some x =>
    let p := x.path k
    if !p.valid || p.pstate = 3 || x.sstate = 4 then s
    else
      let was := p.pstate = 2
      let n := s.issuedOn i k
      let s := s.setSession i (some (x.setPath k { p with pstate := 3, login := none, ka := none, tx := false, rx := false }))
      let s := s.markLost i k
      if !was then s.redriveAll i
      else
        let s := s.spnEvent 0x11 k p.port i p.faddr 0
        let s := if n = 0 then s else s.raise { src := 0x4CA, idA := i, idB := k }
        (s.redriveAll i).pathsLost i

/-! ### Admission (11 R297 to R301) -/

/-- May the ring have its next entry taken, as far as its counts say (11 R300)? -/
def Ring.ready (q : Ring) : Bool :=
  q.state = 1 && q.tail ≠ q.consumed && decide (m24 q.consumed q.head < q.size)

/-- The next entry as the subsystem would read it; nothing is changed. -/
def State.peek (s : State) (q : Ring) : Option (List Word) :=
  match (s.hubRd q.part (q.sqBase + 64 * (q.consumed % q.size)) 64).2 with
  | .ok bs => some (wordsOf 8 bs)
  | .error _ => none

/-- Engine requests held (13 R344, 14 R391). -/
def State.cmpHeld (s : State) : Nat := s.cmp.queue.length + (s.cmp.engines.map fun e => e.2.length).foldl (· + ·) 0
/-- Cipher requests held. -/
def State.cphHeld (s : State) : Nat :=
  s.cph.queue.length + (s.cph.pipes.map fun e => b2n e.2.active.isSome + b2n e.2.susp.isSome).foldl (· + ·) 0

/-- Must the entry wait: a fence with operations outstanding (11 R300), an engine opcode while 4,096 requests are held (13 R344,
14 R391)? -/
def State.entryWaits (s : State) (q : Ring) (e : List Word) : Bool :=
  (subFence e && q.feat.testBit 3 && q.consumed ≠ q.produced)
    || ((subOp e = 0x10 || subOp e = 0x11) && decide (4096 ≤ s.cmpHeld)) || (subOp e = 0x18 && decide (4096 ≤ s.cphHeld))

/-- Can the ring be served now? -/
def State.servable (s : State) (q : Ring) : Bool :=
  q.ready && !s.deferredFor q.part &&
    match q.admitted with
    | some _ => (s.nextSlot q.part).isSome
    | none => match s.peek q with
      | none => true
      | some e => !s.entryWaits q e

/-- Is ring r the next that the service order of 11 R301 serves: real-time rings first, then normal rings round robin with 16
entries a turn? -/
def State.servedNext (s : State) (r : Nat) (q : Ring) : Bool :=
  if q.rt then true
  else if s.ringList.any fun e => e.2.rt && s.servable e.2 then false
  else
    let (t, left) := s.css.turn
    let ok := fun (r : Nat) => match s.ring r with | some q => !q.rt && s.servable q | none => false
    if ok t && decide (0 < left) then r = t
    else
      let ready := (s.ringList.filter fun e => ok e.1).map (·.1)
      (match ready.find? fun k => decide (t < k) with
        | some k => some k
        | none => ready.head?) = some r

/-- What admission does with an entry. -/
inductive Adm where
  | done (status result : Nat)
  | journal
  | engine
  deriving DecidableEq, Repr

/-- Steps 4 to 8 of 11 R297. -/
def State.admitMove (s : State) (q : Ring) (e : List Word) : State × Adm :=
  match s.session (subPartner e) with
  | none => (s, .done 0x50 0)
  | some x =>
    if x.part ≠ q.part then (s, .done 0x50 0)
    else if x.sstate ≠ 2 && x.sstate ≠ 3 then (s, .done 0x41 0)
    else if subLen e = 0 then (s, .journal)
    else
      match s.bufPieces q.part e with
      | (s, .error st) => (s, .done st 0)
      | (s, .ok ps) =>
        if (ps.map (·.2)).foldl (· + ·) 0 < subLen e then (s, .done 0x10 0)
        else if !subList e && 2 ^ 44 < subBuf e + subLen e then (s, .done 0x50 0)
        else match s.checkPieces q.part (subOp e = 1) (cutPieces ps 0 (subLen e)) with
          | (s, some st) => (s, .done st 0)
          | (s, none) => (s, .journal)

/-- The checks of 11 R297 in order. -/
def State.admitCheck (s : State) (q : Ring) (e : List Word) : State × Adm :=
  let op := subOp e
  if !opAvail q.ver q.feat op then (s, .done 0x12 0)
  else if !subReservedOk q.feat e then (s, .done 0x11 0)
  else if op = 0 then (s, .done 0 0)
  else if subLen e = 0 && op ≠ 3 then (s, .done 0 0)
  else if opEngine op then (s, .engine)
  else s.admitMove q e

/-- The entry counts as consumed (11 R300, R301). -/
def State.consume (s : State) (r : Nat) : State :=
  match s.ring r with
  | none => s
  | some q =>
    let s := s.setRing r (some { q with consumed := (q.consumed + 1) % 2 ^ 24, admitted := none })
    let s := if q.rt then s
      else { s with css := { s.css with turn := if s.css.turn.1 = r && decide (0 < s.css.turn.2) then (r, s.css.turn.2 - 1) else (r, 15) } }
    (s.count 0x1D1 1 1).count (0x260 + q.part) 3 1

/-- The completion of an entry that has no journal entry. -/
def plainCq (e : List Word) (feat status result : Nat) : Owed :=
  let ts := subTs e && feat.testBit 1
  { tag := subTag e, status := status, flags := cqFlags false ts false false, jslot := 0, result := result, aux := 0, ts := ts }

/-- A new journal entry in PREPARED (11 R308). -/
def newJent (r p tod : Nat) (e : List Word) : JEnt :=
  { tag := subTag e, ring := r, part := p, state := 1, seq := 0, epoch := 0, path := 0, session := 0, unknown := false, cqCount := 0
    redrives := 0, pstatus := 0, prepTod := tod, result := 0, aux := 0, sub := e, dirty := true, warm := false, resume := false
    sent := 0 }

/-- Step 9 of 11 R297: a checked entry takes the next free journal slot and counts as consumed; while there is none, the ring waits with
it. -/
def State.admitJournal (s : State) (r : Nat) (q : Ring) (e : List Word) : State :=
  match s.nextSlot q.part with
  | none => s.setRing r (some { q with admitted := some e })
  | some k =>
    let s := s.recordJ q.part k (newJent r q.part s.tod e)
    let s := { s with css := { s.css with
      jnext := smSet (fun _ => 0) s.css.jnext q.part ((k + 1) % 2 ^ s.fld (aCssJrnl q.part) 4 0) } }
    s.consume r

/-- An entry as fetched is checked and admitted. -/
def State.admitFetched (s : State) (r : Nat) (q : Ring) (e : List Word) : State :=
  match s.admitCheck q e with
  | (s, .done st res) => s.completeEntry (s.consume r) r (plainCq e q.feat st res)
  | (s, .engine) =>
    let x : EngReq := { ring := r, part := q.part, rt := q.rt, tag := subTag e, sub := e, warm := false }
    let s := s.consume r
    if subOp e = 0x18 then { s with cph := { s.cph with queue := s.cph.queue ++ [x] } }
    else { s with cmp := { s.cmp with queue := s.cmp.queue ++ [x] } }
  | (s, .journal) => s.admitJournal r q e

/-- The next entry of ring r is fetched and admitted, if the ring is the one to be served (11 R293, R297, R300, R301); admission of one
that waited for a journal slot resumes there. `only` asks for one opcode. -/
def State.admitEntry (s : State) (r : Nat) (only : Option Nat) : State :=
  match s.ring r with
  | none => s
  | some q =>
    if !s.running || !s.servable q || !s.servedNext r q then s
    else
      let wanted := fun (e : List Word) => only.isNone || only = some (subOp e)
      match q.admitted with
      | some e => if wanted e then s.admitJournal r q e else s
      | none =>
        let a := q.sqBase + 64 * (q.consumed % q.size)
        match s.hubRd q.part a 64 with
        | (s', .error st) =>
          if only.isSome then s
          else if st = 0x50 then s'.ringError r a
          else
            let (k, s') := s'.draw
            s'.completeEntry (s'.consume r) r (plainCq [putBits 0 63 32 (Config.freeWord k).toNat] 0 0x7F 0)
        | (s', .ok bs) => if wanted (wordsOf 8 bs) then s'.admitFetched r q (wordsOf 8 bs) else s

/-! ### Doorbell re-reads (11 R284 to R287) -/

/-- A valid slot value is taken; an invalid one is ignored and reported (11 R287). -/
def State.takeSlot (s : State) (r : Nat) (v : Word) : State :=
  match s.ring r with
  | none => s
  | some q =>
    let tail := bits v 23 0
    let head := bits v 47 24
    if m24 tail q.consumed ≤ q.size ∧ m24 q.produced head ≤ q.size then
      s.setRing r (some { q with tail := tail, head := head, irqOff := bit v 48 })
    else s.raise { src := 0x4C8, info0 := v.toNat, idA := r, part := q.part }

/-- The subsystem re-reads watched line n (11 R284). -/
def State.rereadLine (s : State) (n : Nat) : State :=
  match s.watch n with
  | none => s
  | some w =>
    let s := s.hubShare w.line
    let s := { s with css := { s.css with watch := smSet (fun _ => none) s.css.watch n (some { w with stale := false }) } }
    let s := s.count 0x1D1 4 1
    s.ringList.foldl (fun s e => if e.2.dbl = n then s.takeSlot e.1 (w64 (s.num (128 * w.line + 8 * e.2.slot) 8)) else s) s

/-! ### Ring commands (11 R288 to R292, R316) -/

/-- CSS_RCMD_STATUS after a command that ends. -/
def State.rcmdEnd (s : State) (result : Nat) : State :=
  s.setReg aCssRcmdStatus (putBits (putBits (s.reg aCssRcmdStatus) 63 63 0) 7 0 result)

/-- Is a command in progress? -/
def State.rcmdBusy (s : State) : Bool := s.flag aCssRcmdStatus 63
/-- Address of the command block. -/
def State.rcmdAddr (s : State) : Nat := s.fld aCssRcmdAddr 51 6 * 64
/-- The command block as eight doublewords. -/
def State.rcmdBlock (s : State) : List Word := wordsOf 8 (s.bytes s.rcmdAddr 64)

/-- Do the arrays of a ring translate (11 R290)? The answer says whether every increment has PERS = 1. -/
def State.arraysOk (s : State) (p log2 sq cq : Nat) : Option Bool :=
  let one := fun (w : Bool) (acc : Option Bool) (i : Nat) =>
    match acc, s.hubInc p i w with
    | some b, some e => some (b && bit e 7)
    | _, _ => none
  let acc := (incsOf sq (64 * 2 ^ log2)).foldl (one false) (some true)
  (incsOf cq (32 * 2 ^ log2)).foldl (one true) acc

/-- The first increment that does not translate, if it is because its entry names the control space, raises XLT_S2_CTL (08 R221). -/
def State.arraysCtl (s : State) (p log2 sq cq : Nat) : State :=
  match ((incsOf sq (64 * 2 ^ log2)).map (·, false) ++ (incsOf cq (32 * 2 ^ log2)).map (·, true)).find? fun x =>
      (s.hubInc p x.1 x.2).isNone with
  | some x => s.hubCtl p x.1 x.2
  | none => s

/-- Word 0x18 of a block is well formed (11 R289, R290). -/
def blkWord3Ok (w : Word) : Bool :=
  bits w 63 41 = 0 && bits w 31 29 = 0 && bits w 23 20 = 0 && bits w 15 10 = 0 && decide (48 ≤ bits w 39 32)

/-- The fields of a creation block are well formed (11 R289, R290). -/
def blkOk (b : List Word) : Bool :=
  let w := subW b 0
  bits w 63 48 = 0 && bits w 31 28 = 0 && bits w 23 21 = 0 && bits w 15 9 = 0 && bits w 7 6 = 0
    && bits (subW b 1) 63 44 = 0 && bits (subW b 1) 11 0 = 0 && bits (subW b 2) 63 44 = 0 && bits (subW b 2) 11 0 = 0
    && blkWord3Ok (subW b 3) && ((List.range 4).all fun i => subW b (4 + i) = 0)
    && decide (1 ≤ bits w 5 0) && decide (bits w 5 0 ≤ 32) && decide (4 ≤ bits w 20 16) && decide (bits w 20 16 ≤ 16)

/-- Features available at a version (11 R291). -/
def featAt (ver : Nat) : Nat := if ver = 1 then 8 else if ver = 2 then 11 else 15

/-- The ring a creation block describes. -/
def ringOf (b : List Word) (irqOff pers : Bool) : Ring :=
  let w := subW b 0
  let w3 := subW b 3
  let ver := min (bits w 27 24) 3
  { part := bits w 5 0, rt := bit w 8, log2 := bits w 20 16, sqBase := (subW b 1).toNat, cqBase := (subW b 2).toNat
    intEn := bit w3 40, vector := bits w3 39 32, target := bits w3 28 24, slot := bits w3 19 16, dbl := bits w3 9 0
    ver := ver, feat := bits w 47 32 &&& featAt ver, state := 1, consumed := 0, produced := 0, intPend := false, irqOff := irqOff
    head := 0, tail := 0, pers := pers, retarget := none, owed := [], noCq := false }

/-- The checks of CREATE in order (11 R290): the RESULT that fails, or the ring. -/
def State.createCheck (s : State) (r : Nat) (b : List Word) : Except Nat Ring :=
  let w := subW b 0
  let p := bits w 5 0
  let dbl := bits (subW b 3) 9 0
  let slot := bits (subW b 3) 19 16
  if (s.ring r).isSome then .error 0x01
  else if !blkOk b then .error 0x03
  else if !s.flag (aCssJrnl p) 63 then .error 0x08
  else if bits w 27 24 = 0 then .error 0x05
  else if bit w 8 && decide (512 ≤ s.rtRings) then .error 0x06
  else
    match s.watch dbl with
    | none => .error 0x07
    | some wt =>
      let v := w64 (s.num (128 * wt.line + 8 * slot) 8)
      if s.fld (aCssDbl dbl) 49 44 ≠ p || (s.ringList.any fun e => e.2.dbl = dbl && e.2.slot = slot) || bits v 47 0 ≠ 0 then .error 0x07
      else match s.arraysOk p (bits w 20 16) (subW b 1).toNat (subW b 2).toNat with
        | none => .error 0x04
        | some pers => .ok (ringOf b (bit v 48) pers)

/-- CREATE (11 R288 to R291). -/
def State.cmdCreate (s : State) (r : Nat) : State :=
  if s.rcmdBusy then s
  else match s.createCheck r s.rcmdBlock with
    | .error c =>
      let b := s.rcmdBlock
      let s := if c = 4 then s.arraysCtl (bits (subW b 0) 5 0) (bits (subW b 0) 20 16) (subW b 1).toNat (subW b 2).toNat else s
      s.setReg aCssRcmdStatus (w64 c)
    | .ok q =>
      ((s.setRing r (some q)).setNoPers r (!q.pers)).setReg aCssRcmdStatus (w64 (q.ver * 2 ^ 24 + q.feat * 2 ^ 8))

/-- DESTROY (11 R292). -/
def State.cmdDestroy (s : State) (r : Nat) : State :=
  if s.rcmdBusy then s
  else match s.ring r with
    | none => s.rcmdEnd 0x02
    | some q =>
      let err := q.state = 2
      let s := s.setRing r (some { q with state := 3, noCq := err, owed := if err then [] else q.owed })
      let s := if err then s.markDone r else s
      if s.ringBusy r then s.setFld aCssRcmdStatus 63 63 1 else s.freeRing r

/-- The last operation of a draining ring has completed: the ring is freed (11 R292). -/
def State.destroyEnd (s : State) (r : Nat) : State :=
  match s.ring r with
  | none => s
  | some q => if q.state = 3 && !s.ringBusy r then s.freeRing r else s

/-- RETARGET (11 R292). -/
def State.cmdRetarget (s : State) (r : Nat) : State :=
  if s.rcmdBusy then s
  else match s.ring r with
    | none => s.rcmdEnd 0x02
    | some q =>
      let w := subW s.rcmdBlock 3
      if blkWord3Ok w then
        (s.setRing r (some { q with retarget := some (bit w 40, bits w 39 32, bits w 28 24) })).rcmdEnd 0
      else s.rcmdEnd 0x03

/-- RESUME (11 R292, R314). -/
def State.cmdResume (s : State) (r : Nat) : State :=
  if s.rcmdBusy then s
  else match s.ring r with
    | none => s.rcmdEnd 0x02
    | some q =>
      if q.state ≠ 2 then s.rcmdEnd 0x09
      else match s.arraysOk q.part q.log2 q.sqBase q.cqBase with
        | none => (s.arraysCtl q.part q.log2 q.sqBase q.cqBase).rcmdEnd 0x04
        | some pers =>
          (((s.setRing r (some { q with state := 1, pers := pers })).setNoPers r (!pers)).completeWaiting r).rcmdEnd 0

/-- The ring-state entry (11 R316). -/
def ringEntry (q : Ring) : List Word :=
  [putBits (putBits (putBits (putBits (putBits 0 47 32 q.feat) 27 24 q.ver) 20 16 q.log2) 8 8 (b2n q.rt)) 5 0 q.part,
   w64 q.sqBase, w64 q.cqBase,
   putBits (putBits (putBits (putBits (putBits 0 40 40 (b2n q.intEn)) 39 32 q.vector) 28 24 q.target) 19 16 q.slot) 9 0 q.dbl,
   putBits (putBits (putBits (putBits 0 51 51 (b2n q.intPend)) 50 48 q.state) 47 24 q.produced) 23 0 q.consumed,
   putBits (putBits (putBits 0 48 48 (b2n q.irqOff)) 47 24 q.head) 23 0 q.tail, 0, 0]

/-- The ring that a ring-state entry restores (11 R315, R316). -/
def ringRestore (b : List Word) (pers : Bool) : Ring :=
  let q := ringOf b (bit (subW b 5) 48) pers
  let st := subW b 4
  { q with ver := bits (subW b 0) 27 24, feat := bits (subW b 0) 47 32, intPend := bit st 51, state := bits st 50 48
           produced := bits st 47 24, consumed := bits st 23 0, head := bits (subW b 5) 47 24, tail := bits (subW b 5) 23 0 }

/-- QUERY (11 R292, R316). -/
def State.cmdQuery (s : State) (r : Nat) : State :=
  if s.rcmdBusy then s
  else match s.ring r with
    | none => s.rcmdEnd 0x02
    | some q =>
      let s := s.jents.foldl (fun s e => if e.2.2.ring = r then s.jrnlWriteback e.1 e.2.1 else s) s
      (s.hubPut s.rcmdAddr (bytesOf (ringEntry q))).rcmdEnd 0

/-- A write of CSS_RCMD (11 R288, R292): other values of OP are ignored. -/
def State.cssRcmdWrite (s : State) (v : Word) : State :=
  let r := bits v 29 16
  let op := bits v 3 0
  if op = 1 then s.cmdCreate r
  else if op = 2 then s.cmdDestroy r
  else if op = 3 then s.cmdRetarget r
  else if op = 4 then s.cmdResume r
  else if op = 5 then s.cmdQuery r
  else s

/-! ### At a tick boundary (11 R292, R305) -/

/-- Rings with completions of the tick that ends; those written at the boundary itself count for the next tick (11 R305, 01 R29). -/
def State.ringsDue (s : State) : State × List Nat :=
  let due := (s.ringList.filter fun e => e.2.intPend).map (·.1)
  (due.foldl (fun s r => match s.ring r with | some q => s.setRing r (some { q with intPend := false }) | none => s) s, due)

/-- RETARGETs take effect, then the completion interrupts coalesced during the ended tick are posted for the rings due (11 R292, R305). -/
def State.ringInts (s : State) (due : List Nat) : State :=
  s.ringList.foldl (fun s e =>
    let q := e.2
    let q := match q.retarget with
      | some (en, v, t) => { q with intEn := en, vector := v, target := t, retarget := none }
      | none => q
    let s := if due.contains e.1 && q.intEn && !q.irqOff then s.post (triOf q.target) q.vector else s
    s.setRing e.1 (some q)) s

/-! ### DATA of a READ, and what a partition's transfers waited for (11 R298, R299, R532) -/

/-- Bytes of a DATA frame go to the buffer of a READ: RESULT counts them, and a failed translation settles the operation. -/
def State.dataPut (s : State) (p slot : Nat) (frameNo : Nat) (bs : List Byte) : State :=
  match s.jent p slot with
  | none => s
  | some j =>
    let fail := fun (s : State) (j : JEnt) (st : Nat) =>
      if j.state = 3 then s.recordJ p slot { j with pstatus := st } else s.ackOp p slot st false j.result 0
    let off := 8192 * frameNo
    match s.bufPieces p j.sub with
    | (s, .error st) => fail s j st
    | (s, .ok ps) =>
      let (s, n, e) := s.wrPieces p (cutPieces ps off bs.length) bs
      let j := { j with result := if n = 0 then j.result else max j.result (off + n), dirty := true }
      match e with
      | some st => fail s j st
      | none => s.setJent p slot j

/-- DATA frames of partition p that waited are written, then their answers are taken. -/
def State.heldData (s : State) (p : Nat) : State :=
  (s.jents.filter fun e => e.1 = p && !e.2.2.held.isEmpty).foldl (fun s e =>
    let s := s.setJent p e.2.1 { e.2.2 with held := [] }
    let s := e.2.2.held.foldl (fun s h => s.dataPut p e.2.1 h.1 h.2) s
    match e.2.2.ans, s.jent p e.2.1 with
    | some (c, w), some j => if j.state = 2 then s.ackOp p e.2.1 0 false c w else s
    | _, _ => s) s

/-- The transfers of partition p go on. -/
def State.goPart (s : State) (p : Nat) : State :=
  if s.deferredFor p then s
  else
    let s := s.heldData p
    let s := (s.ringList.filter fun e => e.2.part = p && e.2.state ≠ 2).foldl (fun s e => s.completeWaiting e.1) s
    (List.range 32).foldl (fun s k => if s.portOk k then s.pump k else s) s

/-- HUB_PMT_p is written with VALID = 1: what was deferred for partition p goes on (11 R532). -/
def State.undefer (s : State) (p : Nat) : State :=
  if s.css.deferred.testBit p then State.goPart { s with css := { s.css with deferred := s.css.deferred - 2 ^ p } } p else s

/-- New slots of this tick let the traffic of reserved partitions go on (15 R417). -/
def State.slotsBack (s : State) : State :=
  (((List.range 32).map (· + 1)).filter fun p => (s.part.honMem ||| s.part.honSpan).testBit p).foldl (fun s p => s.goPart p) s

end Sys2Proof.Machine
end

