-- ==== Sys2Proof/Machine/SpanSession.lean ====
section
/-! DEFINITION. Span sessions and ports (12 R318 to R335): logins, session commands, port states, what partners send, and the tick
actions. -/

namespace Sys2Proof.Machine
open Sys2Proof

/-- Every session with its number. -/
def State.sessionList (s : State) : List (Nat × Session) := s.spn.sessions.filterMap fun e => e.2.map fun x => (e.1, x)
/-- Every configured path of a session that is not gone, with its session and number. -/
def State.pathList (s : State) : List (Nat × Nat × Path) :=
  s.sessionList.flatMap fun e =>
    if e.2.sstate = 4 then [] else (List.range 8).filterMap fun k => if (e.2.path k).valid then some (e.1, k, e.2.path k) else none

/-- A path changed. -/
def State.updPath (s : State) (i k : Nat) (f : Path → Path) : State :=
  match s.session i with
  | none => s
  | some x => s.setSession i (some (x.setPath k (f (x.path k))))

/-! ### Login (12 R330) -/

/-- Payload of a LOGIN: NEW and REV_MASK, module name, expected partner name, ACK_MARK (12 R328). NEW is 1 until a login has been
accepted since OPEN. -/
def loginWords (x : Session) : List Nat := [b2n (!x.loggedIn) * 2 ^ 63 + x.revMask, Config.moduleName, x.name.toNat, x.ackMark]

/-- A LOGIN leaves; its answer is awaited for 2 ticks. -/
def State.sendLogin (s : State) (i k : Nat) : State :=
  match s.session i with
  | none => s
  | some x =>
    let p := x.path k
    let s := s.setSession i (some (x.setPath k { p with pstate := 1, sends := p.sends + 1, login := some (Ival.start 2) }))
    s.sendCtl p.port 0x01 p.faddr i k (loginWords x)

/-- A path logs in if its port is UP or DEGRADED, else it counts as failed (12 R329, R331). -/
def State.startLogin (s : State) (i k : Nat) : State :=
  match s.session i with
  | none => s
  | some x =>
    let p := x.path k
    if !p.valid || x.sstate = 4 then s
    else if s.portState p.port = 2 || s.portState p.port = 3 then (s.updPath i k fun p => { p with sends := 0 }).sendLogin i k
    else s.updPath i k fun p => { p with pstate := 3, login := none, ka := none }

/-- A frame has arrived on a path (12 R331, R332). -/
def State.rxFrame (s : State) (i k : Nat) : State :=
  s.updPath i k fun p => { p with rx := true, ka := if p.pstate = 2 then some (Ival.start (s.fld aSpnCfg 7 0)) else p.ka }

/-- A login is refused: the path is failed, and NO_STATE makes the session gone (12 R330). -/
def State.loginRefused (s : State) (i k reason : Nat) : State :=
  match s.session i with
  | none => s
  | some x =>
    let p := x.path k
    if p.pstate ≠ 1 then s
    else
      let s := s.updPath i k fun p => { p with pstate := 3, login := none, ka := none }
      let s := s.spnEvent 0x12 k p.port i p.faddr (w64 reason)
      let s := s.raise { src := srcSpan p.port 4, idA := i, idB := k }
      if reason = 1 then s.sessionGone i else s

/-- The highest revision in both masks. -/
def commonRev (a b : Nat) : Option Nat := [5, 4, 3].find? fun r => a.testBit r && b.testBit r

/-- LOGIN_ACCEPT with the partner's revision mask and name (12 R330, 11 R312). -/
def State.loginAccept (s : State) (i k mask : Nat) (name : Word) : State :=
  match s.session i with
  | none => s
  | some x =>
    let p := x.path k
    if !p.valid || p.pstate ≠ 1 || x.sstate = 4 then s
    else
      let s := s.rxFrame i k
      match commonRev x.revMask mask with
      | none => s.loginRefused i k 2
      | some r =>
        if name ≠ x.name then (s.sendCtl p.port 0x03 p.faddr i k [3]).loginRefused i k 3
        else if x.rev ≠ 0 && x.rev ≠ r then (s.sendCtl p.port 0x03 p.faddr i k [4]).loginRefused i k 4
        else
          let p' := { p with pstate := 2, sends := 0, login := none, ka := some (Ival.start (s.fld aSpnCfg 7 0)), rx := true }
          let s := s.setSession i (some { x.setPath k p' with rev := r, loggedIn := true, sstate := 2, wait := none, resume := none,
                                                              noPathTicks := 0 })
          let s := s.spnEvent 0x10 k p.port i p.faddr 0
          s.redriveAll i

/-- SPN_PROTOCOL on a path: a frame broke 12 R321 to R328 or R335. -/
def State.protocolRaise (s : State) (i k seq : Nat) : State :=
  match s.session i with
  | none => s
  | some x => s.raise { src := srcSpan (x.path k).port 3, info0 := (x.path k).faddr, idA := (x.path k).port, idB := seq % 65536 }

/-- LOGIN_REJECT (12 R330); a reason that 12 R328 does not give is a protocol error as well. -/
def State.loginReject (s : State) (i k reason : Nat) : State :=
  let s := s.rxFrame i k
  let s := if 1 ≤ reason ∧ reason ≤ 5 then s else s.protocolRaise i k 0
  s.loginRefused i k reason

/-- LOGOUT from the partner: scope 0 fails the path, scope 1 makes the session gone (12 R331). A path
that is not usable has nothing to be failed for. -/
def State.logout (s : State) (i k : Nat) (whole : Bool) : State :=
  match s.session i with
  | none => s
  | some x =>
    let p := x.path k
    if !p.valid || x.sstate = 4 then s
    else
      let s := s.rxFrame i k
      if whole then (s.spnEvent 0x21 0 p.port i p.faddr 0).sessionGone i else if p.pstate = 2 then s.pathFail i k else s

/-! ### Session commands (12 R326, R329) -/

/-- A session-state entry as 32 doublewords (12 R326). -/
def sessEntry (x : Session) (issued : Nat) : List Word :=
  [x.name,
   putBits (putBits (putBits (putBits (putBits 0 63 32 x.epoch) 27 24 x.rev) 19 16 x.sstate) 13 8 x.part) 7 0 x.revMask,
   w64 x.nextSeq, w64 x.ackMark]
    ++ (List.range 8).map (fun k =>
        let p := x.path k
        if p.valid then putBits (putBits (putBits (putBits 0 63 63 1) 58 56 p.pstate) 52 48 p.port) 23 0 p.faddr else 0)
    ++ [putBits (putBits 0 63 32 issued) 15 0 x.noPathTicks] ++ List.replicate 19 0

/-- The path list of a block. -/
def pathsOf (b : List Word) : List Path :=
  (List.range 8).map fun k =>
    let w := subW b (4 + k)
    if bit w 63 then { Path.none with valid := true, port := bits w 52 48, faddr := bits w 23 0 } else Path.none

/-- Same port and remote address. -/
def samePath (a b : Path) : Bool := a.valid && b.valid && a.port = b.port && a.faddr = b.faddr

/-- The fields of a block of OPEN or MODIFY (12 R326, R329). -/
def sessBlkOk (b : List Word) : Bool :=
  let w := subW b 1
  let ps := pathsOf b
  bits w 63 14 = 0 && decide (1 ≤ bits w 13 8) && decide (bits w 13 8 ≤ 32) && bits w 7 0 ≠ 0 && bits w 2 0 = 0 && bits w 7 6 = 0
    && subW b 2 = 0 && subW b 3 = 0
    && ((List.range 8).all fun k => bits (subW b (4 + k)) 62 53 = 0 && bits (subW b (4 + k)) 47 24 = 0)
    && ((List.range 20).all fun i => subW b (12 + i) = 0)
    && ps.any (·.valid)
    && ((List.range 8).all fun i => (List.range i).all fun j => !samePath (ps.getD i Path.none) (ps.getD j Path.none))

/-- SPN_SCMD_STATUS after a command that ends. -/
def State.scmdEnd (s : State) (result : Nat) : State := s.setReg aSpnScmdStatus (w64 result)
/-- Is a session command in progress? -/
def State.scmdBusy (s : State) : Bool := s.flag aSpnScmdStatus 63
/-- The 256-byte block. -/
def State.scmdBlock (s : State) (a : Nat) : List Word := wordsOf 32 (s.bytes a 256)

/-- OPEN (12 R329, R330). -/
def State.sessOpen (s : State) (i a : Nat) : State :=
  if s.scmdBusy then s
  else
    let b := s.scmdBlock a
    let p := bits (subW b 1) 13 8
    if (s.session i).isSome then s.scmdEnd 1
    else if !sessBlkOk b then s.scmdEnd 3
    else if !s.flag (aCssJrnl p) 63 then s.scmdEnd 4
    else
      let e := s.kst.rest.epoch
      let x : Session :=
        { name := subW b 0, epoch := e, rev := 0, sstate := 1, part := p, revMask := bits (subW b 1) 7 0, nextSeq := 1, ackMark := 0
          ackedAbove := [], paths := pathsOf b, loggedIn := false, wait := none, noPathTicks := 0, resume := none }
      let s := s.setSession i (some x)
      let s := { s with kst := { s.kst with rest := { s.kst.rest with
        epoch := if e + 1 = 2 ^ 32 then 1 else e + 1 } } }
      ((List.range 8).foldl (fun s k => s.startLogin i k) s).scmdEnd 0

/-- Place of a path in the old list, if it is one of its paths. -/
def Session.placeOf (x : Session) (p : Path) : Option Nat := (List.range 8).find? fun j => samePath (x.path j) p

/-- Issued operations of a session follow their paths to new places. -/
def State.movePaths (s : State) (i : Nat) (to_ : Nat → Option Nat) : State :=
  (s.opsOf i).foldl (fun s e =>
    match to_ e.2.2.path with
    | some k => if k = e.2.2.path || e.2.2.state ≠ 2 then s else s.setJent e.1 e.2.1 { e.2.2 with path := k, dirty := true }
    | none => s) s

/-- MODIFY (12 R329): a path of the old list that the new one names, at whatever place, stays with its state. -/
def State.sessModify (s : State) (i a : Nat) : State :=
  if s.scmdBusy then s
  else match s.session i with
    | none => s.scmdEnd 2
    | some x =>
      let b := s.scmdBlock a
      if !sessBlkOk b || subW b 0 ≠ x.name || bits (subW b 1) 13 8 ≠ x.part || bits (subW b 1) 7 0 ≠ x.revMask then s.scmdEnd 3
      else
        let ps := pathsOf b
        let new := fun k => ps.getD k Path.none
        let to_ := fun j => (List.range 8).find? fun k => samePath (x.path j) (new k)
        let s := (List.range 8).foldl (fun s k =>
          if (x.path k).valid && (to_ k).isNone then
            let s := if (x.path k).pstate = 2 then s.sendCtl (x.path k).port 0x04 (x.path k).faddr i k [0] else s
            (s.markLost i k).pathFail i k
          else s) s
        let s := s.movePaths i to_
        let y := (s.session i).getD x
        let paths := (List.range 8).map fun k => ((x.placeOf (new k)).map y.path).getD (new k)
        let s := s.setSession i (some { y with paths := paths })
        let s := (List.range 8).foldl (fun s k => if (x.placeOf (new k)).isSome then s else s.startLogin i k) s
        (s.redriveAll i).scmdEnd 0

/-- CLOSE (12 R329). -/
def State.sessClose (s : State) (i : Nat) : State :=
  if s.scmdBusy then s
  else match s.session i with
    | none => s.scmdEnd 2
    | some x =>
      let s := x.usable.foldl (fun s k => s.sendCtl (x.path k).port 0x04 (x.path k).faddr i k [1]) s
      let s := { s with spn := { s.spn with closing := some i } }
      ((s.setReg aSpnScmdStatus (putBits 0 63 63 1)).sessionGone i).closeCheck

/-- QUERY of a session (12 R329). -/
def State.sessQuery (s : State) (i a : Nat) : State :=
  if s.scmdBusy then s
  else match s.session i with
    | none => s.scmdEnd 2
    | some x => (s.hubPut a (bytesOf (sessEntry x (s.issuedOf i)))).scmdEnd 0

/-- A write of SPN_SCMD (12 R329): other values of OP are ignored. -/
def State.spnScmdWrite (s : State) (v : Word) : State :=
  let i := bits v 63 52
  let a := bits v 51 8 * 256
  let op := bits v 2 0
  if op = 1 then s.sessOpen i a
  else if op = 2 then s.sessModify i a
  else if op = 3 then s.sessClose i
  else if op = 4 then s.sessQuery i a
  else s

/-! ### Ports (12 R320, R322, R323) -/

/-- A port leaves UP and DEGRADED: nothing of its link is kept, and its paths fail (12 R331). -/
def State.portDown (s : State) (p st : Nat) : State :=
  let s := (s.setPortState p st).setPort p SpanPort.reset
  s.pathList.foldl (fun s e => if e.2.2.port = p && (e.2.2.pstate = 1 || e.2.2.pstate = 2) then s.pathFail e.1 e.2.1 else s) s

/-- A port enters FAILED (12 R320). -/
def State.portFail (s : State) (p cause : Nat) : State :=
  if s.portOk p then (s.raise { src := srcSpan p 1, idA := p, idB := cause }).portDown p 4 else s

/-- A port has trained, with credits that its peer grants: it sends its FABRIC login, and its failed paths log in again (12 R323, R331). -/
def State.portUp (s : State) (p st : Nat) : State :=
  let (k0, s) := s.draw
  let (k1, s) := s.draw
  let up := { SpanPort.reset with credit0 := Config.spanCredit k0, credit1 := Config.spanCredit k1 }
  let s := ((s.setPort p up).setPortState p st).fabricLogin p
  s.pathList.foldl (fun s e => if e.2.2.port = p && (e.2.2.pstate = 3 || e.2.2.pstate = 0) then s.startLogin e.1 e.2.1 else s) s

/-- A port loses a lane (12 R320). -/
def State.portDegrade (s : State) (p : Nat) : State :=
  if !s.gateRuns (20 + p / 8) then s
  else if s.portState p = 2 then (s.setPortState p 3).raise { src := srcSpan p 0, idA := p }
  else if s.portState p = 3 then s.portFail p 0
  else s

/-- The sender replays from a frame (12 R322): once a frame has been replayed 8 times without acknowledgement the port fails. -/
def State.portReplay (s : State) (p lsn : Nat) : State :=
  let q := s.port p
  if !s.portOk p || !q.unacked.any (fun f => f.lsn = lsn) then s
  else if replaySpent q.unacked lsn then s.portFail p 2
  else
    ((s.setPort p { q with unacked := replayFrames q.unacked lsn }).addSat (aSpnPortStatus p) 63 48 1).count (0x190 + p) 5 1

/-- ACK_TIMEOUT_REPLAY: the sender replays from its oldest frame. -/
def State.ackTimeout (s : State) (p : Nat) : State :=
  match (s.port p).unacked with
  | f :: _ => if s.portOk p then s.portReplay p f.lsn else s
  | [] => s

/-- The acknowledgement and the credits that any good frame brings (12 R321, R322). -/
def SpanPort.credit (q : SpanPort) (ack cr0 cr1 : Nat) : SpanPort :=
  { q with unacked := ackFrames q.unacked ack, credit0 := q.credit0 + cr0, credit1 := q.credit1 + cr1 }

/-- A port that owes credits and has sent no frame since returns them with IDLE. DESIGN CHOICE: 12 R321 names the frame, no rule says when
it is sent (log entry 20). -/
def State.idleFrame (s : State) (p lsn : Nat) : State :=
  let q := s.port p
  if s.portOk p && q.nextLsn = lsn && decide (0 < q.ret0 + q.ret1) then s.setPort p (q.sendLink (s.portAddr p) 2) else s

/-- A frame arrives at port p (12 R322): a numbered one in order and without error is taken, with its acknowledgement and credits, and its
own credit is due back; one that is not is discarded, and a replay is asked for once, unless it is a frame already taken. `kind` 0 good, 1 CRC error, 2 uncorrectable codeword, 3 IDLE. -/
def State.frameIn (s : State) (p kind : Nat) (vc1 : Bool) (lsn ack cr0 cr1 : Nat) : State :=
  if !s.portOk p then s
  else
    let q := s.port p
    -- a good frame that was taken before and is replayed
    let old := kind = 0 && decide (1 ≤ (q.rxLsn + 4096 - lsn % 4096) % 4096) && decide ((q.rxLsn + 4096 - lsn % 4096) % 4096 ≤ 2048)
    if old then s
    else if kind = 3 then ((s.setPort p (q.credit ack cr0 cr1)).count (0x190 + p) 2 1).pump p
    else if kind = 0 && lsn = q.rxLsn then
      let q' := { q.credit ack cr0 cr1 with rxLsn := (q.rxLsn + 1) % 4096, asked := none, ret0 := q.ret0 + b2n (!vc1), ret1 := q.ret1 + b2n vc1 }
      (((s.setPort p q').count (0x190 + p) 2 1).pump p).idleFrame p q.nextLsn
    else
      let q' := { (if q.asked = some q.rxLsn then q else q.sendLink (s.portAddr p) 1) with
        asked := some q.rxLsn, uncorr := if kind = 2 then q.uncorr + 1 else q.uncorr }
      let s := s.setPort p q'
      let s := if kind = 2 then (s.addSat (aSpnPortStatus p) 23 8 1).count (0x190 + p) 7 1 else s
      if 16 < q'.uncorr then s.portFail p 1 else s

/-- ARRIVE (12 R323, R331). -/
def State.arrive (s : State) (p faddr : Nat) (name : Word) : State :=
  if !s.portOk p then s else
  let s := s.spnEvent 1 0 p 0 faddr name
  s.pathList.foldl (fun s e => if e.2.2.faddr = faddr && e.2.2.pstate = 3 then s.startLogin e.1 e.2.1 else s) s

/-- DEPART (12 R323, R331). -/
def State.depart (s : State) (p faddr : Nat) : State :=
  if !s.portOk p then s else
  let s := s.spnEvent 2 0 p 0 faddr 0
  s.pathList.foldl (fun s e =>
    if e.2.2.faddr = faddr && e.2.2.pstate = 2 then s.pathFail e.1 e.2.1 else s) s

/-- The answer to a FABRIC login: an address of the fabric, or a peer port with its name, point to point (12 R323). -/
def State.fabricAnswer (s : State) (p : Nat) (peer : Bool) (v : Word) : State :=
  if !s.portOk p then s
  else if peer then
    let mine := if Config.moduleName < v.toNat then 1 else 2
    (s.setFld (aSpnPortStatus p) 47 24 mine).arrive p (3 - mine) v
  else s.setFld (aSpnPortStatus p) 47 24 (bits v 23 0)

/-! ### What partners send (12 R334, R335) -/

/-- A protocol error on a path: it is declared failed (12 R335). -/
def State.protocolError (s : State) (i k seq : Nat) : State := (s.protocolRaise i k seq).pathFail i k

/-- The ISSUED operation that a sequence number and epoch of a session name. -/
def State.findOp (s : State) (i seq epoch : Nat) : Option (Nat × Nat × JEnt) :=
  s.jents.find? fun e => e.2.2.state = 2 && e.2.2.session = i && e.2.2.seq = seq && e.2.2.epoch = epoch

/-- ANSWER (11 R313, R314, 12 R335). One whose data still waits for HUB_PMT_p waits with it. -/
def State.answer (s : State) (i k seq epoch count : Nat) (word : Word) : State :=
  match s.session i with
  | none => s
  | some x =>
    if x.sstate = 4 || !(x.path k).valid then s
    else
      let s := s.rxFrame i k
      match s.findOp i seq epoch with
      | none => s
      | some (p, slot, j) =>
        if subLen j.sub < count then s.protocolError i k seq
        else if !j.held.isEmpty then (if j.ans.isSome then s else s.setJent p slot { j with ans := some (count, word.toNat) })
        else s.ackOp p slot 0 false count word.toNat

/-- DATA of a READ (11 R298, R299, R532, 12 R335), in frames of 8,192 bytes and a remainder (12 R328). -/
def State.dataIn (s : State) (i k seq epoch frameNo : Nat) (bs : List Byte) : State :=
  match s.session i with
  | none => s
  | some x =>
    if x.sstate = 4 || !(x.path k).valid then s
    else
      let s := s.rxFrame i k
      match s.findOp i seq epoch with
      | none => s
      | some (p, slot, j) =>
        if subOp j.sub ≠ 1 then s
        else
          let room := subLen j.sub - 8192 * frameNo
          let s := if s.deferredFor p then s.setJent p slot { j with held := j.held ++ [(frameNo, bs.take room)] }
            else s.dataPut p slot frameNo (bs.take room)
          if room < bs.length then s.protocolError i k seq
          else if bs.length ≠ min 8192 room then s.protocolRaise i k seq else s

/-! ### At a tick boundary (01 R30, R31) -/

/-- An optional interval at a boundary: what is left of it, and whether it expired. -/
def ivalStep (tod period : Nat) : Option Ival → Option Ival × Bool
  | none => (none, false)
  | some i => match i.tick tod period with
    | none => (none, true)
    | some i => (some i, false)

/-- LOGIN unanswered for 2 ticks: resent, and after 5 sends the path fails (12 R330). -/
def State.loginTick (s : State) (tod period i k : Nat) : State :=
  match s.session i with
  | none => s
  | some x =>
    let p := x.path k
    let (iv, out) := ivalStep tod period p.login
    let s := s.updPath i k fun p => { p with login := iv }
    if !out then s
    else if 5 ≤ p.sends then s.pathFail i k
    else s.sendLogin i k

/-- A usable path with no frame for KA_TICKS fails (12 R331). -/
def State.kaTick (s : State) (tod period i k : Nat) : State :=
  match s.session i with
  | none => s
  | some x =>
    let (iv, out) := ivalStep tod period (x.path k).ka
    let s := s.updPath i k fun p => { p with ka := iv }
    if out then s.pathFail i k else s

/-- PATH_WAIT and RESUME_TICKS of a session (11 R312, R533). -/
def State.waitTick (s : State) (tod period i : Nat) : State :=
  match s.session i with
  | none => s
  | some x =>
    let (w, out1) := ivalStep tod period x.wait
    let (r, out2) := ivalStep tod period x.resume
    let n := if x.wait.isSome then min 65535 (x.noPathTicks + 1) else x.noPathTicks
    let s := s.setSession i (some { x with wait := w, resume := r, noPathTicks := n })
    if out1 || out2 then s.sessionGone i else s

/-- KEEPALIVE of a usable path that sent or received no frame in the ended tick (12 R332). -/
def State.keepalive (s : State) (i k : Nat) : State :=
  match s.session i with
  | none => s
  | some x =>
    let p := x.path k
    let quiet := p.pstate = 2 && !(p.tx && p.rx)
    let s := s.updPath i k fun p => { p with tx := false, rx := false }
    if quiet then s.sendCtl p.port 0x08 p.faddr i k [if 4 ≤ x.rev then x.ackMark else 0] else s

/-- Interval actions of the Span units at a boundary (action 2). -/
def State.spanTick (s : State) (tod period : Nat) : State :=
  let ps := s.pathList
  let s := s.sessionList.foldl (fun s e => s.waitTick tod period e.1) s
  let s := ps.foldl (fun s e => s.loginTick tod period e.1 e.2.1) s
  let s := ps.foldl (fun s e => s.kaTick tod period e.1 e.2.1) s
  let s := s.pathList.foldl (fun s e => s.keepalive e.1 e.2.1) s
  s.spn.ports.foldl (fun s e => s.setPort e.1 { s.port e.1 with uncorr := 0 }) s

/-- The event-queue interrupt (12 R324, action 3). -/
def State.spanInt (s : State) (w : Bool) : State :=
  if w && s.flag aSpnEvqCtl 62 then s.post (triOf (s.fld aSpnEvqCtl 57 53)) (s.fld aSpnEvqCtl 52 45) else s

end Sys2Proof.Machine
end

