-- ==== Sys2Proof/Machine/Pcie.lean ====
section
/-! DEFINITION. The PCIe root ports (12 R336 to R342). -/

namespace Sys2Proof.Machine
open Sys2Proof

/-- Is root port r of port n formed, by the division of the last training? -/
def State.rootOk (s : State) (n r : Nat) : Bool := rootFormed (smGet (fun _ => 0) s.pci.division n) r
/-- Is its link up? -/
def State.rootUp (s : State) (n r : Nat) : Bool := s.rootOk n r && s.pci.up.testBit (4 * n + r)

/-! ### Requester tables (12 R339) -/

/-- Entry of a requester ID in the table of its segment: cached or read; none where the segment's table is not valid or does not
answer. -/
def State.ridEntry (s : State) (seg rid : Nat) : State × Option Nat :=
  let k := 65536 * seg + rid
  let c := smGet (fun _ => 0) s.pci.rid k
  let a := s.fld (aPciRidt seg) 51 16 * 65536 + rid
  if !s.flag (aPciRidt seg) 63 then (s, none)
  else if c ≠ 0 then (s, some (c - 1))
  else if !s.memOk a || s.badByte a then (s, none)
  else
    let b := (s.byte a).toNat
    ({ s with pci := { s.pci with rid := smSet (fun _ => 0) s.pci.rid k (b + 1) } }, some b)

/-- The partition an entry gives, if it allows the request. -/
def ridPart (e : Nat) : Option Nat := if 1 ≤ e ∧ e ≤ 32 then some e else none

/-- Every cached entry of a segment is discarded. -/
def State.ridInv (s : State) (seg : Nat) : State :=
  { s with pci := { s.pci with rid := s.pci.rid.filter fun e => e.1 / 65536 ≠ seg } }

/-! ### Inbound requests (12 R339, R340) -/

/-- A refused request (12 R339): a root-port counter and PCI_DMA_REFUSED or PCI_MSI_REFUSED. -/
def State.pciRefuse (s : State) (n r src : Nat) (seg rid addr : Nat) : State :=
  (s.count (0x1B0 + 4 * n + r) 6 1).raise { src := srcRoot n r src, info0 := addr, idA := seg, idB := rid }

/-- First address of the message window. -/
def msgWindow : Nat := 0xFFFFFF00000

/-- A write to the message window (12 R340). -/
def State.message (s : State) (n r rid p addr : Nat) (data : List Byte) : State :=
  let off := addr - msgWindow
  let v := leNat data
  let t := triOf (off / 16)
  if data.length = 4 ∧ off % 16 = 0 ∧ off / 16 < 32 ∧ 48 ≤ v ∧ v < 256 ∧ bits (s.lp t).arch.part 5 0 = p then s.post t v
  else s.pciRefuse n r 4 n rid addr

/-- A request that translates as memory or as a device. `claim` is the requester ID of the function that claims a peer-to-peer
address. A read of memory leaves the first eight bytes in `bus`. -/
def State.inboundXlat (s : State) (n r rid p addr : Nat) (q : PciReq) (claim : Nat) : State :=
  let wr := match q with | .write _ => true | _ => false
  match s.hubEntry p (addr / 2 ^ 28) wr with
  | .error .bus => s
  | .error .poison => s
  | .error e => s.hubFail p addr e
  | .ok (e, read) =>
    let s := if read then s.hubKeep p (addr / 2 ^ 28) e else s
    if bits e 2 1 = 0 then
      match q with
      | .write data => match s.hubWr p addr data with | (s, _) => s
      | .read k => match s.hubRd p addr k with
        | (s, .ok bs) => { s with bus := w64 (leNat (bs.take 8)) }
        | (s, .error _) => s
      | _ => s
    else
      let a := pmtAbs e addr
      match s.devClaimedBy a with
      | none => s.pciRefuse n r 3 n rid addr
      | some (m, _) =>
        match s.ridEntry m claim with
        | (s, some b) => if b = p then s else s.pciRefuse n r 3 n rid addr
        | (s, none) => s.pciRefuse n r 3 n rid addr

/-- An inbound request of root port n.r (12 R337, R339). During a save the root ports withhold credits (10 R268); with its gate closed a port
does nothing (18 R468). -/
def State.inbound (s : State) (n r rid addr : Nat) (q : PciReq) (claim : Nat) : State :=
  if !s.rootUp n r || !s.running || !s.gateRuns (28 + n) then s
  else
    let u := 0x1B0 + 4 * n + r
    match q with
    | .intx => s.count u 5 1
    | .translate => s.count u 1 1
    | _ =>
      let s := s.count u 1 1
      match s.ridEntry n rid with
      | (s, none) => s.pciRefuse n r 3 n rid addr
      | (s, some b) =>
        match ridPart b with
        | none => s.pciRefuse n r 3 n rid addr
        | some p =>
          if 2 ^ 44 ≤ addr then s.pciRefuse n r 3 n rid addr
          else
            match q with
            | .write d =>
              if msgWindow ≤ addr ∧ addr < msgWindow + 65536 then s.message n r rid p addr d
              else s.inboundXlat n r rid p addr q claim
            | _ => s.inboundXlat n r rid p addr q claim

/-! ### Configuration requests (12 R338) -/

/-- The root port a configuration request goes to: on bus 0 the device number names it, elsewhere its bus range does (PCI
Express, log entry 11). -/
def State.cfgRoot (s : State) (a : Word) : Option Nat :=
  let n := bits a 41 40
  let bus := bits a 39 32
  (List.range 4).find? fun r => s.rootOk n r &&
    (if bus = 0 then bits a 31 27 = r && bits a 26 24 = 0
     else
      let w := s.rootCfg n r 6
      bits w 15 8 ≠ 0 && decide (bits w 15 8 ≤ bus) && decide (bus ≤ bits w 23 16))

/-- The end of a configuration request: STATUS, and DATA of a read (0xFFFF_FFFF where it failed). -/
def State.cfgDone (s : State) (write : Bool) (status : Nat) (data : Nat) : State :=
  let s := { s with pci := { s.pci with req := none } }
  let r := putBits (putBits (s.reg aPciCfgData) 63 63 0) 62 60 status
  s.setReg aPciCfgData (if write then r else putBits r 31 0 (if status = 0 then data else 0xFFFFFFFF))

/-- A configuration request is issued: one to no root port, or to one whose link is down, ends at once. -/
def State.cfgIssue (s : State) (write : Bool) : State :=
  let a := s.reg aPciCfgAddr
  let data := s.fld aPciCfgData 31 0
  match s.cfgRoot a with
  | none => s.cfgDone write 1 0
  | some r =>
    let n := bits a 41 40
    if bits a 39 32 ≠ 0 && !s.rootUp n r then s.cfgDone write 5 0
    else
      let s := s.setFld aPciCfgData 63 63 1
      { s with pci := { s.pci with req := some { write := write, seg := n, root := r, data := data, retryEnd := none } } }

/-- A write of PCI_CFG_ADDR: a configuration read is issued. -/
def State.pciCfgAddrWrite (s : State) (v : Word) : State :=
  if s.flag aPciCfgData 63 then s
  else (s.setReg aPciCfgAddr (w64 (v.toNat &&& 0x3FFFF00FFFC))).cfgIssue false

/-- A write of PCI_CFG_DATA: a configuration write is issued. -/
def State.pciCfgDataWrite (s : State) (v : Word) : State :=
  if s.flag aPciCfgData 63 then s
  else (s.setFld aPciCfgData 31 0 (bits v 31 0)).cfgIssue true

/-- Byte enables applied to a doubleword. -/
def beMerge (old new be : Nat) : Nat :=
  (List.range 4).foldl (fun acc i => acc + (if be.testBit i then new / 2 ^ (8 * i) % 256 else old / 2 ^ (8 * i) % 256) * 2 ^ (8 * i)) 0

/-- A configuration request completes, is retried, or times out (12 R338). A root port answers for its own header. -/
def State.cfgCompletion (s : State) (ans : CfgAnswer) : State :=
  match s.pci.req.filter fun q => s.gateRuns (28 + q.seg) with
  | none => s
  | some q =>
    let a := s.reg aPciCfgAddr
    let reg := bits a 11 2
    let own := bits a 39 32 = 0
    match ans with
    | .success d =>
      if own then
        let k := 1024 * (4 * q.seg + q.root) + reg
        let old := smGet (fun _ => 0) s.pci.cfg k
        if q.write then
          ({ s with pci := { s.pci with cfg := smSet (fun _ => 0) s.pci.cfg k (beMerge old q.data (bits a 15 12)) } }).cfgDone true 0 0
        else s.cfgDone false 0 old
      else s.cfgDone q.write 0 d.toNat
    | .unsupported => s.cfgDone q.write 1 0
    | .abort => s.cfgDone q.write 2 0
    | .timeout => s.cfgDone q.write 4 0
    | .retry =>
      if q.write then s.cfgDone true 3 0
      else
        match q.retryEnd with
        | none => { s with pci := { s.pci with req := some { q with retryEnd := some (s.tod + 256000000) } } }
        | some e => if e ≤ s.tod then s.cfgDone false 3 0 else s

/-- The link of root port n.r goes down, as far as the root port itself is concerned (12 R341). -/
def State.rootDown (s : State) (n r : Nat) : State :=
  if !s.rootUp n r then s
  else
    let s := { s with pci := { s.pci with up := s.pci.up - 2 ^ (4 * n + r) } }
    let s := s.raise { src := srcRoot n r 0, idA := 4 * n + r }
    match s.pci.req with
    | some q => if q.seg = n && q.root = r then s.cfgDone q.write 5 0 else s
    | none => s

end Sys2Proof.Machine
end

