-- ==== Sys2Proof/Machine/Partition.lean ====
section
/-! DEFINITION. Partitions (15): Sealed mode, L3 way quotas, bandwidth reservations, dedicated engines, moving an LP. -/

namespace Sys2Proof.Machine
open Sys2Proof

/-- Partition numbers. -/
def allParts : List Nat := (List.range 32).map (· + 1)

/-! ### Register writes (15 R416, R417, R419) -/

/-- Memory capacity in transfers per tick (15 R417). -/
def State.memCapacity (s : State) : Nat := s.tick.period * 625 * s.mapLinks.length / 256
/-- Span capacity in KiB per port per tick (15 R417). -/
def State.spanCapacity (s : State) : Nat := s.tick.period * 50000 / 262144

/-- The partition registers as they would stand: CFG, L3Q and RES by partition. -/
structure PartRegs where
  cfg : Nat → Word
  l3q : Nat → Word
  res : Nat → Word

/-- The partition registers as they stand. -/
def State.partRegs (s : State) : PartRegs :=
  { cfg := fun p => s.reg (aHubPartCfg p), l3q := fun p => s.reg (aHubPartL3q p), res := fun p => s.reg (aHubPartRes p) }

/-- A way mask. -/
def wayMask (w : Word) (d : Nat) : Nat := bits w (16 * d + 15) (16 * d)

/-- Do the quotas of Sealed partitions break 15 R416? -/
def PartRegs.quotaBad (r : PartRegs) : Bool :=
  let sealed := allParts.filter fun p => bit (r.cfg p) 63
  sealed.any fun p => (List.range 4).any fun d =>
    wayMask (r.l3q p) d = 0 || sealed.any fun q => q ≠ p && (wayMask (r.l3q p) d &&& wayMask (r.l3q q) d) ≠ 0

/-- Do the reservations of Sealed partitions exceed a capacity (15 R417)? -/
def PartRegs.resBad (r : PartRegs) (mem span : Nat) : Bool :=
  let sealed := allParts.filter fun p => bit (r.cfg p) 63
  decide (mem < (sealed.map fun p => bits (r.res p) 23 0).foldl (· + ·) 0)
    || decide (span < (sealed.map fun p => bits (r.res p) 39 24).foldl (· + ·) 0)

/-- Is a unit dedicated to two partitions (15 R419)? -/
def PartRegs.dedBad (r : PartRegs) : Bool :=
  allParts.any fun p => allParts.any fun q => q ≠ p && (bits (r.cfg p) 47 32 &&& bits (r.cfg q) 47 32) ≠ 0

/-- A refused write (15 R416). -/
def State.cfgBad (s : State) : State := s.setFld aHubPartStatus 1 1 1

/-- A value of a function at one place. -/
def updAt (f : Nat → Word) (p : Nat) (v : Word) : Nat → Word := fun q => if q = p then v else f q

/-- A write of HUB_PART_CFG_p (15 R415 to R419). -/
def State.partCfgWrite (s : State) (p : Nat) (v : Word) : State :=
  let v := w64 (v.toNat &&& 0x8000FFFF00000000)
  let r := { s.partRegs with cfg := updAt s.partRegs.cfg p v }
  if r.dedBad || (bit v 63 && (r.quotaBad || !s.flag aMemMap 63 || r.resBad s.memCapacity s.spanCapacity)) then s.cfgBad
  else s.setReg (aHubPartCfg p) v

/-- A write of HUB_PART_L3Q_p (15 R416). -/
def State.partL3qWrite (s : State) (p : Nat) (v : Word) : State :=
  if PartRegs.quotaBad { s.partRegs with l3q := updAt s.partRegs.l3q p v } then s.cfgBad else s.setReg (aHubPartL3q p) v

/-- A write of HUB_PART_RES_p (15 R417). -/
def State.partResWrite (s : State) (p : Nat) (v : Word) : State :=
  let v := w64 (v.toNat &&& 0xFFFFFFFFFF)
  if !s.flag aMemMap 63 || PartRegs.resBad { s.partRegs with res := updAt s.partRegs.res p v } s.memCapacity s.spanCapacity then s.cfgBad
  else s.setReg (aHubPartRes p) v

/-! ### Units a partition may use (15 R419) -/

/-- Units dedicated to partition p: compression engines, or cipher pipelines. Only SEALED waits for a tick boundary (15 R415). -/
def State.dedMask (s : State) (cph : Bool) (p : Nat) : Nat :=
  if cph then s.fld (aHubPartCfg p) 47 40 else s.fld (aHubPartCfg p) 39 32

/-- May a request of partition p run on unit u? -/
def State.mayUse (s : State) (cph : Bool) (p u : Nat) : Bool :=
  if s.dedMask cph p ≠ 0 then (s.dedMask cph p).testBit u
  else !s.sealed p && !(allParts.any fun q => (s.dedMask cph q).testBit u)

/-! ### At a tick boundary -/

/-- Reservations honoured in ascending order, skipping each that does not fit in what remains (15 R418). -/
def honour (res : Nat → Nat) : List Nat → Nat → Nat
  | [], _ => 0
  | p :: r, left => if res p ≤ left then 2 ^ p + honour res r (left - res p) else honour res r left

/-- The slots of the next tick for a reservation of n, and what is still owed after it (15 R417, 01 R32). -/
def refillOf (m : SMap Nat × SMap Nat) (k n : Nat) : SMap Nat × SMap Nat :=
  let o := smGet (fun _ => 0) m.2 k
  (smSet (fun _ => 0) m.1 k (n - o), smSet (fun _ => 0) m.2 k (o - n))

/-- RESERVATION_REFILL: every honoured reservation is laid out again (15 R417; DESIGN CHOICE, log entry 37). -/
def State.refillSlots (s : State) : State :=
  let mem := (allParts.filter s.part.honMem.testBit).foldl (fun m p => refillOf m p (s.fld (aHubPartRes p) 23 0)) ([], s.part.memOwed)
  let span := (allParts.filter s.part.honSpan.testBit).foldl (fun m p =>
    (List.range 32).foldl (fun m k => refillOf m (64 * p + k) (s.fld (aHubPartRes p) 39 24 * 1024)) m) ([], s.part.spanOwed)
  { s with part := { s.part with memLeft := mem.1, memOwed := mem.2, spanLeft := span.1, spanOwed := span.2 } }

/-- The check of 15 R418. -/
def State.overcommit (s : State) : State :=
  let sealed := allParts.filter s.sealed
  let mem := fun p => s.fld (aHubPartRes p) 23 0
  let span := fun p => s.fld (aHubPartRes p) 39 24
  let hm := honour mem sealed s.memCapacity
  let hs := honour span sealed s.spanCapacity
  let all := (sealed.map fun p => 2 ^ p).foldl (· + ·) 0
  let s := State.refillSlots { s with part := { s.part with honMem := hm, honSpan := hs } }
  let s := if hm ≠ all then (s.setFld aHubPartStatus 3 3 1).raise { src := 0x4CD, info0 := all - hm, idA := 0 } else s
  if hs ≠ all then (s.setFld aHubPartStatus 3 3 1).raise { src := 0x4CD, info0 := all - hs, idA := 1 } else s

/-- Does an LP count against condition 3 of 15 R413? One that is held stopped (06 R173) does not. -/
def State.lpOpen (s : State) (n : Tri) : Bool :=
  let m := s.mode n
  (s.lp n).released && decide (1 ≤ m) && decide (m ≤ 4) && !(m = 4 && s.held n) && !s.halted n && !(s.lp n).waiting && !s.lpSealed n

/-- Condition 3 of 15 R413 is checked for every die (15 R421). -/
def State.breachCheck (s : State) : State :=
  (List.finRange 4).foldl (fun s d =>
    if (dieTri d).any fun n => s.mode n ≠ 0 && s.lpSealed n then
      match (dieTri d).find? s.lpOpen with
      | some n => (s.setFld aHubPartStatus 2 2 1).raise { src := 0x4CC, idA := d.val, unit := n.val, part := s.partOf n }
      | none => s
    else s) s

/-- Every line of a triad's L2 is cleaned and invalidated with its L1s (15 R420). -/
def State.flushL2 (s : State) (n : Tri) : State :=
  let lines := ((s.lp n).l2.ways.map fun e => e.2.line) ++ (s.lp n).vbuf.map (·.line)
  let s := lines.foldl (fun s line => (s.writeBack line).l3Clean (dieOf n) line) s
  s.updLp n fun l => { l.cores (fun c => { c with l1i := [], l1d := [] }) with l2 := { l.l2 with ways := [] }, vbuf := [] }

/-- LPs stopped by a move go on in their new partition (15 R420). -/
def State.moveEnd (s : State) : State :=
  allTri.foldl (fun s n =>
    if (s.lp n).stopTick then (s.flushL2 n).updLp n fun l => { l with stopTick := false } else s) s

/-- Quotas that changed: lines in ways that left the mask of a Sealed partition are cleaned and invalidated (15 R416). -/
def State.quotaClean (s : State) (old new : Nat → Word) : State :=
  (List.finRange 4).foldl (fun s d =>
    let gone := fun w => allParts.any fun p =>
      s.sealed p && (wayMask (old p) d.val).testBit w && !(wayMask (new p) d.val).testBit w
    ((s.l3Of d).ways.filter fun e => gone (e.1 % 16)).foldl (fun s e => s.cleanInvLine e.2.line) s) s

/-- Partition settings take effect (15 R415, R416). -/
def State.partApply (s : State) : State :=
  let cfg := allParts.foldl (fun m p => smSet (fun _ => 0) m p (s.reg (aHubPartCfg p))) []
  let l3q := allParts.foldl (fun m p => smSet (fun _ => 0) m p (s.reg (aHubPartL3q p))) []
  let s := s.quotaClean (smGet (fun _ => 0) s.part.l3q) (smGet (fun _ => 0) l3q)
  { s with part := { s.part with cfg := cfg, l3q := l3q } }

/-- Partition actions at a boundary. -/
def State.partTick (s : State) : State := ((s.partApply.moveEnd).overcommit).breachCheck

end Sys2Proof.Machine
end

