-- ==== Sys2Proof/Machine/CmpEngine.lean ====
section
/-! DEFINITION. Compression requests (13 R344 to R350, R366 to R375): the request block and its checks, the context area, slices of
ring requests, and their results. -/

namespace Sys2Proof.Machine
open Sys2Proof

/-! ### The request block (13 R347, R348) -/

/-- FORMAT is CSF. -/
def ctlCsf (w : Word) : Bool := bits w 7 4 = 1
/-- DIR: decompress. -/
def ctlDec (w : Word) : Bool := bit w 0

/-- Bits of word 0x00 that are not Reserved for a direction; ring requests have no DIR bit. A WRAP beside CSF and a STRIDE beside
another predictor are unassigned values (13 R348), not Reserved ones. -/
def ctlMask (ring dec : Bool) (w : Word) : Nat :=
  let num := ctlCsf w && bits w 17 16 = 0
  0x10000FF0 + b2n (!ring)
    + (if dec then 0 else 0x0C000000)
    + (if !dec && ctlCsf w then 0x00FF000000030000 else 0)
    + (if !dec && num then 0x0000FFFF00EC0000 else 0)

/-- Is every Reserved field of bytes 0x00 to 0x3F zero (13 R349 step 2)? -/
def cmpReservedOk (ring dec : Bool) (b : List Word) : Bool :=
  let m := fun i (k : Nat) => (subW b i).toNat &&& (2 ^ 64 - 1 - k) = 0
  let a := if ring then 0xFFFFFFFFFFFFFFFF else 0
  m 0 (ctlMask ring dec (subW b 0)) && m 1 a && m 2 a && m 3 a && m 4 (if dec then 0 else 0xFFFFFFFFFFFFFFFF) && m 7 0

/-- Does the request hold an unassigned value (13 R348)? -/
def cmpUnassigned (dec : Bool) (w : Word) : Bool :=
  let csf := ctlCsf w
  let num := csf && !dec && bits w 17 16 = 0
  let pred := bits w 23 21
  let blk := bits w 55 48
  decide (2 ≤ bits w 7 4) || decide (3 ≤ bits w 11 8) || (csf && bits w 11 8 ≠ 0)
    || (!dec && bits w 27 26 = 3)
    || (csf && !dec && ((decide (1 ≤ blk) && decide (blk ≤ 11)) || decide (20 < blk) || decide (2 ≤ bits w 17 16)))
    || (num && (pred = 5 || pred = 6
      || (if pred = 3 then bits w 47 32 = 0 || decide (32768 < bits w 47 32 * 2 ^ bits w 19 18) else
          bits w 47 32 ≠ 0)))

/-- The codec of a first start. -/
def codecStart (dec : Bool) (w : Word) (limit : Nat) : Codec :=
  if dec then .dec (Dec.start (ctlCsf w) (bits w 11 8))
  else .comp (Comp.start (ctlCsf w) (bits w 11 8) (bits w 27 26) (bits w 17 16) (bits w 19 18) (bits w 23 21) (bits w 47 32)
    (bits w 55 48) limit)

/-- CTL: word 0x00 with RESUME = 0 and DIR (13 R369). -/
def ctlWord (dec : Bool) (w : Word) : Word := putBits (putBits w 28 28 0) 0 0 (b2n dec)

/-- The limit of a first start (13 R366). -/
def cmpLimit (dec : Bool) (b : List Word) (srcLen : Nat) : Nat :=
  if dec then 0 else if subW b 4 ≠ 0 then (subW b 4).toNat else srcLen

/-! ### Codec totals -/

/-- OUT_TOTAL. -/
def Codec.outTotal : Codec → Nat
  | .dec d => d.outTotal
  | .comp c => c.outTotal
/-- IN_TOTAL. -/
def Codec.inTotal : Codec → Nat
  | .dec d => d.inTotal
  | .comp c => c.inTotal + c.ahead.length
/-- Running CRC-32C of the original data. -/
def Codec.crc : Codec → Nat
  | .dec d => d.crc
  | .comp c => c.crc
/-- Running wrapper check. -/
def Codec.wchk : Codec → Nat
  | .dec d => d.wchk
  | .comp c => c.wchk
/-- Source bytes taken ahead of the output. -/
def Codec.ahead : Codec → List Byte
  | .dec _ => []
  | .comp c => c.ahead
/-- Bytes of history, newest first. -/
def Codec.hist : Codec → List Byte
  | .dec d => d.hist
  | .comp c => c.hist

/-- Words 0x40 to 0x78 of the request block (13 R347). -/
def cmpResults (ctl : Word) (c : Codec) (detail : Nat) : List Word :=
  let wrap := if ctlCsf ctl then 0 else bits ctl 11 8
  let w := if wrap = 1 then c.wchk else if wrap = 2 then c.wchk ^^^ 0xFFFFFFFF else 0
  [w64 c.outTotal, w64 c.inTotal, w64 ((c.crc ^^^ 0xFFFFFFFF) * 2 ^ 32 + w), w64 detail, 0, 0, 0, 0]

/-! ### The context area (13 R369 to R371) -/

/-- Phases of the decoder in the order of the engine's own index (DESIGN CHOICE, log entry 12). -/
def allDPh : List DPh :=
  [.zlib, .gzFix, .gzXlen, .gzExtra, .gzName, .gzComment, .gzHcrc, .bhdr, .stLen, .stBody, .dynCnt, .dynCl, .dynLen, .body, .wAdler,
   .wCrc, .wIsize, .csfH0, .csfH1, .cb0, .cb1, .cb2, .cb3, .btype, .nTab, .nSym, .nExtra, .csfEnd, .cCrc, .csfT0, .csfT1, .csfT2,
   .done]

/-- PHASE of a decoder (13 R369). -/
def dphPhase : DPh → Nat
  | .zlib | .gzFix | .gzXlen | .gzExtra | .gzName | .gzComment | .gzHcrc | .csfH0 | .csfH1 => 0
  | .bhdr | .stLen | .cb0 | .cb1 | .cb2 | .cb3 | .btype => 1
  | .dynCnt | .dynCl | .dynLen | .nTab => 2
  | .stBody | .body | .nSym | .nExtra => 3
  | .csfEnd | .cCrc => 4
  | .wAdler | .wCrc | .wIsize | .csfT0 | .csfT1 | .csfT2 | .done => 5

/-- Phases of the compressor. -/
def allCPh : List CPh := [.head, .block, .table, .body, .blockEnd, .tail, .done]
/-- PHASE of a compressor. -/
def cphPhase : CPh → Nat
  | .head => 0
  | .block => 1
  | .table => 2
  | .body => 3
  | .blockEnd => 4
  | .tail | .done => 5

/-- Nibbles as a number, the first lowest. -/
def nibbles (l : List Nat) : Nat := l.foldr (fun x acc => x % 16 + 16 * acc) 0
/-- k nibbles of a number. -/
def unNibbles (k v : Nat) : List Nat := (List.range k).map fun i => v / 16 ^ i % 16

/-- Bytes of history that a resumed request can need (13 R370). -/
def Codec.histLen : Codec → Nat
  | .dec d =>
    if d.csf then
      (match d.ph with
        | .body => min 32768 (min d.blkDone d.outTotal)
        | .nSym | .nExtra => min (min 32768 d.blkDone) (max 2 d.stride * 2 ^ d.width)
        | _ => 0)
    else min 32768 d.outTotal
  | .comp c => min 32768 (c.ahead.length +
    if c.csf then
      (if c.ph ≠ .body || c.mode = 0 then 0
       else if c.bkind = 0 then min (min 32768 c.blkDone) (max 2 c.stride * 2 ^ c.width)
       else min 32768 c.blkDone)
    else min 32768 c.inTotal)

/-- The engine's own words of a context (DESIGN CHOICE, log entry 12). -/
def engineWords : Codec → List Nat
  | .dec d =>
    let part := nibbles d.part
    [(allDPh.findIdx fun p => p = d.ph), d.a, d.b, d.c,
     b2n d.final + 2 * b2n d.dyn + 4 * d.kind + 16 * d.pred + 128 * d.width + 65536 * d.stride, d.coded, d.taken, d.blkCrc, d.sum,
     nibbles d.cl % 2 ^ 64, nibbles d.cl / 2 ^ 64, d.cl.length + 256 * d.part.length + 2 ^ 20 * d.lens.length]
      ++ (List.range 20).map fun i => part / 2 ^ (64 * i) % 2 ^ 64
  | .comp c =>
    [(allCPh.findIdx fun p => p = c.ph), c.mode + 4 * c.bkind + 16 * c.bpred + 128 * b2n c.last, c.blkCrc, c.lens.length, c.ahead.length]

/-- Doublewords 0 to 126 of a context (13 R369). -/
def ctxWords (ctl : Word) (limit : Nat) (c : Codec) : List Word :=
  let tbl := fun (lens : List Nat) => let v := nibbles lens; (List.range 32).map fun i => w64 (v / 2 ^ (64 * i) % 2 ^ 64)
  let eng := engineWords c
  let pre := fun (dec : Bool) (phase done len buf : Nat) (pend pval p1 p2 elem : Nat) =>
    [putBits (putBits (putBits 0 63 63 1) 56 56 (b2n dec)) 55 48 phase, ctl, w64 limit, w64 c.outTotal, w64 c.inTotal,
     w64 (c.crc * 2 ^ 32 + (if ctlCsf ctl || bits ctl 11 8 = 0 then 0 else c.wchk)), w64 (done % 2 ^ 32 * 2 ^ 32 + len % 2 ^ 32), w64 buf,
     w64 pend, w64 pval, w64 c.histLen, w64 p1, w64 p2, w64 elem] ++ List.replicate 18 (0 : Word)
  let head := match c with
    | .dec d =>
      let back := fun k => if d.ph = .nSym || d.ph = .nExtra then elemBack d.hist (2 ^ d.width) d.elem k else 0
      pre true (dphPhase d.ph) d.blkDone d.blkLen d.buf (d.plen * 2 ^ 32 + d.pdist % 2 ^ 16 * 2 ^ 16 + d.pkind * 2 ^ 8 + d.n) d.pval
        (back 1) (back 2) d.elem ++ tbl d.lens
    | .comp k =>
      let num := k.csf && k.bkind = 0 && k.mode ≠ 0
      let el := if num then k.blkDone / 2 ^ k.width else 0
      let back := fun i => if num then elemBack k.hist (2 ^ k.width) el i else 0
      pre false (cphPhase k.ph) k.blkDone k.blkLen k.buf k.n 0 (back 1) (back 2) el ++ tbl k.lens
  head ++ (List.range 63).map fun i => w64 (eng.getD i 0)

/-- The context as bytes, with its CRC (13 R369). -/
def ctxBytes (ctl : Word) (limit : Nat) (c : Codec) : List Byte :=
  let bs := bytesOf (ctxWords ctl limit c)
  bs ++ leBytes 8 (crc32c bs)

/-- The history to write with a context, the most recent byte last (13 R370). -/
def Codec.histBytes (c : Codec) : List Byte := ((c.ahead.reverse ++ c.hist).take c.histLen).reverse

/-- Does a context serve a request (13 R371)? -/
def ctxValid (bs : List Byte) (ctl : Word) (reqLimit limit : Nat) : Bool :=
  let ws := wordsOf 128 bs
  bit (subW ws 0) 63 && (subW ws 127).toNat % 2 ^ 32 = crc32c (bs.take 1016) && subW ws 1 = ctl
    && (reqLimit = 0 || (subW ws 2).toNat = limit)

/-- The codec that a context and its history describe (13 R371). -/
def codecOf (bs : List Byte) (hist : List Byte) : Codec :=
  let ws := wordsOf 128 bs
  let w := subW ws
  let ctl := w 1
  let e := fun i => (w (64 + i)).toNat
  let h := hist.reverse
  let tblV := leNat ((bs.drop 256).take 256)
  if bit (w 0) 56 then
    let nums := e 11
    .dec { Dec.start (ctlCsf ctl) (bits ctl 11 8) with
      ph := allDPh.getD (e 0) .done, buf := (w 7).toNat, n := bits (w 8) 5 0
      lens := unNibbles (nums / 2 ^ 20) tblV
      part := unNibbles (nums / 256 % 4096) (leNat ((bs.drop (8 * 76)).take 160))
      cl := unNibbles (nums % 256) (e 9 + e 10 * 2 ^ 64)
      final := e 4 % 2 = 1, dyn := e 4 / 2 % 2 = 1, kind := e 4 / 4 % 4, pred := e 4 / 16 % 8, width := e 4 / 128 % 4
      stride := e 4 / 65536, a := e 1, b := e 2, c := e 3, coded := e 5, taken := e 6, blkCrc := e 7, sum := e 8
      blkLen := bits (w 6) 31 0, blkDone := bits (w 6) 63 32
      pkind := bits (w 8) 15 8, plen := bits (w 8) 52 32, pdist := bits (w 8) 31 16, pval := (w 9).toNat
      elem := (w 13).toNat, outTotal := (w 3).toNat, inTotal := (w 4).toNat, crc := bits (w 5) 63 32
      wchk := if ctlCsf ctl || bits ctl 11 8 = 0 then 0xFFFFFFFF else bits (w 5) 31 0, hist := h }
  else
    match codecStart false ctl (w 2).toNat with
    | .comp c => .comp { c with
        ph := allCPh.getD (e 0) .done, buf := (w 7).toNat, n := bits (w 8) 5 0
        mode := e 1 % 4, bkind := e 1 / 4 % 4, bpred := e 1 / 16 % 8, last := e 1 / 128 % 2 = 1
        lens := unNibbles (e 3) tblV, blkLen := bits (w 6) 31 0, blkDone := bits (w 6) 63 32, blkCrc := e 2
        outTotal := (w 3).toNat, inTotal := (w 4).toNat - e 4, crc := bits (w 5) 63 32
        wchk := if ctlCsf ctl || bits ctl 11 8 = 0 then 0xFFFFFFFF else bits (w 5) 31 0
        ahead := (h.take (e 4)).reverse, hist := h.drop (e 4) }
    | x => x

/-! ### Running a codec -/

/-- Source bytes that a compressor must see to take `k` more: the rest of the open block and the blocks after it. -/
def Comp.needBytes (c : Comp) (k : Nat) : Nat :=
  let rest := if c.ph = .table || c.ph = .body then c.blkLen - c.blkDone else 0
  let b := if c.csf then 2 ^ c.blkLog else 65536
  if k ≤ rest then rest else rest + ((k - rest + b - 1) / b) * b

/-- How a stretch of a codec's work ends. -/
inductive Stretch where
  /-- More to do: the stretch is used up. -/
  | more
  | over (status detail : Nat)
  deriving DecidableEq, Repr

/-- A stretch of work: the codec after it, source bytes consumed, output, and how it ended. `src` are the source bytes at hand,
`beyond` how many follow, `room` the bytes of output it may make, `last` whether the destination ends there, `stop` the source
bytes after which a compressor pauses. -/
def Codec.work (c : Codec) (src : List Byte) (beyond room : Nat) (last : Bool) (stop : Nat) : Codec × Nat × List Byte × Stretch :=
  match c with
  | .dec d =>
    let fin := fun (r : DRun) (e : Stretch) => (Codec.dec r.d, r.d.inTotal - d.inTotal, r.out.reverse, e)
    match ({ d := d, src := src, room := room, out := [] } : DRun).run (decide (0 < beyond)) with
    | .fin r s t => fin r (.over s t)
    | .full r => fin r (if last then .over 0x20 0 else .more)
    | .need r => fin r (if 0 < beyond then .more else .over 0x23 6)
    | .go r => fin r .more
  | .comp k =>
    let (r, e) := ({ c := k, src := src, beyond := beyond, room := room, out := [] } : CRun).run (k.inTotal + stop)
    (.comp r.c, r.c.inTotal - k.inTotal, r.out.reverse,
      match e with
      | .done => .over 0 0
      | .full => .over 0x20 0
      | .notShrunk => .over 0x21 0
      | .unit => .more)

/-! ### Ring requests -/

/-- Availability as CMP_STATUS shows it: enabled, not failed, its gate open and its group not commanded OFF or absent; an idle group
counts as available (13 R375, 18 R469, R471, R473). -/
def State.cmpAvail (s : State) (e : Nat) : Bool :=
  s.flag aCmpCfg e && !s.flag aCmpStatus (8 + e) && s.gateOpen e && s.domUsable (44 + e / 4)

/-- Residents of an engine. -/
def State.cmpRes (s : State) (e : Nat) : List CmpReq := smGet (fun _ => []) s.cmp.engines e
/-- Set the residents of an engine. -/
def State.setCmpRes (s : State) (e : Nat) (l : List CmpReq) : State :=
  { s with cmp := { s.cmp with engines := smSet (fun _ => []) s.cmp.engines e l } }

/-- Completion of an engine request (11 R303, 13 R350). -/
def State.engineDone (s : State) (r : EngReq) (status result aux : Nat) : State :=
  let ts := subTs r.sub
  s.complete r.ring { tag := r.tag, status := status, flags := cqFlags r.warm ts false false, jslot := 0, result := result, aux := aux
                      ts := ts, req := some r }

/-- The unit with the fewest residents among those at hand, the lowest on a tie. -/
def leastLoaded (load : Nat → Nat) (us : List Nat) : Option Nat :=
  us.foldl (fun b u => match b with
    | none => some u
    | some b => if load u < load b then some u else some b) none

/-- A queued request goes to the available engine with the fewest residents; with none available it ends (13 R344, R375). -/
def State.cmpPlace (s : State) : State :=
  match s.cmp.queue with
  | [] => s
  | r :: rest =>
    let us := (List.range 8).filter fun e => s.cmpAvail e && s.mayUse false r.part e
    let s' := { s with cmp := { s.cmp with queue := rest } }
    if us.isEmpty then
      let s' := s'.raise { src := 0x4CE, part := r.part }
      (s'.hubWr r.part (subParam r.sub + 64) (bytesOf (cmpResults 0 (codecStart false 0 0) 0x40))).1.engineDone r 0x7F 0 0
    else match leastLoaded (fun e => (s.cmpRes e).length) (us.filter fun e => decide ((s.cmpRes e).length < 8)) with
      | none => s
      | some e => (s'.wakeDom (44 + e / 4)).setCmpRes e (s.cmpRes e ++
          [{ req := r, blk := [], codec := none, ctl := 0, limit := 0, src := 0, srcLen := subLen r.sub, dst := 0, dstLen := 0, wrote := 0
             used := 0, needHist := 0 }])

/-- Does the range translate for the request's partition? -/
def State.ringXlat (s : State) (p a n : Nat) (write : Bool) : State × Bool :=
  match s.checkPieces p write [(a, n)] with
  | (s, none) => (s, true)
  | (s, some _) => (s, false)

/-- Checks of a ring request in the order of 13 R349: the request, with its block once that translates, and the status and DETAIL of a
failure. -/
def State.cmpCheck (s : State) (q : CmpReq) : State × CmpReq × Option (Nat × Nat) :=
  let p := q.req.part
  let a := subParam q.req.sub
  let dec := subOp q.req.sub = 0x11
  match s.hubRd p a 64 with
  | (s, .error st) => (s, q, some (st, if st = 0x7F then 0x40 else 0))
  | (s, .ok bs) =>
    match s.ringXlat p (a + 64) 64 true with
    | (s, false) => (s, q, some (0x50, 0))
    | (s, true) =>
      let b := wordsOf 8 bs
      let w := subW b 0
      let q := { q with blk := b, ctl := ctlWord dec w, limit := cmpLimit dec b q.srcLen
                        src := (subW b 1).toNat, dst := (subW b 2).toNat, dstLen := (subW b 3).toNat }
      let ctx := (subW b 5).toNat
      let hist := (subW b 6).toNat
      if !cmpReservedOk true dec b then (s, q, some (0x11, 0))
      else if cmpUnassigned dec w then (s, q, some (0x12, 0x30))
      else
        let (s, res) :=
          if bit w 28 then
            if ctx = 0 then (s, Except.error (0x23, 0x20))
            else match s.hubRd p ctx 1024 with
              | (s, .error st) => (s, .error (st, 0))
              | (s, .ok cs) =>
                if !ctxValid cs q.ctl (subW b 4).toNat q.limit then (s, .error (0x23, 0x20))
                else
                  let n := min 32768 (subW (wordsOf 128 cs) 10).toNat
                  match (if hist = 0 then (s, .ok []) else s.hubRd p hist n) with
                  | (s, .error st) => (s, .error (st, 0))
                  | (s, .ok hs) => (s, .ok { q with codec := some (codecOf cs hs), limit := (subW (wordsOf 128 cs) 2).toNat })
          else (s, .ok { q with codec := some (codecStart dec q.ctl q.limit) })
        match res with
        | .error e => (s, q, some e)
        | .ok r =>
          let (s, ok1) := if ctx = 0 then (s, true) else s.ringXlat p ctx 1024 true
          let (s, ok2) := if !ok1 || hist = 0 then (s, ok1) else s.ringXlat p hist 32768 true
          let (s, ok3) := if !ok2 then (s, false) else s.ringXlat p q.src 1 false
          let (s, ok4) := if !ok3 then (s, false) else s.ringXlat p (q.src + q.srcLen - 1) 1 false
          let (s, ok5) := if !ok4 || q.dstLen = 0 then (s, ok4) else s.ringXlat p q.dst 1 true
          let (s, ok6) := if !ok5 || q.dstLen = 0 then (s, ok5) else s.ringXlat p (q.dst + q.dstLen - 1) 1 true
          if ok6 then (s, r, none) else (s, q, some (0x50, 0))

/-- VALID of a context is cleared (13 R371). -/
def State.ctxClear (s : State) (p ctx : Nat) : State :=
  match s.hubRd p (ctx + 7) 1 with
  | (s, .ok [b]) => (s.hubWr p (ctx + 7) [b &&& 0x7F]).1
  | (s, _) => s

/-- The context and the history of a ring request are written (13 R369, R370). -/
def State.ctxStore (s : State) (q : CmpReq) (c : Codec) : State :=
  let p := q.req.part
  let ctx := (subW q.blk 5).toNat
  let hist := (subW q.blk 6).toNat
  let s := if ctx = 0 then s else (s.hubWr p ctx (ctxBytes q.ctl q.limit c)).1
  if hist = 0 then s else (s.hubWr p hist c.histBytes).1

/-- The bytes at the addresses become undefined (13 R366): free values. -/
def State.spoil (s : State) (addrs : List Nat) : State :=
  let (k, s) := s.draw
  s.hubWrite (addrs.zipIdx.map fun e => (e.1, Config.freeByte k e.2))

/-- A ring request ends: results into its block, unless that does not translate, its context settled, its completion (13 R350, R366,
R371); after NOT_SHRUNK the destination bytes that it wrote are undefined. Where the source ends inside the stream, and where an increment no
longer translates, the context is not written (13 R372). -/
def State.cmpEnd (s : State) (e : Nat) (q : CmpReq) (status detail : Nat) : State :=
  let s := s.setCmpRes e ((s.cmpRes e).filter fun x => decide (x ≠ q))
  let p := q.req.part
  let c := q.codec.getD (codecStart false 0 0)
  let s := if status = 0x21 ∧ q.wrote ≠ 0 then s.spoil ((List.range q.wrote).filterMap fun i =>
      let a := q.dst - q.wrote + i
      (s.hubInc p (a / 2 ^ 28) true).map (pmtAbs · a)) else s
  let s := if q.blk.isEmpty && status = 0x50 then s
    else (s.hubWr p (subParam q.req.sub + 64) (bytesOf (cmpResults q.ctl c detail))).1
  let s := match q.codec with
    | none => s
    | some c =>
      if status = 0x20 then s.ctxStore q c
      else if subW q.blk 5 = 0 || (status = 0x23 && detail = 6) then s
      else s.ctxClear p (subW q.blk 5).toNat
  let s := (s.count (0x1C0 + e) 3 1).count (0x260 + p) 5 q.used
  let s := if status = 0x21 then s.count (0x1C0 + e) 5 1 else if status = 0x20 then s.count (0x1C0 + e) 4 1 else s
  let crc := if q.codec.isSome then c.crc ^^^ 0xFFFFFFFF else 0
  if status = 0x21 then s.engineDone q.req status 0 0
  else s.engineDone q.req status q.wrote (q.used % 2 ^ 32 + crc * 2 ^ 32)

/-- The resident served next: real-time rings first (13 R344). -/
def nextRes (l : List CmpReq) : Option CmpReq := match l.find? (·.req.rt) with | some q => some q | none => l.head?

/-- A stretch of a slice: up to 64 KiB of source, and at most `left` bytes of decompression output; the request after it, and its status and
DETAIL if it is over. -/
def State.cmpStretch (s : State) (q : CmpReq) (c : Codec) (left : Nat) : State × CmpReq × Option (Nat × Nat) :=
  let p := q.req.part
  let n := match c with
    | .comp k => min q.srcLen (k.needBytes 65536)
    | .dec _ => min q.srcLen 65536
  match s.hubRd p q.src n with
  | (s, .error st) => (s, q, some (st, if st = 0x7F then 0x40 else 0))
  | (s, .ok src) =>
    let room := match c with | .comp _ => q.dstLen | .dec _ => min q.dstLen left
    let (c', used, out, e) := c.work src (q.srcLen - n) room (room = q.dstLen) 65536
    match s.wrPieces p [(q.dst, out.length)] out with
    | (s, k, some st) => (s, { q with codec := none, wrote := q.wrote + k }, some (st, if st = 0x7F then 0x40 else 0))
    | (s, _, none) =>
      let q := { q with codec := some c', src := q.src + used, srcLen := q.srcLen - used, dst := q.dst + out.length
                        dstLen := q.dstLen - out.length, wrote := q.wrote + out.length, used := q.used + used }
      (s, q, match e with | .more => none | .over st d => some (st, d))

/-- A slice goes on until it has made its 64 KiB of decompression output, or the request is over (13 R344). -/
def State.decSlice (s : State) (q : CmpReq) (c : Codec) (left : Nat) : Nat → State × CmpReq × Option (Nat × Nat)
  | 0 => s.cmpStretch q c left
  | k + 1 =>
    let (s, q', r) := s.cmpStretch q c left
    match r, q'.codec with
    | none, some c' =>
      let made := q'.wrote - q.wrote
      if left ≤ made then (s, q', r) else s.decSlice q' c' (left - made) k
    | _, _ => (s, q', r)

/-- One slice of a request that is ready: 64 KiB of compression input or of decompression output. -/
def State.cmpSlice (s : State) (q : CmpReq) (c : Codec) : State × CmpReq × Option (Nat × Nat) :=
  match c with
  | .comp _ => s.cmpStretch q c 65536
  | .dec _ => s.decSlice q c 65536 (q.srcLen / 65536)

/-- The codec with the history of a request restored by a warm return, read back from its history area (13 R374). -/
def Codec.withHist (h : List Byte) : Codec → Codec
  | .dec d => .dec { d with hist := h }
  | .comp c => .comp { c with hist := h }

/-- A request's codec as it goes on: after a warm return its history is read first. -/
def State.histBack (s : State) (q : CmpReq) (c : Codec) : State × Except Nat Codec :=
  if q.needHist = 0 then (s, .ok c)
  else match s.hubRd q.req.part (subW q.blk 6).toNat q.needHist with
    | (s, .error st) => (s, .error st)
    | (s, .ok hs) => (s, .ok (c.withHist hs.reverse))

/-- One slice of the engine's served request: the state, the request before and after, and its end if it ended. -/
def State.engineSlice (s : State) (e : Nat) : Option (State × CmpReq × CmpReq × Option (Nat × Nat)) :=
  match nextRes (s.cmpRes e) with
  | none => none
  | some q =>
    if s.deferredFor q.req.part || !s.running then none
    -- a resident that a warm return found no engine for (19 R496)
    else if s.flag aCmpStatus (8 + e) then some (s, q, q, some (0x7F, 0x40))
    else match q.codec with
      | some c =>
        match s.histBack q c with
        | (s, .error st) => some (s, q, q, some (st, 0))
        | (s, .ok c) => let (s, q', r) := s.cmpSlice { q with needHist := 0 } c; some (s, q, q', r)
      | none => match s.cmpCheck q with
        | (s, q', some e) => some (s, q, q', some e)
        | (s, q', none) => match q'.codec with
          | none => none
          | some c => let (s, q'', r) := s.cmpSlice q' c; some (s, q, q'', r)

/-- SLICE_BOUNDARY: the served request has done a slice and goes behind the others. -/
def State.sliceBoundary (s : State) (e : Nat) : State :=
  match s.engineSlice e with
  | some (s', q, q', none) =>
    (s'.setCmpRes e ((s'.cmpRes e).filter (fun x => decide (x ≠ q)) ++ [q'])).count (0x1C0 + e) 1 (q'.used - q.used)
      |>.count (0x1C0 + e) 2 (q'.wrote - q.wrote)
  | _ => s

/-- ENGINE_COMPLETION: the served request reaches its end within the slice. -/
def State.engineCompletion (s : State) (e : Nat) : State :=
  match s.engineSlice e with
  | some (s', q, q', some (st, d)) =>
    let s' := s'.setCmpRes e ((s'.cmpRes e).map fun x => if x = q then q' else x)
    ((s'.count (0x1C0 + e) 1 (q'.used - q.used)).count (0x1C0 + e) 2 (q'.wrote - q.wrote)).cmpEnd e q' st d
  | _ => s

/-- The served request ends with INTERNAL_ERROR: the verifier or the staging failed (13 R345, R375). -/
def State.engineUpset (s : State) (e : Nat) (verify : Bool) : State :=
  match nextRes (s.cmpRes e) with
  | none => s
  | some q =>
    let s := if verify then s.raise { src := srcCmp e 2, info0 := ((q.codec.map Codec.inTotal).getD 0), idA := e, part := q.req.part }
      else s.raise { src := srcCmp e 1, idA := e, part := q.req.part }
    s.cmpEnd e q 0x7F 0x40

/-- A block reset of an engine (17 R444): each resident ends, then the self-test runs again. -/
def State.engineReset (s : State) (e : Nat) : State :=
  let s := (s.cmpRes e).foldl (fun s q => s.cmpEnd e q 0x7F 0x40) s
  let (k, s) := s.draw
  if Config.selfTest k then s
  else (s.setFld aCmpStatus (8 + e) (8 + e) 1).raise { src := srcCmp e 3, idA := e }

end Sys2Proof.Machine
end

