-- ==== Sys2Proof/Machine/Operands.lean ====
section
/-! DEFINITION. Register operands: g, f and acc with load shadows and banked stack pointers (02 R37, R46, R51), and control
registers with their levels and write rules (02 R40 to R42). -/

namespace Sys2Proof.Machine
open Sys2Proof

/-- The stack pointer of a level (02 R37). -/
def Arch.sp (a : Arch) (pl : Nat) : Word := if pl = plU then a.spU else if pl = plS then a.spS else a.spM
/-- Set the stack pointer of a level. -/
def Arch.setSp (a : Arch) (pl : Nat) (v : Word) : Arch :=
  if pl = plU then { a with spU := v } else if pl = plS then { a with spS := v } else { a with spM := v }

/-- The register file's value of g i: g0 is zero, g63 the stack pointer of the level (02 R37). -/
def Arch.rawG (a : Arch) (i : Nat) : Word :=
  if i = 0 then 0 else if i = 63 then a.sp a.pl else a.g.toList.getD i 0

/-- The shadow that hides a register, if any (02 R51); it goes by register number, g63 at every level (DEDUCED, log entry 22). -/
def Arch.shadow (a : Arch) (isF : Bool) (i : Nat) : Option Shadow := a.shadows.find? fun h => h.isF = isF && h.idx = i

/-- Read g i as an instruction sees it: the old value inside a load shadow (02 R46, R51). -/
def Arch.rdG (a : Arch) (r : Nat) : Word :=
  match a.shadow false r with
  | some h => h.old
  | none => a.rawG r

/-- The register file's value of f i. -/
def Arch.rawF (a : Arch) (i : Nat) : Word := a.f.toList.getD i 0

/-- Read f i. -/
def Arch.rdF (a : Arch) (r : Nat) : Word :=
  match a.shadow true r with
  | some h => h.old
  | none => a.rawF r

/-- Read an accumulator. -/
def Arch.rdAcc (a : Arch) (i : Nat) : Acc := a.acc.toList.getD i 0

/-- Write g i: a write to g0 is discarded, g63 is the stack pointer of the level (02 R37). -/
def Arch.wrG (a : Arch) (i : Nat) (v : Word) : Arch :=
  if i = 0 then a
  else if i = 63 then a.setSp a.pl v
  else if h : i < 64 then { a with g := a.g.set i v } else a
/-- Write f i. -/
def Arch.wrF (a : Arch) (i : Nat) (v : Word) : Arch := if h : i < 32 then { a with f := a.f.set i v } else a
/-- Write an accumulator. -/
def Arch.wrAcc (a : Arch) (i : Nat) (v : Acc) : Arch := if h : i < 4 then { a with acc := a.acc.set i v } else a

/-- Value of loop register vectors. -/
def v3 (v : Vector Word 3) (k : Nat) : Word := v.toList.getD k 0
/-- Set a loop register. -/
def v3set (v : Vector Word 3) (k : Nat) (w : Word) : Vector Word 3 := if h : k < 3 then v.set k w else v

/-! ### Control registers (02 R41) -/

/-- Is a number assigned? -/
def crAssigned (n : Nat) : Bool :=
  n ∈ [0, 1, 2, 0x18, 0x19, 0x1A, 0x20, 0x21, 0x22, 0x23, 0x24, 0x30, 0x31, 0x32, 0x80, 0x81, 0xC0, 0xC1]
    || (decide (8 ≤ n) && decide (n ≤ 0x10))
/-- Registers whose Write column reads none (02 R42). -/
def crReadOnly (n : Nat) : Bool := n ∈ [0x30, 0x31, 0x32, 0xC1]
/-- Mode-changing when written (02 R41). -/
def crMode (n : Nat) : Bool := n ∈ [0, 1, 2, 0x80, 0x81, 0xC0]
/-- Lowest level for a read. -/
def crLevel (n : Nat) : Nat :=
  if n ∈ [1, 2, 0x30, 0x31, 0x32] || (decide (8 ≤ n) && decide (n ≤ 0x10)) then plU
  else if n ∈ [0, 0x18, 0x19, 0x20, 0x80, 0x81] then plS
  else plM

/-- PSW as it reads: TI reads 1 in a Sealed partition (02 R39). -/
def Arch.pswEff (a : Arch) (sealed : Bool) : Word := if sealed then putBits a.psw 9 9 1 else a.psw

/-- Value of a control register. -/
def Arch.cr (a : Arch) (sealed : Bool) (n : Nat) : Word :=
  if n = 0 then a.pswEff sealed
  else if n = 1 then a.fcsr
  else if n = 2 then a.fxcsr
  else if 8 ≤ n ∧ n ≤ 0x10 then
    (if (n - 8) % 3 = 0 then v3 a.lsa ((n - 8) / 3) else if (n - 8) % 3 = 1 then v3 a.lea ((n - 8) / 3) else v3 a.lct ((n - 8) / 3))
  else if n = 0x18 then a.spU
  else if n = 0x19 then a.spS
  else if n = 0x1A then a.spM
  else if n = 0x20 then a.vtbS
  else if n = 0x21 then a.vtbM
  else if n = 0x22 then a.est
  else if n = 0x23 then a.escHandler
  else if n = 0x24 then a.deleg
  else if n = 0x30 then 0x03
  else if n = 0x31 then 0xFFF
  else if n = 0x32 then 0x04010203
  else if n = 0x80 then a.s1root
  else if n = 0x81 then a.s1cfg
  else if n = 0xC0 then a.part
  else if n = 0xC1 then a.s2fpra
  else 0

/-- PSW's implemented bits. -/
def pswMask : Word := 0x0000FFFFFF030303

/-- PSW after a write: TI ignores writes in a Sealed partition (02 R39). -/
def pswWrite (old v : Word) (sealed : Bool) : Word :=
  let v := v &&& pswMask
  if sealed then putBits v 9 9 (bits old 9 9) else v

/-- FCSR after a write: RM 5 to 7 leaves the field, flags clear on 1 (03 R95). -/
def fcsrWrite (old v : Word) : Word :=
  let rm := if bits v 10 8 ≤ 4 then bits v 10 8 else bits old 10 8
  putBits (w64 (bits old 4 0 &&& (31 - bits v 4 0))) 10 8 rm
/-- FXCSR after a write (03 R89). -/
def fxcsrWrite (old v : Word) : Word :=
  putBits (putBits 0 9 8 (bits old 9 8 &&& (3 - bits v 9 8))) 1 0 (bits v 1 0)
/-- S1ROOT after a write: SPAN above 24 or a misaligned BASE leaves the register (08). -/
def s1rootWrite (old v : Word) : Word :=
  let span := bits v 4 0
  if span > 24 ∨ bits v 43 11 * 2048 % (8 * 2 ^ span) ≠ 0 then old
  else putBits (putBits 0 43 11 (bits v 43 11)) 4 0 span
/-- PART after a write: 33 to 63 leaves the field (08). -/
def partWrite (old v : Word) : Word := if bits v 5 0 > 32 then old else w64 (bits v 5 0)

/-- A control register written, without the level checks of 02 R42. -/
def Arch.setCr (a : Arch) (sealed : Bool) (n : Nat) (v : Word) : Arch :=
  if n = 0 then { a with psw := pswWrite a.psw v sealed }
  else if n = 1 then { a with fcsr := fcsrWrite a.fcsr v }
  else if n = 2 then { a with fxcsr := fxcsrWrite a.fxcsr v }
  else if 8 ≤ n ∧ n ≤ 0x10 then
    (if (n - 8) % 3 = 0 then { a with lsa := v3set a.lsa ((n - 8) / 3) (putBits v 3 0 0) }
     else if (n - 8) % 3 = 1 then { a with lea := v3set a.lea ((n - 8) / 3) (putBits v 3 0 0) }
     else { a with lct := v3set a.lct ((n - 8) / 3) v })
  else if n = 0x18 then { a with spU := v }
  else if n = 0x19 then { a with spS := v }
  else if n = 0x1A then { a with spM := v }
  else if n = 0x20 then { a with vtbS := putBits v 10 0 0 }
  else if n = 0x21 then { a with vtbM := putBits v 10 0 0 }
  else if n = 0x22 then { a with est := v }
  else if n = 0x23 then { a with escHandler := v }
  else if n = 0x24 then { a with deleg := v &&& 0xFFF8000000002FFF }
  else if n = 0x80 then { a with s1root := s1rootWrite a.s1root v }
  else if n = 0x81 then { a with s1cfg := v &&& 7 }
  else if n = 0xC0 then { a with part := partWrite a.part v }
  else a

/-- The destination a control register is when it is the stack pointer of the level: g63 (02 R37). -/
def crDst (pl n : Nat) : List Dst :=
  if (n = 0x18 ∧ pl = plU) ∨ (n = 0x19 ∧ pl = plS) ∨ (n = 0x1A ∧ pl = plM) then [.g 63] else []

/-- Faults of an `mfcr` by level (02 R42). -/
def mfcrFault (a : Arch) (n : Nat) : Option Flt :=
  if a.pl < crLevel n then some { vec := 2, detail := 0, faddr := a.pc } else none

/-- Faults of an `mtcr` when it executes (02 R40, R42). -/
def mtcrFault (a : Arch) (escLocked : Bool) (n : Nat) (v : Word) : Option Flt :=
  let priv : Option Flt := some { vec := 2, detail := 0, faddr := a.pc }
  if a.pl < crLevel n then priv
  else if n = 0 then
    if bits v 1 0 = 2 then some { vec := 1, detail := 0, faddr := a.pc }
    else if a.pl = plS ∧ (bits v 1 0 = plM ∨ bit v 8 ≠ bit a.psw 8) then priv
    else none
  else if n = 0x23 ∧ escLocked then priv
  else none

end Sys2Proof.Machine
end

