-- ==== Sys2Proof/Machine/Flags.lean ====
section
/-! DEFINITION. Flags that a bundle sets at its commit: PSW.DZ (03 R78), FCSR (03 R95), FXCSR.AOV and SAT (03 R86, R87). -/

namespace Sys2Proof.Machine
open Sys2Proof

/-- PSW after the DZ effects of a bundle: a set wins over `dz.clr` (03 R78). -/
def flagDz (psw : Word) (set clr : Bool) : Word :=
  if set then putBits psw 16 16 1 else if clr then putBits psw 16 16 0 else psw

/-- FCSR with sticky flags added. -/
def flagF (fcsr : Word) (fl : FFlags) : Word := fcsr ||| fl.zeroExtend 64

/-- FXCSR with AOV and SAT added. -/
def flagFx (fx : Word) (aov sat : Bool) : Word :=
  let fx := if aov then putBits fx 9 9 1 else fx
  if sat then putBits fx 8 8 1 else fx

/-- All flag effects of a bundle's slots. -/
def Arch.flags (a : Arch) (effs : List SlotEff) : Arch :=
  { a with
    psw := flagDz a.psw (effs.any (·.dzSet)) (effs.any (·.dzClr))
    fcsr := effs.foldl (fun w e => flagF w e.fflags) a.fcsr
    fxcsr := effs.foldl (fun w e => flagFx w e.aov e.sat) a.fxcsr }

end Sys2Proof.Machine
end

