-- ==== Sys2Proof/Machine/Exception.lean ====
section
/-! DEFINITION. Taking an exception, escalation, checkstop and the events looked for at a bundle boundary (05 R120 to R138), with
what an LP's own load sees (09 R236) and the predictors' flushes (04 R116, R117). -/

namespace Sys2Proof.Machine
open Sys2Proof

/-! ### Stores that fail, combining lines -/

/-- The failed-store state (09 R253): the first failure is recorded, a further one sets MULTI. -/
def State.asError (s : State) (n : Tri) (kind addr : Nat) : State :=
  let r := aTrdAseStatus n
  if s.flag r 63 then s.setFld r 62 62 1
  else s.setReg r (putBits (putBits (w64 (addr % 2 ^ 52)) 61 60 kind) 63 63 1)

/-- A combining line goes to memory: cached copies invalidated, only the written bytes stored (09 R246); a FAILED link drops it
(09 R531). -/
def State.drainComb (s : State) (n : Tri) (line : Nat) : State :=
  match (s.lp n).comb.find? fun c => c.line = line with
  | none => s
  | some c =>
    let s := s.updLp n fun l => { l with comb := l.comb.filter fun x => x.line ≠ line }
    if s.memOk (128 * line) then s.hubWrite c.bytes
    else s.asError n 2 ((c.bytes.head?.map (·.1)).getD (128 * line))

/-- Every combining line drains, oldest first (09 R246: in any order). -/
def State.drainAll (s : State) (n : Tri) : State :=
  (s.lp n).comb.foldl (fun s c => s.drainComb n c.line) s

/-! ### Own loads -/

/-- The byte a youngest store holds for an address. -/
def storeByte (sts : List Store) (a : Nat) : Option Byte :=
  sts.reverse.findSome? fun st =>
    if st.kind = .cache ∨ st.kind = .nt then (st.bytes.reverse.find? fun b => b.1 = a).map (·.2) else none

/-- The byte that the LP's commit queue or store buffer holds for an address; `extra` are older stores of the bundle (09 R236). -/
def Lp.queuedByte (l : Lp) (extra : List Store) (a : Nat) : Option Byte :=
  match storeByte extra a with
  | some b => some b
  | none =>
    match l.records.reverse.findSome? fun r => storeByte r.stores a with
    | some b => some b
    | none => storeByte l.storeBuf a

/-- The byte the LP's own stages hold for an address: commit queue, store buffer, combining buffer (09 R236, R246). -/
def Lp.ownByte (l : Lp) (extra : List Store) (a : Nat) : Option Byte :=
  match l.queuedByte extra a with
  | some b => some b
  | none => l.comb.reverse.findSome? fun c => (c.bytes.reverse.find? fun b => b.1 = a).map (·.2)

/-- The bytes an LP's load takes (09 R236). -/
def State.ownBytes (s : State) (n : Tri) (extra : List Store) (addrs : List Nat) : List Byte :=
  addrs.map fun a => match (s.lp n).ownByte extra a with
    | some b => b
    | none => s.byte a

/-- Does a load of these bytes consume poison (10 R529)? Only bytes of the commit queue and the store buffer do not. -/
def State.consumesPoison (s : State) (n : Tri) (extra : List Store) (addrs : List Nat) : Bool :=
  addrs.any fun a => ((s.lp n).queuedByte extra a).isNone && s.badByte a

/-- Lines of some addresses. -/
def linesOf (addrs : List Nat) : List Nat := (addrs.map (· / 128)).eraseDups

/-- Combining lines that a load or an ordinary store of the LP meets drain first (09 R246). -/
def State.drainFor (s : State) (n : Tri) (addrs : List Nat) : State := (linesOf addrs).foldl (fun s line => s.drainComb n line) s

/-! ### Order (09 R237) -/

/-- The order-mode bit that applies to an access of the LP at level pl: bit 0 at M, else its partition. -/
def State.orderedAt (s : State) (n : Tri) (pl : Nat) : Bool :=
  (s.lp n).orderMode.testBit (if pl = plM then 0 else bits (s.lp n).arch.part 5 0)

/-- Older stores of the LP not performed: all, or all but non-temporal ones (09 R237, R247). -/
def Lp.unperformed (l : Lp) (nt : Bool) : Bool :=
  let p := fun st : Store => st.kind ≠ .fence && (nt || st.kind ≠ .nt)
  l.records.any (fun r => r.stores.any p) || l.storeBuf.any p

/-! ### Predictor flushes (04 R116, R117) -/

/-- Near flush: bimodal counters weakly not-taken, return stack empty. -/
def Pred.flushNear (p : Pred) : Pred := { p with bimodal := [], stack := [] }
/-- Shared flush. -/
def Pred.flushShared (p : Pred) : Pred := { p with global := [], indirect := [], gh := 0 }
/-- Both flushes as asked. -/
def Pred.flush (p : Pred) (near shared : Bool) : Pred :=
  let p := if near then p.flushNear else p
  if shared then p.flushShared else p
/-- Flush at a boundary, in every core; the shared flush costs 16 cycles (04 R112, R116). -/
def State.flushPred (s : State) (n : Tri) (near shared : Bool) : State :=
  s.updLp n fun l => { l.cores (fun c => { c with pred := c.pred.flush near shared }) with
    cycles := l.cycles + (if shared then 16 else 0) }

/-- Flushes for a change of level or ASID between two architectural states (04 R117). `viaM` is an entry to or return from M. -/
def State.flushFor (s : State) (n : Tri) (before after : Arch) (viaM : Bool) : State :=
  let asid := bits before.psw 47 32 ≠ bits after.psw 47 32
  let near := before.pl ≠ after.pl || asid
  let part := bits before.part 5 0 ≠ bits after.part 5 0
  let sealed := s.lpSealed n
  let both := part || (sealed && (asid || viaM))
  if near || both then s.flushPred n true both else s

/-! ### Targets and eligibility (05 R121, R124) -/

/-- Target level of a vector. -/
def targetLevel (a : Arch) (v : Nat) : Nat :=
  if v < 32 then (if bit a.deleg v && a.pl ≠ plM then plS else plM)
  else if v < 48 then plM
  else if bit a.deleg (48 + v / 16) then plS else plM

/-- Is interrupt v eligible (05 R124)? -/
def intEligible (a : Arch) (v : Nat) : Bool :=
  let t := targetLevel a v
  decide (a.pl < t) || (a.pl = t && decide (v / 16 > bits a.psw 27 24))

/-- What is taken at a bundle boundary (05 R127). -/
inductive Ev where
  | vec (v : Nat)
  /-- Vector 33 pending in a Non-Maskable Trap handler: escalation with reason 2. -/
  | esc33
  deriving DecidableEq, Repr

/-- The first event that applies at the boundary (05 R127). -/
def State.nextEvent (s : State) (n : Tri) : Option Ev :=
  let a := (s.lp n).arch
  if s.pend n 33 && !a.escIs && !a.nmtIs then some (.vec 33)
  else if s.pend n 33 && a.nmtIs && !a.escIs then some .esc33
  else if s.pend n 32 && !bit a.psw 8 && !a.escIs && !a.nmtIs then some (.vec 32)
  else
    let words := (List.range 4).map fun k => s.reg (aTrdIntPend n k)
    if words.all (· = 0) then none
    else (((List.range 208).map fun i => 255 - i).find? fun v => bit (words.getD (v / 64) 0) (v % 64) && intEligible a v).map .vec

/-! ### The frame (05 R130, R131) -/

/-- CAUSE (05 R131). -/
def causeOf (a : Arch) (x : ExcInfo) (esc : Bool) : Nat :=
  x.vec + x.slot * 2 ^ 8 + b2n (x.vec ≥ 32) * 2 ^ 11 + b2n a.delay * 2 ^ 12 + b2n esc * 2 ^ 13 + a.pl * 2 ^ 14
    + x.detail * 2 ^ 16

/-- The descriptor of a shadow entry (05 R132). -/
def shadowDesc (h : Shadow) : Nat := h.idx + b2n h.isF * 2 ^ 7 + h.remain * 2 ^ 10 + 2 ^ 15

/-- SHADOW0 to SHADOW3 as eight doublewords. Two `cas.q` can leave more than four registers in their delay (02 R54, 05 R132): the first
four in the record's order are recorded (DESIGN CHOICE, log entry 36). -/
def shadowWords (hs : List Shadow) : List Nat :=
  (List.range 4).flatMap fun i => match hs[i]? with
    | some h => [h.old.toNat, shadowDesc h]
    | none => [0, 0]

/-- The loop registers in the order of the frame. -/
def loopWords (a : Arch) : List Nat :=
  (List.range 3).flatMap fun k => [(v3 a.lsa k).toNat, (v3 a.lea k).toNat, (v3 a.lct k).toNat]

/-- The 32 doublewords of a frame (05 R130). -/
def frameWords (a : Arch) (sealed : Bool) (x : ExcInfo) (oldSp : Word) (esc : Bool) (reason : Nat) (failedSp : Word)
    (target : Nat) : List Nat :=
  [(a.pswEff sealed).toNat, a.pc.toNat, a.npc.toNat, causeOf a x esc, x.faddr.toNat, a.progress.toNat, oldSp.toNat,
    b2n a.nmtIs + 2 * b2n a.escIs] ++ loopWords a ++ [0] ++ shadowWords a.shadows ++ [reason, failedSp.toNat, target] ++ [0, 0, 0]

/-- The frame's bytes. -/
def frameBytes (ws : List Nat) : List Byte := ws.flatMap (leBytes 8)

/-- The four frame-line stores (05 R129). -/
def frameStores (addrs : List Nat) (pers : Bool) (part : Nat) (bs : List Byte) : List Store :=
  (List.range 4).map fun i =>
    let ps := (addrs.zip bs).drop (64 * i) |>.take 64
    { kind := .cache, addr := (ps.head?.map (·.1)).getD 0, pers := pers, part := part, bytes := ps }

/-- A commit record joins the queue (06 R146). -/
def State.pushRecord (s : State) (n : Tri) (r : Record) : State :=
  s.updLp n fun l => { l with records := l.records ++ [r] }

/-! ### Checkstop and escalation (05 R136 to R138, 06 R170) -/

/-- Entries whose records are discarded have not happened: what they cleared is set again. -/
def State.unEnter (s : State) (n : Tri) : State :=
  (s.lp n).records.foldl (fun s r => match r.evt with
    | none => s
    | some v => if v = 14 then s.setFld (aTrdAseStatus n) 63 63 1 else s.post n v) s

/-- Checkstop: no further record is released, MODE 0x5, TRD_CHECKSTOP raised (06 R170). -/
def State.checkstop (s : State) (n : Tri) : State :=
  let s := (s.unEnter n).setFld (aTrdExcStatus n) 2 2 1
  let s := s.setMode n 5
  let s := s.updLp n fun l => { l with
    records := [], asm := [], frozen := none, waiting := false, recov := .none, devReq := none, entry := none }
  s.raise { src := srcTriad n 7 }

/-- Escalation (05 R137). The state is the one the failed entry would have recorded. -/
def State.escalate (s : State) (n : Tri) (x : ExcInfo) (reason : Nat) (failedSp : Word) : State :=
  let l := s.lp n
  let a := l.arch
  let est := a.est.toNat
  if a.escIs || !a.escLocked || est % 64 ≠ 0 || est < 256 || !s.isMain (est - 256) || !s.isMain (est - 1) then s.checkstop n
  else if !((List.range 4).all fun i => s.memOk (est - 256 + 64 * i)) then s.checkstop n
  else
    let t := targetLevel a x.vec
    let bs := frameBytes (frameWords a (s.lpSealed n) x a.spM true reason failedSp t)
    let sts := frameStores ((List.range 256).map fun i => est - 256 + i) false 0 bs
    let a' := { a with
      spM := w64 (est - 256)
      psw := putBits (putBits (putBits a.psw 1 0 3) 27 24 0xF) 8 8 1
      escIs := true
      pc := putBits a.escHandler 3 0 0
      npc := putBits a.escHandler 3 0 0 + 16
      delay := false
      shadows := []
      progress := 0
      handlerFirst := true }
    let s := (s.setFld (aTrdExcStatus n) 15 8 reason).count n.val 9 1
    -- the escalation takes the failed store's report to its handler: PENDING ends with it as at an entry (log entry 17)
    let s := if x.vec = 14 then s.setFld (aTrdAseStatus n) 63 63 0 else s
    let s := s.updLp n fun l => { l with arch := a', waiting := false, entry := none, cycles := l.cycles + 22 }
    let s := s.pushRecord n { post := a', stores := sts, writes := [], reads := [], held := []
                              evt := if reason = 2 then some 33 else if x.vec = 14 then some 14 else none
                              trap := if x.vec = 6 ∨ x.vec = 7 then some x else none }
    s.flushFor n a a' true

/-- Escalation condition of 05 R136 met before any check of the entry. -/
def escReason (l : Lp) (v : Nat) : Option Nat :=
  if (v = 14 ∨ v = 15) ∧ bit l.arch.psw 8 then some 1
  else if v < 32 ∧ v ≠ 6 ∧ v ≠ 7 ∧ l.arch.handlerFirst then some 6
  else none

/-- PSW after an entry (05 R134). -/
def entryPsw (psw : Word) (t v : Nat) : Word :=
  let p := putBits psw 1 0 t
  let p := if v ≥ 48 then putBits p 27 24 (v / 16) else p
  if v = 32 ∨ v = 33 then putBits p 8 8 1 else p

/-- The architectural state after an entry of x at level t with the frame at fa and the handler h (05 R134). -/
def entryArch (a : Arch) (x : ExcInfo) (t : Nat) (fa h : Word) : Arch :=
  ({ a with
    psw := entryPsw a.psw t x.vec
    nmtIs := a.nmtIs || x.vec = 33
    s2fpra := if x.vec = 12 then w64 (x.pra % 2 ^ 44) else a.s2fpra
    pc := h
    npc := h + 16
    delay := false
    shadows := []
    progress := 0
    handlerFirst := true } : Arch).setSp t fa

/-- An entry whose checks have passed: `lines` are the frame's four lines (05 R133 to R135). -/
def State.enterDo (s : State) (n : Tri) (x : ExcInfo) (t : Nat) (fa h : Word) (lines : List Access) : State :=
  let a := (s.lp n).arch
  let part := if t = plM then 0 else bits a.part 5 0
  let bs := frameBytes (frameWords a (s.lpSealed n) x (a.sp t) false 0 0 0)
  let sts := frameStores (lines.flatMap (·.addrs)) (lines.any (·.pers)) part bs
  let a' := entryArch a x t fa h
  let s := if x.vec ≥ 32 then s.unpend n x.vec else s
  let s := if x.vec = 14 then s.setFld (aTrdAseStatus n) 63 63 0 else s
  let s := (s.count n.val 9 1).count n.val 10 (if x.vec ≥ 48 then 1 else 0)
  let s := s.updLp n fun l => { l with arch := a', waiting := false, entry := none, cycles := l.cycles + 22 }
  let s := s.pushRecord n { post := a', stores := sts, writes := [], reads := [], held := []
                            evt := if x.vec ≥ 32 ∨ x.vec = 14 then some x.vec else none
                            trap := if x.vec = 6 ∨ x.vec = 7 then some x else none }
  s.flushFor n a a' (t = plM)

/-- The vector load of an entry at level t, its frame lines checked: the entry, or an escalation (05 R133). -/
def State.enterVector (s : State) (n : Tri) (x : ExcInfo) (t : Nat) (fa : Word) (lines : List Access) : State :=
  let a := (s.lp n).arch
  let r := s.access n t { kind := .load, va := (if t = plS then a.vtbS else a.vtbM) + w64 (8 * x.vec), size := 8 }
  let s := s.checkWork n r
  match r with
  | .error _ => s.escalate n x 4 0
  | .ok va =>
    if va.region ≠ .mem then s.escalate n x 4 0
    else
      let s := s.drainFor n va.addrs
      let s := (linesOf va.addrs).foldl (fun s line => s.touchRead n (if t = plM then 0 else bits a.part 5 0) line false false false) s
      if s.consumesPoison n [] va.addrs then s.escalate n x 4 0
      else
        let h := w64 (leNat (s.ownBytes n [] va.addrs))
        if h = 0 || bits h 3 0 ≠ 0 then s.escalate n x 5 0 else s.enterDo n x t fa h lines

/-- The frame's checks of an entry at level t, in order (05 R129, R133). -/
def State.enterFrame (s : State) (n : Tri) (x : ExcInfo) (t : Nat) : State :=
  let sp := (s.lp n).arch.sp t
  let fa := w64 ((sp.toNat - 256) / 64 * 64)
  if sp.toNat < 256 then s.escalate n x 3 sp
  else
    let rs := (List.range 4).map fun i => s.access n t { kind := .store, va := fa + w64 (64 * i), size := 64 }
    let lines := rs.filterMap fun e => match e with
      | .ok ac => if ac.region = .mem then some ac else none
      | .error _ => none
    let s := s.checkAll n rs
    if lines.length ≠ 4 then s.escalate n x 3 sp else s.enterVector n x t fa lines

/-- Exception entry (05 R133). Its vector load is a data load: in Ordered mode the entry waits for the LP's older stores (09 R237). -/
def State.enter (s : State) (n : Tri) (x : ExcInfo) : State :=
  let l := s.lp n
  if x.vec < 32 && l.arch.escIs then s.checkstop n
  else match escReason l x.vec with
  | some r => s.escalate n x r 0
  | none =>
    let t := targetLevel l.arch x.vec
    if s.orderedAt n t && l.unperformed false then s.updLp n fun l => { l with entry := some x } else s.enterFrame n x t

/-- A synchronous fault of the bundle at PC (05 R128), with what its translation left. -/
def State.takeFault (s : State) (n : Tri) (slot : Nat) (f : Flt) : State :=
  let s := s.fltWork n f
  -- a Bus Error of 01 R18: only level M names control-space addresses (08 R220)
  let s := if f.vec = 13 && (s.lp n).arch.pl = plM && isCtl f.faddr.toNat then s.count 0x1D4 3 1 else s
  s.enter n { vec := f.vec, detail := f.detail, slot := slot, faddr := f.faddr, pra := f.pra }

/-- Take an event at the boundary (05 R127). -/
def State.takeEvent (s : State) (n : Tri) (e : Ev) : State :=
  match e with
  | .vec v => s.enter n { vec := v }
  | .esc33 => (s.unpend n 33).escalate n { vec := 33 } 2 0

end Sys2Proof.Machine
end

