-- ==== Sys2Proof/Machine/SysOps.lean ====
section
/-! DEFINITION. Failed stores and combining lines (09 R246, R253, R531), cache maintenance (07 R200 to R206), TLB operations
(08 R227 to R229) and the return from exception (05 R139 to R141). -/

namespace Sys2Proof.Machine
open Sys2Proof

/-! ### Cache maintenance -/

/-- One line cleaned, invalidated, or both (07 R201). -/
def State.cmApply (s : State) (act : CmAct) (line : Nat) : State :=
  match act with
  | .clean => s.cleanLine line
  | .inv => s.invLine line
  | .cleanInv => s.cleanInvLine line

/-- Access kind of a maintenance operation (07 R202). -/
def cmKind (act : CmAct) : AccKind := if act = .clean then .load else .store

/-- Absolute address a maintenance operation acts on; none on a device region or the control space, where it changes no cache
(07 R202). An address that neither memory nor a device claims fails step 7 of 08 R222. -/
def State.cmXlat (s : State) (n : Tri) (k : AccKind) (va : Word) : Except Flt (Option Nat × XFill) :=
  match s.xlat n (s.lp n).arch.pl k va with
  | .error e => .error e
  | .ok x =>
    if x.region = .mem ∧ s.memOk x.abs then .ok (some x.abs, x.fill)
    else if x.region = .ctl ∨ (x.region ≠ .mem ∧ s.devClaimed x.abs) then .ok (none, x.fill)
    else .error { vec := 13, detail := 0, faddr := va }

/-- Where a range operation stops: rb or the next 64 KiB boundary after ra (07 R203). -/
def cmStop (a b : Word) : Nat := if b.toNat ≤ a.toNat then b.toNat else min b.toNat ((a.toNat / 65536 + 1) * 65536)

/-- Lines of [ra, stop − 1] from absolute address abs of ra. -/
def cmLines (a : Word) (abs stop : Nat) : List Nat :=
  let lo := abs / 128
  let hi := (abs + (stop - a.toNat) - 1) / 128
  (List.range (hi + 1 - lo)).map fun i => lo + i

/-- One position of one cache (07 R204). -/
def State.cmPos (s : State) (n : Tri) (act : CmAct) (a : Word) : State :=
  let level := bits a 63 62
  let set := bits a 20 4
  let way := bits a 3 0
  let sets := if level < 2 then 128 else if level = 2 then l2Sets else l3Sets
  let ways := if level < 2 then 4 else 16
  if bits a 61 21 ≠ 0 ∨ set ≥ sets ∨ way ≥ ways then s.setFld (aTrdL2Status n) 4 4 1
  else if level = 0 then
    if act = .clean then s else s.updLp n fun l => l.cores fun c => { c with l1i := smDel (set * 4 + way) c.l1i }
  else if level = 1 then
    if act = .clean then s else s.updLp n fun l => l.cores fun c => { c with l1d := smDel (set * 4 + way) c.l1d }
  else if level = 2 then
    let k := set * 16 + way
    let e := (s.lp n).l2.pos k
    if e.st = .i then s
    else
      -- a written line passes the victim buffer and updates the L3's copy (R197)
      let s := if act ≠ .inv && e.st = .m then s.vbPass n (e.victim true) else s
      if act = .clean then s.updLp n fun l => { l with l2 := cleanPos l.l2 k }
      else s.updLp n fun l => { l.dropL1 e.line with l2 := l.l2.put k CLine.empty }
  else
    let d := dieOf n
    let k := set * 16 + way
    let e := (s.l3Of d).pos k
    if e.st = .i then s
    -- an L2 of the die that holds the line modified is cleaned with it, so that the L3's state stays as strong (R185)
    else if act = .clean then (if e.st = .m then s.cleanLine e.line else s)
    else
      let s := if act = .cleanInv then (s.cmRoom e.line).writeBack e.line else s
      let s := (dieTri d).foldl (fun s m => if (s.lp m).hasLine e.line then s.updLp m fun l => l.purge e.line else s) s
      s.updL3 d fun c => c.put k CLine.empty

/-- Lock-fill of one line (07 R195): one in the victim buffer comes back, one with a register is filled first, an absent one is read
through a register, and one in an unlocked way moves. -/
def State.lockFill (s : State) (n : Tri) (line : Nat) : State :=
  if (s.l2Ways n true).isEmpty then s
  else
    let s := s.vbRecall n line true
    let s := if ((s.lp n).l2Find line).isSome then s
      else
        let s := s.missAsk n { MissReg.of line with lock := true }
        s.fillUntil n line ((s.lp n).missWait.length + 1)
    match (s.lp n).l2Find line with
    | none => s
    | some k =>
      if s.lockedWay n k then s
      else
        let e := (s.lp n).l2.pos k
        let s := s.updLp n fun l => { l with l2 := l.l2.put k CLine.empty }
        s.l2Install n e true true

/-- Fault of a system operation's address, if any (07 R202). -/
def State.sysFault (s : State) (n : Tri) (op : SysOp) : Option Flt :=
  let chk := fun (k : AccKind) (a : Word) => match s.cmXlat n k a with | .error e => some e | .ok _ => none
  match op with
  | .cmLine act a => chk (cmKind act) a
  | .cmRange act _ a b => if b.toNat ≤ a.toNat then none else chk (cmKind act) a
  | .lkfill _ a b => if b.toNat ≤ a.toNat then none else chk .load a
  | _ => none

/-! ### TLB operations -/

/-- Entries a TLB operation removes (08 R227). `own` is PART.ID of the LP. -/
def tlbHit (op : TlbOp) (own : Nat) (a b : Word) (e : TlbEnt) : Bool :=
  match op with
  | .va => e.part = own && !e.mcl && e.va >>> e.lg = a.toNat >>> e.lg && (e.g || !e.en || e.asid = bits b 15 0)
  | .asid => e.part = own && !e.mcl && e.asid = bits a 15 0 && !e.g && e.en
  | .all => e.part = own
  | .pra => e.part = bits b 5 0 && e.pra / 2 ^ 28 = bits a 43 28
  | .part => e.part = bits a 5 0

/-- Tables of the walk to an address, as the pointer entries of a walk cache give them, for any ASID. -/
def walkTabs (own : Nat) (a : Word) (ws : List WalkEnt) : List Nat :=
  ws.flatMap fun e => match e with
    | .ptr p _ level tab x w => if p = own ∧ x = s1Prefix level a then [tab, bits w 43 11 * 2048] else []
    | .pmt .. => []

/-- Increments on the path to an address: those of the tables of its walk, and of the pages that TLB entries map it to. -/
def pathIncs (own : Nat) (a : Word) (ws : List WalkEnt) (es : List TlbEnt) : List Nat :=
  (walkTabs own a ws ++ (es.filter fun e => e.part = own && !e.mcl && e.va >>> e.lg = a.toNat >>> e.lg).map (·.pra)).map (· / 2 ^ 28)

/-- Walk-cache entries a TLB operation removes (08 R227); `incs` are the increments on the path of `tlb.inv.va`. -/
def walkHit (op : TlbOp) (own : Nat) (a b : Word) (incs : List Nat) (e : WalkEnt) : Bool :=
  match op, e with
  | .va, .ptr p _ level _ x _ => p = own && x = s1Prefix level a
  | .va, .pmt p i _ => p = own && incs.contains i
  | .asid, .ptr p asid .. => p = own && asid = bits a 15 0
  | .asid, .pmt .. => false
  | .all, .ptr p .. => p = own
  | .all, .pmt p _ _ => p = own
  | .pra, .ptr p _ _ t _ _ => p = bits b 5 0 && t / 2 ^ 28 = bits a 43 28
  | .pra, .pmt p i _ => p = bits b 5 0 && i = bits a 43 28
  | .part, .ptr p .. => p = bits a 5 0
  | .part, .pmt p _ _ => p = bits a 5 0

/-- Partition a TLB operation acts on; 0 is none (08 R227). -/
def tlbPart (op : TlbOp) (own : Nat) (a b : Word) : Nat :=
  let p := match op with
    | .pra => bits b 5 0
    | .part => bits a 5 0
    | _ => own
  if p ≤ 32 then p else 0

/-- A TLB operation on every TLB and walk cache, and for `pra` and `part` on the hub (08 R228). -/
def State.tlbDo (s : State) (op : TlbOp) (own : Nat) (a b : Word) : State :=
  if tlbPart op own a b = 0 && (op = .pra || op = .part) then s
  else
    let keep := fun e => !tlbHit op own a b e
    let s := allTri.foldl (fun s m =>
      let l := s.lp m
      if ([l.lead, l.second, l.third].all fun c => c.tlbI.isEmpty && c.tlbD.isEmpty) && l.tlb2.isEmpty && l.walk.isEmpty then s
      else
        let incs := pathIncs own a l.walk (l.lead.tlbI ++ l.lead.tlbD ++ l.tlb2)
        s.updLp m fun l => { l.cores (fun c => { c with tlbI := c.tlbI.filter keep, tlbD := c.tlbD.filter keep }) with
          tlb2 := l.tlb2.filter keep, walk := l.walk.filter fun e => !walkHit op own a b incs e }) s
    match op with
    | .pra => { s with hubPmt := s.hubPmt.filter fun h => !(h.part = bits b 5 0 && h.idx = bits a 43 28) }
    | .part => { s with hubPmt := s.hubPmt.filter fun h => h.part ≠ bits a 5 0 }
    | _ => s

/-- Has LP m an access under way that was translated for partition p: a store not performed, a combining line not drained, a device
load, or the rest of a bundle whose checks have passed (08 R228)? -/
def State.partBusy (s : State) (m : Tri) (p : Nat) : Bool :=
  let l := s.lp m
  let st := fun st : Store => st.kind ≠ .fence && st.part = p
  l.records.any (fun r => r.stores.any st) || l.storeBuf.any st || l.comb.any (fun c => c.parts.testBit p)
    || (match l.devReq with | some r => r.part = p | none => false)
    || (match l.frozen with | some f => f.todo.isSome && l.arch.pl ≠ plM && bits l.arch.part 5 0 = p | none => false)

/-- An access of another running LP for the partition of a TLB operation is under way (08 R228, R229). -/
def State.tlbBusy (s : State) (n : Tri) (op : TlbOp) (a b : Word) : Bool :=
  let p := tlbPart op (s.partOf n) a b
  p ≠ 0 && allTri.any fun m => m ≠ n && !s.halted m && !s.checkstopped m && s.partBusy m p

/-! ### `eret` (05 R139 to R141) -/

/-- Doubleword i of a frame. -/
def frWord (bs : List Byte) (i : Nat) : Word := w64 (leNat ((bs.drop (8 * i)).take 8))

/-- A SHADOW entry that arms, or nothing (05 R140). -/
def armShadow (bs : List Byte) (i : Nat) : Option Shadow :=
  let d := frWord bs (18 + 2 * i + 1)
  let r := bits d 11 10
  let f := bit d 7
  let ix := bits d 5 0
  if !bit d 15 || r = 0 || r = 3 || (!f && ix = 0) || (f && ix ≥ 32) then none
  else some { isF := f, idx := ix, old := frWord bs (18 + 2 * i), remain := r }

/-- The armed entries, the lower-numbered winning where two name one register (05 R140). -/
def armShadows (bs : List Byte) : List Shadow :=
  ((List.range 4).filterMap (armShadow bs)).foldl (fun acc h =>
    if acc.any fun x => x.isF = h.isF && x.idx = h.idx then acc else acc ++ [h]) []

/-- The state after `eret`, or its fault (05 R139). -/
def eretArch (a : Arch) (sealed : Bool) (bs : List Byte) : Except Flt Arch :=
  let l := a.pl
  let p := frWord bs 0
  let pc := frWord bs 1
  let npc := frWord bs 2
  if bits p 1 0 = 2 then .error { vec := 1, detail := 0, faddr := a.pc }
  else if l = plS ∧ bits p 1 0 = plM then .error { vec := 2, detail := 0, faddr := a.pc }
  else if bits pc 3 0 ≠ 0 then .error { vec := 3, detail := 0, faddr := pc }
  else if bits npc 3 0 ≠ 0 then .error { vec := 3, detail := 0, faddr := npc }
  else
    let p := if l = plS then putBits p 8 8 (bits a.psw 8 8) else p
    let ef := frWord bs 7
    let a := a.setSp l (frWord bs 6)
    .ok { a with
      nmtIs := if l = plS then a.nmtIs else bit ef 0
      escIs := if l = plS then a.escIs else bit ef 1
      lsa := #v[putBits (frWord bs 8) 3 0 0, putBits (frWord bs 11) 3 0 0, putBits (frWord bs 14) 3 0 0]
      lea := #v[putBits (frWord bs 9) 3 0 0, putBits (frWord bs 12) 3 0 0, putBits (frWord bs 15) 3 0 0]
      lct := #v[frWord bs 10, frWord bs 13, frWord bs 16]
      shadows := armShadows bs
      progress := frWord bs 5 &&& 0xFCFFFFFF00000000
      psw := pswWrite a.psw p sealed
      pc := pc
      npc := npc
      delay := npc ≠ pc + 16 }

end Sys2Proof.Machine
end

