-- ==== Sys2Proof/Machine/LongOps.lean ====
section
/-! DEFINITION. The units of the long instructions (02 R64 to R71, 08 R534): block move, compare and CRC. -/

namespace Sys2Proof.Machine
open Sys2Proof

/-- Write a g register and end its load shadow (02 R52). -/
def Arch.putG (a : Arch) (r : Nat) (v : Word) : Arch :=
  { a.wrG r v with shadows := a.shadows.filter fun h => h.isF || h.idx ≠ r }

/-- KIND of the progress word (02 R69). -/
def longKindNo : LongKind → Nat
  | .mv => 1
  | .cmp => 2
  | .crc .. => 3
  | .cmpx => 4
  | .cphx => 5

/-- Does the held progress word apply to the instruction (02 R70)? -/
def progressApplies (p : Word) (k : LongKind) : Bool := bit p 59 && bits p 63 60 = longKindNo k

/-- The progress word after one more unit (02 R69). -/
def progressNext (p : Word) (k : LongKind) (ctx : Bool) (more : Nat) : Word :=
  let units := if progressApplies p k then bits p 55 32 else 0
  putBits (putBits (putBits (putBits 0 63 60 (longKindNo k)) 59 59 1) 58 58 (b2n ctx)) 55 32 (min (units + more) 0xFFFFFF)

/-- One end of a unit: n bytes from va; a fault names the unit's first address (08 R534). -/
def State.unitAccess (s : State) (n : Tri) (k : AccKind) (va : Word) (size : Nat) : Except Flt Access :=
  match s.access n (s.lp n).arch.pl { kind := k, va := va, size := size, long := true } with
  | .error e => .error { e with faddr := va }
  | .ok a =>
    if k ≠ .store && s.consumesPoison n [] a.addrs then .error { vec := 15, detail := 0, faddr := va } else .ok a

/-- Partition of the LP's accesses at its level (08 R209). -/
def State.reqPart (s : State) (n : Tri) : Nat :=
  let a := (s.lp n).arch
  if a.pl = plM then 0 else bits a.part 5 0

/-- Cache work of the bytes that a voted read takes (07 R184, R189). -/
def State.readWork (s : State) (n : Tri) (a : Access) : State :=
  (linesOf a.addrs).foldl (fun s line => s.touchRead n (s.reqPart n) line false false false) (s.applyFills n a false)

/-- Bytes copied one at a time in ascending order (02 R67): a source byte already written is taken from the copy. -/
def copyBytes (rd : Nat → Byte) : List (Nat × Nat) → List (Nat × Byte) → List (Nat × Byte)
  | [], done => done.reverse
  | (src, dst) :: r, done =>
    let b := match done.find? fun e => e.1 = src with
      | some e => e.2
      | none => rd src
    copyBytes rd r ((dst, b) :: done)

/-- The byte that a load of the LP takes (09 R236). -/
def State.ownByte (s : State) (n : Tri) (a : Nat) : Byte := ((s.lp n).ownByte [] a).getD (s.byte a)

/-- The stores of one unit, one for each line it touches (06 R150, 09 R242). -/
def unitStores (part : Nat) (pers : Bool) (bs : List (Nat × Byte)) : List Store :=
  (linesOf (bs.map (·.1))).map fun line =>
    let mine := bs.filter fun b => b.1 / 128 = line
    { kind := .cache, addr := (mine.head?.map (·.1)).getD 0, pers := pers, part := part, bytes := mine }

/-- A cacheable store of the LP performed at once: a FAILED link drops it (09 R531). -/
def State.storeNow (s : State) (n : Tri) (part : Nat) (bs : List (Nat × Byte)) (pers : Bool) : State :=
  let ok := bs.filter fun b => s.memOk b.1
  let s := s.l2Store n part ok pers
  match bs.find? fun b => !s.memOk b.1 with
  | none => s
  | some b => s.asError n 2 b.1

/-- One unit of `blk.mv`: its stores go into the unit's commit record (06 R150). -/
def State.unitMv (s : State) (n : Tri) (o : LongOp) : Except Flt (State × List Store) :=
  let a := (s.lp n).arch
  let d := a.rdG o.rd
  let c := a.rdG o.ra
  let u := min 256 (a.rdG o.rb).toNat
  match s.unitAccess n .load c u with
  | .error e => .error e
  | .ok sa =>
    match s.unitAccess n .store d u with
    | .error e => .error e
    | .ok da =>
      let bs := copyBytes (s.ownByte n) (sa.addrs.zip da.addrs) []
      let s := (s.readWork n sa).applyFills n da false
      .ok (s.updArch n (fun a => ((a.putG o.rd (d + w64 u)).putG o.ra (c + w64 u)).putG o.rb (a.rdG o.rb - w64 u)),
        unitStores (s.reqPart n) da.pers bs)

/-- One unit of `blk.cmp`; the Bool says that a difference ended it. -/
def State.unitCmp (s : State) (n : Tri) (o : LongOp) : Except Flt (State × Bool) :=
  let a := (s.lp n).arch
  let d := a.rdG o.rd
  let c := a.rdG o.ra
  let u := min 256 (a.rdG o.rb).toNat
  match s.unitAccess n .load d u with
  | .error e => .error e
  | .ok da =>
    match s.unitAccess n .load c u with
    | .error e => .error e
    | .ok ca =>
      let i := ((da.addrs.zip ca.addrs).findIdx? fun p => s.ownByte n p.1 ≠ s.ownByte n p.2).getD u
      let s := (s.readWork n da).readWork n ca
      .ok (s.updArch n (fun a => ((a.putG o.rd (d + w64 i)).putG o.ra (c + w64 i)).putG o.rb (a.rdG o.rb - w64 i)), decide (i < u))

/-- One unit of `blk.crc.*`. -/
def State.unitCrc (s : State) (n : Tri) (o : LongOp) (poly : Nat) (w64' : Bool) : Except Flt State :=
  let a := (s.lp n).arch
  let c := a.rdG o.ra
  let u := min 256 (a.rdG o.rb).toNat
  match s.unitAccess n .load c u with
  | .error e => .error e
  | .ok ca =>
    let v0 := if w64' then (a.rdG o.rd).toNat else (a.rdG o.rd).toNat % 2 ^ 32
    let v := crcBytes poly v0 (ca.addrs.map (s.ownByte n))
    .ok ((s.readWork n ca).updArch n fun a => ((a.putG o.rd (w64 v)).putG o.ra (c + w64 u)).putG o.rb (a.rdG o.rb - w64 u))

end Sys2Proof.Machine
end

