-- ==== Sys2Proof/Machine/EngineIo.lean ====
section
/-! DEFINITION. Memory as an engine or a pipeline reaches it: partition-real addresses through the hub for a ring request, virtual
addresses of the LP for `cmpx` and `cphx` (13 R346, 14 R388). The writes are the hub's (02 R71). -/

namespace Sys2Proof.Machine
open Sys2Proof

/-- A range of virtual addresses cut at 64 KiB, the smallest page. -/
def vPieces : Nat → Word → Nat → List (Word × Nat)
  | 0, _, _ => []
  | f + 1, va, n =>
    if n = 0 then []
    else
      let k := min n (65536 - va.toNat % 65536)
      (va, k) :: vPieces f (va + w64 k) (n - k)

/-- The first byte of a range that faults when it is taken alone. -/
def State.firstBad (s : State) (n : Tri) (k : AccKind) (va : Word) (size : Nat) : Option Flt :=
  (List.range size).findSome? fun i => match s.unitAccess n k (va + w64 i) 1 with | .error g => some g | .ok _ => none

/-- The checked accesses of a virtual range, page by page; a fault is that of the first byte that fails, and names it (08 R534). -/
def State.vAccess (s : State) (n : Tri) (k : AccKind) (va : Word) (size : Nat) : Except Flt (List Access) :=
  (vPieces (size / 65536 + 2) va size).foldl (fun r p =>
    match r with
    | .error f => .error f
    | .ok l => match s.unitAccess n k p.1 p.2 with
      | .error f =>
        let g := (s.firstBad n k p.1 p.2).getD f
        .error { f with vec := g.vec, detail := g.detail, faddr := g.faddr }
      | .ok a => .ok (l ++ [a])) (.ok [])

/-- An engine's read for an LP. -/
def State.vRd (s : State) (n : Tri) (va : Word) (size : Nat) : Except Flt (State × List Byte) :=
  match s.vAccess n .load va size with
  | .error f => .error f
  | .ok l => .ok (l.foldl (fun s a => s.applyFills n a false) s, (l.flatMap (·.addrs)).map s.byte)

/-- An engine's write for an LP. -/
def State.vWr (s : State) (n : Tri) (va : Word) (bs : List Byte) : Except Flt State :=
  match s.vAccess n .store va bs.length with
  | .error f => .error f
  | .ok l =>
    let s := l.foldl (fun s a => s.applyFills n a false) s
    .ok (if bs.isEmpty then s else s.hubWrite ((l.flatMap (·.addrs)).zip bs))

/-- For whom an engine works. -/
inductive Mio where
  | ring (p : Nat)
  | lp (n : Tri)
  deriving DecidableEq, Repr

/-- How an access of an engine fails: the status a ring request ends with, or the fault of the LP's bundle. -/
inductive IoErr where
  | st (code : Nat)
  | flt (f : Flt)
  deriving DecidableEq, Repr

/-- A fault on the source names the first source byte of the unit (08 R534). -/
def IoErr.atSrc (va : Nat) : IoErr → IoErr
  | .st c => .st c
  | .flt f => .flt { f with faddr := w64 va }

/-- Partition of the requester: the ring's, or PART.ID (14 R388). -/
def State.ioPart (s : State) : Mio → Nat
  | .ring p => p
  | .lp n => s.partOf n

/-- Read n bytes. -/
def State.ioRd (s : State) (io : Mio) (a n : Nat) : State × Except IoErr (List Byte) :=
  match io with
  | .ring p => match s.rdPieces p [(a, n)] with
    | (s, _, some st) => (s, .error (.st st))
    | (s, bs, none) => (s, .ok bs)
  | .lp t => match s.vRd t (w64 a) n with
    | .error f => (s, .error (.flt f))
    | .ok (s, bs) => (s, .ok bs)

/-- Write bytes; the number written is answered with a failure. -/
def State.ioWr (s : State) (io : Mio) (a : Nat) (bs : List Byte) : State × Except (IoErr × Nat) Unit :=
  match io with
  | .ring p => match s.wrPieces p [(a, bs.length)] bs with
    | (s, k, some st) => (s, .error (.st st, k))
    | (s, _, none) => (s, .ok ())
  | .lp t => match s.vWr t (w64 a) bs with
    | .error f => (s, .error (.flt f, 0))
    | .ok s => (s, .ok ())

/-- Does a range translate? -/
def State.ioChk (s : State) (io : Mio) (a n : Nat) (write : Bool) : State × Except IoErr Unit :=
  match io with
  | .ring p => match s.checkPieces p write [(a, n)] with
    | (s, some st) => (s, .error (.st st))
    | (s, none) => (s, .ok ())
  | .lp t => match s.vAccess t (if write then .store else .load) (w64 a) n with
    | .error f => (s, .error (.flt f))
    | .ok _ => (s, .ok ())

/-- The four block registers of `cmpx` and `cphx`: source, its length, destination, its room (02 R66). -/
def State.blockRegs (s : State) (n : Tri) (rd : Nat) : List Word :=
  (List.range 4).map fun i => (s.lp n).arch.rdG (rd + i)

/-- Set the block registers. -/
def State.setBlockRegs (s : State) (n : Tri) (rd : Nat) (ws : List Word) : State :=
  s.updArch n fun a => ((List.range 4).zip ws).foldl (fun a e => a.putG (rd + e.1) e.2) a

end Sys2Proof.Machine
end

