-- ==== Sys2Proof/Machine/KeyStore.lean ====
section
/-! DEFINITION. The random source and the key store (14 R380 to R386, R405 to R408): DRBG instances, key slots, tokens, and the
commands of CPH_KCMD. -/

namespace Sys2Proof.Machine
open Sys2Proof

/-! ### Random source (14 R405 to R408) -/

/-- Is the source FAILED? -/
def State.rngFailed (s : State) : Bool := s.flag aRngStatus 1

/-- A seeded instance: its key and V are not stated values (log entry 8). -/
def State.drbgSeed (s : State) : Drbg × State :=
  let (k, s) := s.draw
  let (v, s) := s.draw
  ({ key := Config.entropy k % 2 ^ 256, v := Config.entropy v % 2 ^ 128, count := 0 }, s)

/-- Set or remove an instance. -/
def State.setDrbg (s : State) (p : Nat) (d : Option Drbg) : State :=
  { s with cph := { s.cph with drbg := smSet (fun _ => none) s.cph.drbg p d } }

/-- Every instance is instantiated (14 R406). -/
def State.drbgInit (s : State) : State :=
  let s := (List.range 33).foldl (fun s p => let (d, s) := s.drbgSeed; s.setDrbg p (some d)) s
  ((s.setFld aRngStatus 1 1 0).setFld aRngStatus 2 2 0).setFld aRngStatus 0 0 1

/-- The source fails (14 R408): cause 1 repetition count, 2 adaptive proportion, 3 start-up. -/
def State.rngFail (s : State) (cause : Nat) : State :=
  let s := { s with cph := { s.cph with drbg := [] } }
  let s := (((s.setFld aRngStatus 0 0 0).setFld aRngStatus 1 1 1).setFld aRngStatus 2 2 0).setFld aRngStatus 5 4 cause
  if cause = 3 then s.raise { src := 0x4D2, info0 := cause } else s.raise { src := 0x4D1, info0 := cause }

/-- Start-up tests, then every instance afresh (14 R408). -/
def State.rngRetest (s : State) : State :=
  let (k, s) := s.draw
  if Config.selfTest k then s.drbgInit else s.rngFail 3

/-- n bytes of partition p's instance by one generate request, reseeded after 65,536 of them (14 R406). None while FAILED,
and while the random domain is OFF (18 R473) or its gate closed. -/
def State.drbgGet (s : State) (p n : Nat) : State × Option (List Byte) :=
  match (if s.gateRuns 16 && s.domUsable 61 then smGet (fun _ => none) s.cph.drbg p else none) with
  | none => (s, none)
  | some d =>
    let (d, s) := if d.count ≥ 65536 then (s.drbgSeed.1, (s.drbgSeed.2).count 0x1D0 2 1) else (d, s)
    let (bs, d) := drbgGen d n
    ((s.setDrbg p (some d)).count 0x1D0 1 1, some bs)

/-- RNG_DATA: eight fresh bytes of instance 0; zero while READY = 0 (14 R407). -/
def State.rngData (s : State) : Word × State :=
  match s.drbgGet 0 8 with
  | (s, some bs) => (w64 (leNat bs), s)
  | (s, none) => (0, s)

/-! ### Key slots (14 R380 to R382) -/

/-- What a slot holds. -/
def State.keySlot (s : State) (k : Nat) : Option KeySlot := smGet (fun _ => none) s.cph.slots k
/-- Fill or empty a slot. -/
def State.setKeySlot (s : State) (k : Nat) (x : Option KeySlot) : State :=
  { s with cph := { s.cph with slots := smSet (fun _ => none) s.cph.slots k x } }

/-- Does a CPH_KRANGE value cover a slot? -/
def krangeHas (r : Word) (k : Nat) : Bool :=
  bit r 63 && decide (bits r 28 16 ≤ k) && decide (k < bits r 28 16 + bits r 13 0)
/-- Does partition p own the slot (14 R380)? -/
def State.ownsSlot (s : State) (p k : Nat) : Bool := decide (1 ≤ p) && decide (p ≤ 32) && krangeHas (s.reg (aCphKrange p)) k
/-- Owner of a slot, 0 for none. -/
def State.slotOwner (s : State) (k : Nat) : Nat := (((List.range 33).drop 1).find? fun p => s.ownsSlot p k).getD 0

/-- Is an ATTR accepted for a slot of owner p (14 R381, R382)? -/
def attrOk (p : Nat) (a : Word) : Bool :=
  a.toNat &&& 0xFFFFFFFFFFC0FEC0 = 0 && bits a 20 16 ≠ 0 && !(bit a 19 && (bits a 18 16 ≠ 0 || bit a 20)) && bits a 5 0 = p

/-- A 256-bit key? -/
def KeySlot.long (k : KeySlot) : Bool := bit k.attr 8
/-- Round keys of a slot's key. -/
def KeySlot.rks (k : KeySlot) : List (List Nat) := roundKeys k.long k.key

/-- A write of CPH_KRANGE_p (14 R380). -/
def State.krangeWrite (s : State) (p : Nat) (v : Word) : State :=
  let v := w64 (v.toNat &&& 0x800000001FFF3FFF)
  let old := s.reg (aCphKrange p)
  let others := ((List.range 33).drop 1).filter (· ≠ p)
  let bad := bit v 63 && (bits v 13 0 = 0 || decide (8192 < bits v 28 16 + bits v 13 0))
  let overlap := bit v 63 && others.any fun q =>
    let r := s.reg (aCphKrange q)
    bit r 63 && decide (bits r 28 16 < bits v 28 16 + bits v 13 0) && decide (bits v 28 16 < bits r 28 16 + bits r 13 0)
  let lost := s.cph.slots.any fun e => e.2.isSome && krangeHas old e.1 && !krangeHas v e.1
  if bad || overlap || lost then s.setFld aCphStatus 32 32 1 else s.setReg (aCphKrange p) v

/-! ### Tokens (14 R383) -/

/-- KEY and ATTR as a token wraps them. -/
def keyPlain (k : KeySlot) : List Byte :=
  (if k.long then beB 32 k.key else beB 16 k.key ++ List.replicate 16 0) ++ leBytes 8 k.attr.toNat

/-- A token under a wrapping key. -/
def tokenMake (wrapper : Nat) (rks : List (List Nat)) (k : KeySlot) : List Byte :=
  leBytes 8 (0x514B + 2 ^ 16 + wrapper * 2 ^ 24) ++ kwpWrap rks (keyPlain k) ++ leBytes 8 0

/-- The key in a token for a slot of owner p, unless the token is rejected. -/
def tokenOpen (wrapper p : Nat) (rks : List (List Nat)) (bs : List Byte) : Option KeySlot :=
  if leNat (bs.take 8) ≠ 0x514B + 2 ^ 16 + wrapper * 2 ^ 24 ∨ leNat ((bs.drop 56).take 8) ≠ 0 then none
  else match kwpUnwrap rks ((bs.drop 8).take 48) with
    | none => none
    | some pt =>
      if pt.length ≠ 40 then none
      else
        let attr := w64 (leNat (pt.drop 32))
        let long := bit attr 8
        if !attrOk p attr || (!long && ((pt.drop 16).take 16).any (· ≠ 0)) then none
        else some { key := numB (pt.take (if long then 32 else 16)), attr := attr }

/-- Round keys of the module save key. -/
def saveRks : List (List Nat) := roundKeys true (Config.saveKey % 2 ^ 256)

/-! ### Clearing (14 R386) -/

/-- OP of a request block (14 R387). -/
def blkOp (b : List Word) : Nat := bits (subW b 0) 15 8
/-- MODE of a request block. -/
def blkMode (b : List Word) : Nat := bits (subW b 0) 7 4
/-- KEY1 of a request block. -/
def blkKey1 (b : List Word) : Nat := bits (subW b 4) 12 0
/-- KEY2 of a request block. -/
def blkKey2 (b : List Word) : Nat := bits (subW b 4) 28 16

/-- Does the request use KEY2? -/
def usesKey2 (b : List Word) : Bool := blkMode b = 2 || blkOp b = 0x10 || blkOp b = 0x11 || blkOp b = 0x12
/-- Does the request use KEY1? -/
def usesKey1 (b : List Word) : Bool := blkOp b ≠ 0x20
/-- Does a message use a slot? -/
def Msg.usesSlot (m : Msg) (k : Nat) : Bool := (usesKey1 m.blk && blkKey1 m.blk = k) || (usesKey2 m.blk && blkKey2 m.blk = k)

/-- Messages resident on pipelines or held for an LP. -/
def State.residentMsgs (s : State) : List Msg :=
  (s.cph.pipes.flatMap fun e => (match e.2.active with | some q => q.msg.toList | none => []) ++
    (match e.2.susp with | some q => q.msg.toList | none => [])) ++ s.cph.lp.filterMap (·.2)

/-- Does a resident request use the slot? -/
def State.slotInUse (s : State) (k : Nat) : Bool := s.residentMsgs.any fun m => m.ph ≠ .over && blkOp m.blk ≠ 0x13 && m.usesSlot k
/-- Has a clear of the slot been accepted that has not taken effect? -/
def State.slotClearing (s : State) (k : Nat) : Bool := s.cph.clearing.any fun e => e.1 = k

/-- Clears that wait for no resident request any more take effect. -/
def State.clearSlots (s : State) : State :=
  s.cph.clearing.foldl (fun s e =>
    if s.slotInUse e.1 then s
    else
      let s := s.setKeySlot e.1 none
      let s := { s with cph := { s.cph with clearing := s.cph.clearing.filter fun x => decide (x ≠ e) } }
      if e.2 then s.setReg aCphKcmdStatus 0 else s) s

/-- A clear of a slot is accepted. -/
def State.clearSlot (s : State) (k : Nat) (kcmd : Bool) : State :=
  if s.slotClearing k && !kcmd then s
  else (State.clearSlots { s with cph := { s.cph with clearing := s.cph.clearing ++ [(k, kcmd)] } })

/-- An uncorrectable error in a slot (14 R386). -/
def State.keystoreUe (s : State) (k : Nat) : State :=
  (s.setKeySlot k none).raise { src := 0x4CF, info0 := k, idA := s.slotOwner k, part := s.slotOwner k }

/-! ### Commands of CPH_KCMD (14 R384, R385) -/

/-- Absolute address of the command block. -/
def State.kcmdAddr (s : State) : Nat := s.fld aCphKcmdAddr 51 8 * 256

/-- A command ends with a result. -/
def State.kcmdEnd (s : State) (r : Nat) : State := s.setReg aCphKcmdStatus (w64 r)

/-- Are the bytes of a block zero that its command does not use? -/
def kcmdZero (imp : Bool) (b : List Byte) : Bool :=
  ((b.drop 8).take 56).all (· = 0) && (imp || ((b.drop 128).take 96).all (· = 0)) && (b.drop 224).all (· = 0)

/-- The checks that come first: BUSY, an owner, an empty slot, a readable block whose other bytes are zero. The continuation gets
the owner and the block. -/
def State.kcmdLoad (s : State) (k : Nat) (imp : Bool) (f : State → Nat → List Byte → State) : State :=
  if s.flag aCphKcmdStatus 63 then s
  else
    let p := s.slotOwner k
    if p = 0 then s.kcmdEnd 1
    else if (s.keySlot k).isSome then s.kcmdEnd 2
    else
      let a := s.kcmdAddr
      let b := s.bytes a 256
      if !(s.memOk a) || (List.range 256).any (fun i => s.badByte (a + i)) || !kcmdZero imp b then s.kcmdEnd 3
      else f s p b

/-- SEAL_GEN. -/
def State.sealGen (s : State) (k : Nat) : State :=
  s.kcmdLoad k false fun s p b =>
    let attr := w64 (leNat (b.take 8))
    if !attrOk p attr then s.kcmdEnd 3
    else match s.drbgGet 0 (if bit attr 8 then 32 else 16) with
      | (s, none) => s.kcmdEnd 6
      | (s, some bs) =>
        let ks : KeySlot := { key := numB bs, attr := attr }
        let s := (s.setKeySlot k (some ks)).hubPut (s.kcmdAddr + 64) (tokenMake 1 saveRks ks)
        s.kcmdEnd 0

/-- SEAL_LOAD. -/
def State.sealLoad (s : State) (k : Nat) : State :=
  s.kcmdLoad k false fun s p b =>
    match tokenOpen 1 p saveRks ((b.drop 64).take 64) with
    | none => s.kcmdEnd 4
    | some ks => (s.setKeySlot k (some ks)).kcmdEnd 0

/-- The import key of a shared secret Z for owner p (14 R385). -/
def importKey (z p : Nat) : Nat :=
  let name : List Byte := [0x51, 0x4E, 0x38, 0x31, 0x30, 0x30, 0x2D, 0x49, 0x4D, 0x50, 0x4F, 0x52, 0x54]
  sha384 (beB 4 1 ++ beB 48 z ++ name ++ leBytes 8 Config.moduleName ++ [BitVec.ofNat 8 p]) / 2 ^ 128

/-- Base point of P-384. -/
def g384 : Nat × Nat :=
  (0xAA87CA22BE8B05378EB1C71EF320AD746E1D3B628BA79B9859F741E082542A385502F25DBF55296C3A545E3872760AB7,
   0x3617DE4A96262C6F5D9E98BF9292DC29F8F41DBD289A147CE9DA3113B5F0B8C00A60B1CE1D7E819D7A431D7C90EA0E5F)
/-- Order of the base point. -/
def n384 : Nat := 0xFFFFFFFFFFFFFFFFFFFFFFFFFFFFFFFFFFFFFFFFFFFFFFFFC7634D81F4372DDF581A0DB248B0A77AECEC196ACCC52973
/-- The module's private key as a scalar. -/
def modScalar : Nat := 1 + Config.modKey % (n384 - 1)
/-- Word i of CPH_MODPUB. -/
def modPub (i : Nat) : Word :=
  match ecMul 384 modScalar (some g384) none with
  | some (x, y) => w64 (leNat (((beB 48 x ++ beB 48 y).drop (8 * i)).take 8))
  | none => 0

/-- IMPORT. P-384 has cofactor 1, so the full validation is: coordinates below p, and on the curve. -/
def State.keyImport (s : State) (k : Nat) : State :=
  s.kcmdLoad k true fun s p b =>
    let x := numB ((b.drop 128).take 48)
    let y := numB ((b.drop 176).take 48)
    if !(decide (x < p384) && decide (y < p384) && onP384 x y) then s.kcmdEnd 5
    else match ecMul 384 modScalar (some (x, y)) none with
      | none => s.kcmdEnd 5
      | some (z, _) =>
        match tokenOpen 2 p (roundKeys true (importKey z p)) ((b.drop 64).take 64) with
        | none => s.kcmdEnd 4
        | some ks => (s.setKeySlot k (some ks)).kcmdEnd 0

/-- CLEAR. -/
def State.keyClear (s : State) (k : Nat) : State :=
  if s.flag aCphKcmdStatus 63 then s
  else if s.slotOwner k = 0 then s.kcmdEnd 1
  else (s.setReg aCphKcmdStatus (w64 (2 ^ 63))).clearSlot k true

/-- QUERY. -/
def State.keyQuery (s : State) (k : Nat) : State :=
  if s.flag aCphKcmdStatus 63 then s
  else if s.slotOwner k = 0 then s.kcmdEnd 1
  else if !s.memOk s.kcmdAddr then s.kcmdEnd 3
  else (s.hubPut s.kcmdAddr (leBytes 8 (match s.keySlot k with | some x => x.attr.toNat | none => 0))).kcmdEnd 0

/-- A write of CPH_KCMD (14 R384). -/
def State.kcmdWrite (s : State) (v : Word) : State :=
  let k := bits v 28 16
  match bits v 3 0 with
  | 1 => s.sealGen k
  | 2 => s.sealLoad k
  | 3 => s.keyImport k
  | 4 => s.keyClear k
  | 5 => s.keyQuery k
  | _ => s

end Sys2Proof.Machine
end

