-- ==== Sys2Proof/Machine/Cipher.lean ====
section
/-! DEFINITION. Messages of the cipher pipelines (14 R378, R387 to R401): the request block and its checks, the modes block by
block, contexts, zeroing. -/

namespace Sys2Proof.Machine
open Sys2Proof

/-! ### The request block (14 R387) -/

/-- TAGLEN. -/
def Msg.tagLen (m : Msg) : Nat := bits (subW m.blk 0) 55 48
/-- DU_LOG2. -/
def Msg.du (m : Msg) : Nat := bits (subW m.blk 0) 47 44
/-- Data unit of XTS in bytes. -/
def Msg.duBytes (m : Msg) : Nat := 2 ^ (m.du + 9)
/-- AUTH. -/
def Msg.auth (m : Msg) : Nat := bits (subW m.blk 0) 43 42
/-- CONT_OUT. -/
def Msg.contOut (m : Msg) : Bool := bit (subW m.blk 0) 41
/-- CONT_IN. -/
def Msg.contIn (m : Msg) : Bool := bit (subW m.blk 0) 40
/-- IVGEN. -/
def Msg.ivGen (m : Msg) : Bool := bit (subW m.blk 0) 38
/-- CTXWRAP. -/
def Msg.ctxWrap (m : Msg) : Bool := bit (subW m.blk 0) 37
/-- OP. -/
def Msg.op (m : Msg) : Nat := blkOp m.blk
/-- MODE. -/
def Msg.mode (m : Msg) : Nat := blkMode m.blk
/-- CTX. -/
def Msg.ctx (m : Msg) : Nat := (subW m.blk 5).toNat
/-- AAD. -/
def Msg.aad (m : Msg) : Nat := (subW m.blk 6).toNat
/-- AAD_LEN. -/
def Msg.aadLen (m : Msg) : Nat := bits (subW m.blk 7) 31 0
/-- The 16 bytes of IV. -/
def Msg.ivBytes (m : Msg) : List Byte := leBytes 8 (subW m.blk 8).toNat ++ leBytes 8 (subW m.blk 9).toNat
/-- The 16 bytes of TAG. -/
def Msg.tagBytes (m : Msg) : List Byte := leBytes 8 (subW m.blk 10).toNat ++ leBytes 8 (subW m.blk 11).toNat
/-- Is it one of the key operations? -/
def Msg.keyOp (m : Msg) : Bool := decide (0x10 ≤ m.op) && decide (m.op ≤ 0x13)
/-- Does the operation read the source? -/
def Msg.readsSrc (m : Msg) : Bool := m.op ≤ 0x10
/-- GCM DECRYPT? -/
def Msg.gcmDec (m : Msg) : Bool := m.mode = 1 && m.op = 2
/-- Does the whole message count as one unit of `cphx` (14 R402)? -/
def Msg.single (m : Msg) : Bool := m.hold || m.mode = 6 || m.keyOp

/-- A message with nothing done. -/
def Msg.fresh (blk : List Word) (part src srcLen dst dstLen : Nat) : Msg where
  blk := blk
  part := part
  ph := .new
  src := src
  srcLen := srcLen
  dst := dst
  dstLen := dstLen
  used := 0
  wrote := 0
  inTotal := 0
  outTotal := 0
  dstStart := dst
  aadDone := 0
  ctr := 0
  ghash := 0
  chain := 0
  tweak := 0
  held := []
  lenA := 0
  hold := false
  staged := []
  iv := 0
  zeroed := 0
  unzeroed := 0
  status := 0
  detail := 0
  tag := none

/-- The message over with a status and DETAIL. -/
def Msg.over (m : Msg) (status detail : Nat) : Msg := { m with ph := .over, status := status, detail := detail }

/-! ### Checks (14 R388) -/

/-- Step 2: Reserved fields are zero. -/
def cphReservedOk (ring : Bool) (b : List Word) : Bool :=
  let mode := blkMode b
  let op := blkOp b
  let m := fun i (k : Nat) => (subW b i).toNat &&& (2 ^ 64 - 1 - k) = 0
  let ad := if ring then 0xFFFFFFFFFFFFFFFF else 0
  m 0 (0x00FF03A00000FFF0 + (if mode = 2 then 0xF00000000000 else 0) + (if mode = 1 ∧ op = 2 then 0xC0000000000 else 0)
      + (if mode = 1 ∧ op = 1 then 0x4000000000 else 0))
    && m 1 ad && m 2 ad && m 3 ad
    && m 4 ((if usesKey2 b then 0x1FFF0000 else 0) + (if usesKey1 b then 0x1FFF else 0))
    && m 6 (if mode = 1 then 0xFFFFFFFFFFFFFFFF else 0) && m 7 (if mode = 1 then 0xFFFFFFFF else 0)

/-- MODE, OP, TAGLEN and lengths of 14 R378; n is the source length. -/
def cphModeOk (m : Msg) (n : Nat) : Bool :=
  let t := m.tagLen
  match m.mode with
  | 1 => (m.op = 1 || m.op = 2) && decide (1 ≤ n) && decide (n ≤ 2 ^ 36 - 32) && (t = 4 || t = 8 || (decide (12 ≤ t) && decide (t ≤ 16)))
  | 2 => (m.op = 1 || m.op = 2) && t = 0 && m.du ≤ 7 && n % m.duBytes = 0
  | 3 => (m.op = 1 || m.op = 2) && t = 0
  | 4 => (m.op = 1 || m.op = 2) && t = 0 && n % 16 = 0
  | 5 => (m.op = 3 || m.op = 4) && decide (4 ≤ t) && decide (t ≤ 16)
  | 6 => t = 0 && ((m.op = 1 && decide (1 ≤ n) && decide (n ≤ 65528)) || (m.op = 2 && n % 8 = 0 && decide (16 ≤ n) && decide (n ≤ 65536)))
  | 0 => t = 0 && ((m.op = 0x20 && decide (1 ≤ n) && decide (n ≤ 65536)) || (m.keyOp && n = 64))
  | _ => false

/-- IV and TAG are zero where 14 R378, R387 and R398 ask for it. -/
def cphIvOk (m : Msg) : Bool :=
  let iv0 := subW m.blk 8 = 0
  let iv1 := subW m.blk 9 = 0
  let tag0 := subW m.blk 10 = 0 && subW m.blk 11 = 0
  (if m.contIn then iv0 && iv1 && !m.ivGen && m.aad = 0 && m.aadLen = 0
   else match m.mode with
    | 1 => m.ivGen || bits (subW m.blk 9) 63 32 = 0
    | 2 | 3 | 4 => true
    | 0 => iv1 && (iv0 || m.op = 0x11)
    | _ => iv0 && iv1)
  && (m.mode = 1 || m.mode = 5 || tag0)

/-- AUTH, the CONT bits and CTXWRAP (14 R393, R398, R400). -/
def cphContOk (lp : Bool) (m : Msg) (n : Nat) : Bool :=
  let cont := m.contIn || m.contOut
  let chainable := (m.op = 1 && decide (1 ≤ m.mode) && decide (m.mode ≤ 4)) || (m.op = 2 && decide (2 ≤ m.mode) && decide (m.mode ≤ 4)) || m.mode = 5
  !(m.auth = 3) && !(m.auth = 1 && decide (65536 < n)) && (!cont || (chainable && m.ctx ≠ 0)) && (!m.contOut || n % 16 = 0)
    && (!lp || m.ctx ≠ 0) && (m.ctx = 0 || m.ctxWrap || m.mode = 3 || m.mode = 4 || m.mode = 5)

/-- Step 3, for a message that starts or for one resumed after an interruption, whose lengths have been checked before. -/
def cphCombo (lp resumed : Bool) (m : Msg) : Bool :=
  (if resumed then m.mode ≤ 6 else cphModeOk m m.srcLen && cphIvOk m) && cphContOk lp m (if resumed then 0 else m.srcLen)

/-- DETAIL of a slot that a requester of partition p may not use for this, if any; `need` is a mask over ATTR, `full` asks for a
key. -/
def State.slotBad (s : State) (p k need : Nat) : Option Nat :=
  if !s.ownsSlot p k then some 2
  else match (if s.slotClearing k then none else s.keySlot k) with
    | none => some 1
    | some x => if x.attr.toNat &&& need = need then none else some 3

/-- DETAIL of an empty target slot that is not one. -/
def State.targetBad (s : State) (p k : Nat) : Option Nat :=
  if !s.ownsSlot p k then some 2 else if (s.keySlot k).isSome then some 7 else none

/-- Usage bits that an operation needs in KEY1 (14 R382). -/
def Msg.need (m : Msg) : Nat :=
  if m.mode = 6 then 2 ^ 20 else if m.mode = 5 then 2 ^ 18 else if m.op = 1 then 2 ^ 16 else 2 ^ 17

/-- Step 4 without tokens: DETAIL of the first key that is refused. -/
def State.keysBad (s : State) (m : Msg) : Option Nat :=
  let p := m.part
  let k1 := blkKey1 m.blk
  let k2 := blkKey2 m.blk
  let wrap := 2 ^ 19
  match m.op with
  | 0x20 => none
  | 0x10 => (s.targetBad p k1).or (s.slotBad p k2 wrap)
  | 0x11 =>
    let a := w64 (leNat (m.ivBytes.take 8))
    ((s.targetBad p k1).or (s.slotBad p k2 wrap)).or (if attrOk p a then none else some 3)
  | 0x12 => (s.slotBad p k1 (2 ^ 21)).or (s.slotBad p k2 wrap)
  | 0x13 => if s.ownsSlot p k1 then none else some 2
  | _ =>
    if m.mode ≠ 2 then s.slotBad p k1 m.need
    else
      ((s.slotBad p k1 m.need).or (s.slotBad p k2 m.need)).or
        (match s.keySlot k1, s.keySlot k2 with
          | some a, some b => if k1 = k2 then some 5 else if a.long ≠ b.long then some 4 else if a.key = b.key then some 5 else none
          | _, _ => none)

/-- Output length of a message of n source bytes; none for unwrapping, whose length is in the integrity block. -/
def Msg.outLen (m : Msg) (n : Nat) : Option Nat :=
  match m.mode with
  | 5 => some 0
  | 6 => if m.op = 1 then some (8 * ((n + 7) / 8) + 8) else none
  | 0 => some (if m.op = 0x20 then n else if m.op = 0x11 ∨ m.op = 0x12 then 64 else 0)
  | _ => some n

/-- Does the request need DRBG output (14 R406)? -/
def Msg.needsRng (lp : Bool) (m : Msg) : Bool :=
  m.op = 0x20 || m.op = 0x11 || m.ivGen || (m.ctxWrap && (m.contOut || (lp && !m.single)))

/-- Round keys of KEY1 and KEY2 as they stand. -/
def State.msgKeys (s : State) (m : Msg) : List (List Nat) × List (List Nat) :=
  let k := fun i => match s.keySlot i with | some x => x.rks | none => []
  (k (blkKey1 m.blk), if usesKey2 m.blk then k (blkKey2 m.blk) else [])

/-! ### Contexts (14 R399 to R401) -/

/-- Bytes 0x00 to 0x3F of a context. -/
def Msg.ctxHead (m : Msg) : List Byte :=
  let phase := match m.ph with | .new | .aad => 0 | .data | .over => 1 | .zeroing => 2
  let w0 := subW m.blk 0
  bytesOf [putBits (putBits (putBits (putBits 0 63 63 1) 62 62 (b2n m.ctxWrap)) 23 16 phase) 15 0 (bits w0 15 0),
    putBits (putBits (putBits (putBits 0 63 56 m.tagLen) 55 52 m.du) 45 40 m.part) 28 0 (bits (subW m.blk 4) 28 0),
    w64 m.inTotal, w64 m.outTotal, w64 m.dstStart, w64 m.aadDone, 0, 0]

/-- STATE: six blocks. -/
def Msg.ctxState (m : Msg) : List Byte :=
  let held := m.held ++ List.replicate (16 - m.held.length) 0
  beB 16 (if m.mode = 2 then revBlock m.ctr else m.ctr) ++ beB 16 m.ghash ++ beB 16 m.chain ++ beB 16 m.tweak ++ held
    ++ beB 16 (8 * m.lenA * 2 ^ 64 + 8 * m.inTotal)

/-- VALID and the CRC round a context's words. -/
def ctxFin (bs : List Byte) : List Byte := bs ++ leBytes 8 (crc32c bs)

/-- A context sealed under a key with an IV of 12 bytes. -/
def Msg.sealCtx (m : Msg) (key : Nat) (iv : List Byte) : List Byte :=
  let m := { m with blk := m.blk.set 0 (putBits (subW m.blk 0) 37 37 1) }
  let (ct, tag) := gcmSeal (roundKeys true (key % 2 ^ 256)) (numB iv) m.ctxHead m.ctxState
  ctxFin (m.ctxHead ++ ct ++ (iv ++ List.replicate 4 0) ++ beB 16 tag ++ List.replicate 56 0)

/-- A context as bytes; a sealed one draws its nonce from the partition's instance. Without one VALID stays 0. -/
def State.msgCtx (s : State) (m : Msg) (wrap : Bool) : State × List Byte :=
  if !wrap then
    let m := { m with blk := m.blk.set 0 (putBits (subW m.blk 0) 37 37 0) }
    (s, ctxFin (m.ctxHead ++ m.ctxState ++ List.replicate 88 0))
  else match s.drbgGet m.part 12 with
    | (s, none) => (s, List.replicate 256 0)
    | (s, some iv) => (s, m.sealCtx (Config.ctxKey m.part) iv)

/-- The message that a context continues, if the context is valid for it (14 R401). -/
def Msg.resumeWith (m : Msg) (key : Nat) (wrap : Bool) (bs : List Byte) : Option Msg :=
  let w := fun i => w64 (leNat ((bs.drop (8 * i)).take 8))
  let w0 := subW m.blk 0
  let sealed := bit (w 0) 62
  let body := (bs.drop 64).take 96
  let ok := bit (w 0) 63 && bits (w 31) 31 0 = crc32c (bs.take 248) && bits (w 0) 15 0 = bits w0 15 0 && sealed = wrap
    && bits (w 1) 63 56 = m.tagLen && bits (w 1) 55 52 = m.du && bits (w 1) 45 40 = m.part && bits (w 1) 28 0 = bits (subW m.blk 4) 28 0
  let (st, tag) := gcmOpen (roundKeys true (key % 2 ^ 256)) (numB ((bs.drop 160).take 12)) (bs.take 64) body
  if !ok || (sealed && beB 16 tag ≠ (bs.drop 176).take 16) then none
  else
    let st := if sealed then st else body
    let b := fun i => numB ((st.drop (16 * i)).take 16)
    let inT := (w 2).toNat
    some { m with
      ph := (match bits (w 0) 23 16 with | 0 => .aad | 2 => .zeroing | _ => .data)
      inTotal := inT, outTotal := (w 3).toNat, dstStart := (w 4).toNat, aadDone := (w 5).toNat
      ctr := if m.mode = 2 then revBlock (b 0) else b 0, ghash := b 1, chain := b 2, tweak := b 3
      held := if m.mode = 5 ∧ inT ≠ 0 then (st.drop 64).take 16 else []
      lenA := b 5 / 2 ^ 64 / 8 }

/-- The message that a context in the request's own context area continues (14 R401). -/
def Msg.resume (m : Msg) (bs : List Byte) : Option Msg := m.resumeWith (Config.ctxKey m.part) m.ctxWrap bs

/-! ### Modes (14 R378) -/

/-- One block of a mode: the message after it, and its output. -/
def Msg.block (k1 k2 : List (List Nat)) (m : Msg) (b : List Byte) : Msg × List Byte :=
  let n := b.length
  let x := blockOf b
  let enc := m.op = 1
  match m.mode with
  | 1 =>
    let y := blockTake n (x ^^^ aesEnc k1 m.ctr)
    ({ m with ctr := inc32 m.ctr, ghash := ghStep (aesEnc k1 0) m.ghash (if enc then blockOf y else x), inTotal := m.inTotal + n }, y)
  | 2 =>
    let start := m.inTotal % m.duBytes = 0
    let t := if start then aesEnc k2 (revBlock m.ctr) else m.tweak
    let y := (if enc then aesEnc k1 (x ^^^ t) else aesDec k1 (x ^^^ t)) ^^^ t
    ({ m with ctr := if start then (m.ctr + 1) % 2 ^ 128 else m.ctr, tweak := xtsNext t, inTotal := m.inTotal + n }, blockTake n y)
  | 3 => ({ m with ctr := (m.ctr + 1) % 2 ^ 128, inTotal := m.inTotal + n }, blockTake n (x ^^^ aesEnc k1 m.ctr))
  | 4 =>
    if enc then
      let y := aesEnc k1 (x ^^^ m.chain)
      ({ m with chain := y, inTotal := m.inTotal + n }, blockTake n y)
    else ({ m with chain := x, inTotal := m.inTotal + n }, blockTake n (aesDec k1 x ^^^ m.chain))
  | _ =>
    -- CMAC: the block before this one is not the last
    ({ m with chain := if m.held.isEmpty then m.chain else aesEnc k1 (m.chain ^^^ blockOf m.held), held := b
              inTotal := m.inTotal + n }, [])

/-- A stretch of source, in whole blocks but for the end of the message. -/
def Msg.run (k1 k2 : List (List Nat)) (m : Msg) (src : List Byte) : Msg × List Byte :=
  let (m, out) := (toBlocks src).foldl (fun (st : Msg × List (List Byte)) b =>
    let (m, o) := st.1.block k1 k2 b; (m, o :: st.2)) (m, [])
  (m, out.reverse.flatten)

/-- The tag of a finished message: GCM's or CMAC's. -/
def Msg.mac (k1 : List (List Nat)) (m : Msg) : List Byte :=
  if m.mode = 1 then
    let y := ghStep (aesEnc k1 0) m.ghash (8 * m.lenA * 2 ^ 64 + 8 * m.inTotal)
    beB 16 (y ^^^ aesEnc k1 (gcmJ0 (m.ctr / 2 ^ 32)))
  else beB 16 (cmacLast k1 m.chain m.held)

/-- The end of the data: the message is over, or its output must be zeroed (14 R394, R395). -/
def Msg.finish (k1 : List (List Nat)) (m : Msg) : Msg :=
  if m.contOut then m.over 0 0
  else
    let t := (m.mac k1).take m.tagLen
    let same := t = m.tagBytes.take m.tagLen
    match m.mode, m.op with
    | 1, 1 => { m.over 0 0 with tag := some t }
    | 1, _ =>
      if same then m.over 0 0
      else if m.hold then m.over 0x30 0x10 else { m with ph := .zeroing }
    | 5, 3 => { m.over 0 0 with tag := some t }
    | 5, _ => if same then m.over 0 0 else m.over 0x30 0x11
    | _, _ => m.over 0 0

/-! ### Starting a message -/

/-- An access failed: a ring request is over, a bundle of an LP faults. -/
def Msg.fail (m : Msg) : IoErr → Except Flt Msg
  | .st c => .ok (m.over c 0)
  | .flt f => .error f

/-- Steps 1 to 5 and the fields a message starts with. `blk` are words 0x00 to 0x58. -/
def State.msgPrepare (s : State) (io : Mio) (m : Msg) (resumed : Bool) : State × Except Flt Msg :=
  let lp := match io with | .ring _ => false | .lp _ => true
  if !cphReservedOk (!lp) m.blk then (s, .ok (m.over 0x11 0))
  else if !cphCombo lp resumed m then (s, .ok (m.over 0x12 0))
  else match s.keysBad m with
    | some d => (s, .ok (m.over 0x31 d))
    | none =>
      if m.contIn || resumed then
        match s.ioRd io m.ctx 256 with
        | (s, .error e) => (s, m.fail e)
        | (s, .ok bs) => match m.resume bs with
          | none => (s, .ok (m.over 0x23 0x20))
          | some m' => (s, .ok { m' with hold := m.hold })
      else
        let iv := m.ivBytes
        (s, .ok { m with
          ph := if m.mode = 1 ∧ m.aadLen ≠ 0 then .aad else .data
          ctr := if m.mode = 1 then gcmJ0 (numB (iv.take 12)) + 1 else if m.mode = 2 then revBlock (numB iv) else numB iv
          chain := if m.mode = 4 then numB iv else 0
          lenA := m.aadLen
          hold := m.gcmDec && (m.auth = 1 || (m.auth = 0 && decide (m.srcLen ≤ 65536))) })

/-- The ranges of step 7: source, destination, AAD, context, as (address, length, write). -/
def Msg.ranges (m : Msg) : List (Nat × Nat × Bool) :=
  let ends := fun (a n : Nat) (w : Bool) => if n = 0 then ([] : List (Nat × Nat × Bool)) else [(a, 1, w), (a + n - 1, 1, w)]
  (if m.readsSrc then ends m.src m.srcLen false else []) ++ ends m.dst ((m.outLen m.srcLen).getD m.dstLen) true
    ++ (if m.mode = 1 then ends m.aad m.aadLen false else []) ++ (if m.ctx = 0 then [] else ends m.ctx 256 true)

/-- Steps 6 to 8, and the IV of IVGEN. -/
def State.msgReady (s : State) (io : Mio) (m : Msg) : State × Except Flt Msg :=
  let lp := match io with | .ring _ => false | .lp _ => true
  if m.ph = .over then (s, .ok m)
  else if m.dstLen < (m.outLen m.srcLen).getD 0 then (s, .ok (m.over 0x10 0))
  else
    let (s, r) := if lp then (s, none) else m.ranges.foldl (fun (st : State × Option IoErr) x =>
      match st.2 with
      | some _ => st
      | none => match st.1.ioChk io x.1 x.2.1 x.2.2 with
        | (s, .error e) => (s, some e)
        | (s, .ok _) => (s, none)) (s, none)
    match r with
    | some e => (s, m.fail e)
    | none =>
      if m.needsRng lp && s.rngFailed then (s, .ok (m.over 0x7F 0x41))
      else if m.ivGen then
        match s.drbgGet m.part 12 with
        | (s, none) => (s, .ok (m.over 0x7F 0x41))
        | (s, some iv) => (s, .ok { m with iv := numB iv, ctr := gcmJ0 (numB iv) + 1 })
      else (s, .ok m)

/-- A message starts: its block is read and the checks of 14 R388 are made. -/
def State.msgStart (s : State) (io : Mio) (addr src srcLen dst dstLen : Nat) (resumed : Bool) : State × Except Flt Msg :=
  let none_ := Msg.fresh [] (s.ioPart io) 0 srcLen 0 0
  match s.ioRd io addr 96 with
  | (s, .error e) => (s, none_.fail e)
  | (s, .ok bs) =>
    match s.ioChk io (addr + 64) 64 true with
    | (s, .error e) => (s, none_.fail e)
    | (s, .ok _) =>
      let b := wordsOf 12 bs
      let m := match io with
        | .ring p => Msg.fresh b p (subW b 1).toNat srcLen (subW b 2).toNat (subW b 3).toNat
        | .lp _ => Msg.fresh b (s.ioPart io) src srcLen dst dstLen
      match s.msgPrepare io m resumed with
      | (s, .error f) => (s, .error f)
      | (s, .ok m) => if resumed then (s, .ok m) else s.msgReady io m

/-! ### Units of work -/

/-- Source and output counts move on. -/
def Msg.advance (m : Msg) (used wrote : Nat) : Msg :=
  { m with src := m.src + used, srcLen := m.srcLen - used, used := m.used + used, dst := m.dst + wrote, dstLen := m.dstLen - wrote
           wrote := m.wrote + wrote, outTotal := m.outTotal + wrote }

/-- An access failed during the data phase: a ring Stream decryption zeroes what it has written (14 R397). -/
def Msg.broke (m : Msg) : IoErr → Except Flt Msg
  | .flt f => .error f
  | .st c => if c = 0x50 ∧ m.gcmDec ∧ !m.hold then .ok { m with ph := .zeroing, status := 0x50 } else .ok (m.over c 0)

/-- Output of a stretch is written and the counts move on. -/
def State.msgOut (s : State) (io : Mio) (m m' : Msg) (used : Nat) (out : List Byte) (fin : Msg → Msg) : State × Except Flt Msg :=
  match s.ioWr io m.dst out with
  | (s, .error (e, k)) => (s, { m with wrote := m.wrote + k, outTotal := m.outTotal + k }.broke e)
  | (s, .ok _) => (s, .ok (fin (m'.advance used out.length)))

/-- AAD: up to n bytes. -/
def State.msgAad (s : State) (io : Mio) (m : Msg) (n : Nat) : State × Except Flt Msg :=
  let k := min n (m.aadLen - m.aadDone)
  match s.ioRd io (m.aad + m.aadDone) k with
  | (s, .error e) => (s, m.fail e)
  | (s, .ok bs) =>
    let h := aesEnc (s.msgKeys m).1 0
    let m := { m with ghash := (toBlocks bs).foldl (fun y b => ghStep h y (blockOf b)) m.ghash, aadDone := m.aadDone + k }
    (s, .ok (if m.aadLen ≤ m.aadDone then { m with ph := .data } else m))

/-- Key wrapping and unwrapping of data (14 R378, R394). -/
def State.msgKwp (s : State) (io : Mio) (m : Msg) : State × Except Flt Msg :=
  match s.ioRd io m.src m.srcLen with
  | (s, .error e) => (s, m.fail (e.atSrc m.src))
  | (s, .ok bs) =>
    let n := m.srcLen
    let rks := (s.msgKeys m).1
    let done := fun (m : Msg) => { m with inTotal := n }
    if m.op = 1 then s.msgOut io m (done m) n (kwpWrap rks bs) (fun m => m.over 0 0)
    else match kwpUnwrap rks bs with
      | none => (s, .ok ((done m).advance n 0 |>.over 0x30 0x12))
      | some pt =>
        if m.dstLen < pt.length then (s, .ok (m.over 0x10 0))
        else s.msgOut io m (done m) n pt (fun m => m.over 0 0)

/-- The key operations (14 R382 to R386). -/
def State.msgKey (s : State) (io : Mio) (m : Msg) : State × Except Flt Msg :=
  let k1 := blkKey1 m.blk
  let done := fun (m : Msg) => { m with inTotal := 64 }
  match m.op with
  | 0x10 =>
    match s.ioRd io m.src 64 with
    | (s, .error e) => (s, m.fail (e.atSrc m.src))
    | (s, .ok bs) => match tokenOpen 0 m.part (s.msgKeys m).2 bs with
      | none => (s, .ok (m.over 0x31 6))
      | some ks =>
        if (s.keySlot k1).isSome then (s, .ok (m.over 0x31 7))
        else (s.setKeySlot k1 (some ks), .ok ((done m).advance 64 0 |>.over 0 0))
  | 0x11 =>
    if (s.keySlot k1).isSome then (s, .ok (m.over 0x31 7)) else
    let attr := w64 (leNat (m.ivBytes.take 8))
    match s.drbgGet m.part (if bit attr 8 then 32 else 16) with
    | (s, none) => (s, .ok (m.over 0x7F 0x41))
    | (s, some bs) =>
      let ks : KeySlot := { key := numB bs, attr := attr }
      match s.msgOut io m (done m) 64 (tokenMake 0 (s.msgKeys m).2 ks) (fun m => m.over 0 0) with
      | (s, .ok m) => (if m.status = 0 then s.setKeySlot k1 (some ks) else s, .ok m)
      | r => r
  | 0x12 =>
    match s.keySlot k1 with
    | none => (s, .ok (m.over 0x31 1))
    | some ks => s.msgOut io m (done m) 64 (tokenMake 0 (s.msgKeys m).2 ks) (fun m => m.over 0 0)
  | _ => (s.clearSlot k1 false, .ok ((done m).advance 64 0 |>.over 0 0))

/-- RANDOM: up to n bytes. The first stretch makes the generate request; what is left of its output is staged (14 R407). -/
def State.msgRandom (s : State) (io : Mio) (m : Msg) (n : Nat) : State × Except Flt Msg :=
  let (s, r) := if m.staged.isEmpty then s.drbgGet m.part m.srcLen else (s, some m.staged)
  match r with
  | none => (s, .ok (m.over 0x7F 0x41))
  | some bs =>
    let k := min n m.srcLen
    s.msgOut io m { m with staged := bs.drop k, inTotal := m.inTotal + k } k (bs.take k)
      (fun m => if m.srcLen = 0 then m.over 0 0 else m)

/-- Data of the block modes: up to n source bytes, all of them in Hold mode. -/
def State.msgData (s : State) (io : Mio) (m : Msg) (n : Nat) : State × Except Flt Msg :=
  let k := if m.hold then m.srcLen else min n m.srcLen
  match s.ioRd io m.src k with
  | (s, .error e) => (s, m.broke (e.atSrc m.src))
  | (s, .ok bs) =>
    let (k1, k2) := s.msgKeys m
    let (m', out) := m.run k1 k2 bs
    let last := k = m.srcLen
    if m.hold then
      let f := m'.finish k1
      if f.status = 0 then s.msgOut io m m' k out (fun x => x.over 0 0) else (s, .ok { f.advance k 0 with inTotal := m'.inTotal })
    else s.msgOut io m m' k (if m.mode = 5 then [] else out) (fun x => if last then x.finish k1 else x)

/-- The end of zeroing (14 R395, R397). -/
def State.zeroEnd (s : State) (m : Msg) : State × Msg :=
  if m.unzeroed ≠ 0 then
    (s, { m.over 0x50 0x32 with wrote := m.unzeroed })
  else if m.status = 0x50 then (s, { m.over 0x50 0 with wrote := 0, outTotal := 0 })
  else (s, { m.over 0x30 0x10 with wrote := 0, outTotal := 0 })

/-- Zeroing: up to n bytes of the output. -/
def State.msgZero (s : State) (io : Mio) (m : Msg) (n : Nat) : State × Except Flt Msg :=
  let k := min n (m.outTotal - m.zeroed)
  let fin := fun (s : State) (m : Msg) => if m.outTotal ≤ m.zeroed then (let (s, m) := s.zeroEnd m; (s, Except.ok m)) else (s, .ok m)
  match io with
  | .lp t => match s.vWr t (w64 (m.dstStart + m.zeroed)) (List.replicate k 0) with
    | .error f => (s, .error f)
    | .ok s => fin s { m with zeroed := m.zeroed + k }
  | .ring p =>
    let (s, bad) := (pieces (k / 2 ^ 28 + 2) (m.dstStart + m.zeroed) k).foldl (fun (st : State × Nat) x =>
      match st.1.hubWr p x.1 (List.replicate x.2 0) with
      | (s, .error _) => (s, st.2 + x.2)
      | (s, .ok _) => (s, st.2)) (s, 0)
    fin s { m with zeroed := m.zeroed + k, unzeroed := m.unzeroed + bad }

/-- A stretch of up to n bytes (a multiple of 16) of whatever the message is doing. -/
def State.msgWork (s : State) (io : Mio) (m : Msg) (n : Nat) : State × Except Flt Msg :=
  match m.ph with
  | .new | .over => (s, .ok m)
  | .aad => s.msgAad io m n
  | .zeroing => s.msgZero io m n
  | .data =>
    if m.mode = 6 then s.msgKwp io m
    else if m.mode ≠ 0 then s.msgData io m n
    else if m.op = 0x20 then s.msgRandom io m n
    else s.msgKey io m

/-! ### Reporting (14 R387, R389) -/

/-- What is written to the block: OUT_TOTAL, IN_TOTAL, DETAIL, the generated IV and the tag; and the context (14 R399, R401). -/
def State.msgReport (s : State) (io : Mio) (addr : Nat) (m : Msg) : State :=
  if m.blk.isEmpty then s
  else
    let out := if m.status = 0x30 then 0 else m.outTotal
    let s := (s.ioWr io (addr + 0x60) (bytesOf [w64 out, w64 m.inTotal, w64 m.detail, 0])).1
    let s := if m.ivGen && m.status = 0 then (s.ioWr io (addr + 0x40) (beB 12 m.iv ++ List.replicate 4 0)).1 else s
    let s := match m.tag with | some t => (s.ioWr io (addr + 0x50) t).1 | none => s
    if m.status = 0x11 || m.status = 0x12 || m.status = 0x31 || m.detail = 0x20 || m.ctx = 0 then s
    else if m.status = 0 && m.contOut then
      let (s, bs) := s.msgCtx m m.ctxWrap
      (s.ioWr io m.ctx bs).1
    else match s.ioRd io (m.ctx + 7) 1 with
      | (s, .ok [b]) => (s.ioWr io (m.ctx + 7) [b &&& 0x7F]).1
      | (s, _) => s

end Sys2Proof.Machine
end

