-- ==== Sys2Proof/Machine/Pipeline.lean ====
section
/-! DEFINITION. The cipher pipelines (14 R377, R391 to R397): placement by urgency class, suspension, the work of ring requests and
their completion. -/

namespace Sys2Proof.Machine
open Sys2Proof

/-- Availability as CPH_STATUS shows it. -/
def State.cphAvail (s : State) (p : Nat) : Bool :=
  s.flag aCphCfg p && !s.flag aCphStatus (8 + p) && s.gateOpen (8 + p) && s.domUsable (46 + p / 4)

/-- A pipeline. -/
def State.pipe (s : State) (p : Nat) : Pipe := smGet (fun _ => Pipe.idle) s.cph.pipes p
/-- Set a pipeline. -/
def State.setPipe (s : State) (p : Nat) (x : Pipe) : State :=
  { s with cph := { s.cph with pipes := smSet (fun _ => Pipe.idle) s.cph.pipes p x } }

/-- Urgency class of a queued request: real-time rings and URGENT = 1 are class 1 (14 R391). The hub reads the block's first word
for it; one that cannot be read is class 0. -/
def State.cphClass (s : State) (r : EngReq) : Nat :=
  if r.rt then 1
  else match s.hubRd r.part (subParam r.sub) 8 with
    | (_, .ok bs) => if bit (w64 (leNat bs)) 39 then 1 else 0
    | (_, .error _) => 0

/-- Where a request of a class can go now: the pipeline, and whether its class-0 message is suspended for it (14 R391). -/
def State.cphSpot (s : State) (p cls : Nat) : Option (Nat × Bool) :=
  let us := (List.range 8).filter fun e => s.cphAvail e && s.mayUse true p e
  match us.find? fun e => s.pipe e = Pipe.idle with
  | some e => some (e, false)
  | none =>
    if cls = 0 then none
    else (us.find? fun e => match (s.pipe e).active with
      | some q => q.cls = 0 && (s.pipe e).susp.isNone
      | none => false).map fun e => (e, true)

/-- The order in which queued requests are looked at: class 1 first, arrival order within a class. -/
def State.cphOrder (s : State) : List (EngReq × Nat) :=
  let l := s.cph.queue.map fun r => (r, s.cphClass r)
  (l.filter fun x => x.2 = 1) ++ l.filter fun x => x.2 = 0

/-- Remove the first copy of a request from the queue. -/
def State.cphTake (s : State) (r : EngReq) : State := { s with cph := { s.cph with queue := s.cph.queue.erase r } }

/-- Is some enabled, working pipeline open to the partition at all? -/
def State.cphAny (s : State) (p : Nat) : Bool := (List.range 8).any fun e => s.cphAvail e && s.mayUse true p e

/-- The message of a ring request starts on its pipeline: the checks of 14 R388. -/
def State.cphBegin (s : State) (r : EngReq) : State × Msg :=
  match s.msgStart (.ring r.part) (subParam r.sub) 0 (subLen r.sub) 0 0 false with
  | (s, .ok m) => (s, m)
  | (s, .error _) => (s, (Msg.fresh [] r.part 0 0 0 0).over 0x7F 0)

/-- CIPHER_REQUEST_PLACEMENT: the first queued request that has a place goes there; one no pipeline is open to ends (14 R390 to
R392). -/
def State.cphPlace (s : State) : State :=
  if !s.running then s
  else match s.cphOrder.find? fun x => (!s.cphAny x.1.part) || ((s.cphSpot x.1.part x.2).isSome && !s.deferredFor x.1.part) with
  | none => s
  | some (r, cls) =>
    let s := s.cphTake r
    match s.cphSpot r.part cls with
    | none =>
      -- the block gets its results as at every completion (14 R387)
      let s := s.msgReport (.ring r.part) (subParam r.sub) ((Msg.fresh (List.replicate 12 0) r.part 0 0 0 0).over 0x7F 0x40)
      (s.raise { src := 0x4D0, part := r.part }).engineDone r 0x7F 0 (0x40 * 2 ^ 32)
    | some (e, preempt) =>
      let s := s.wakeDom (46 + e / 4)
      let (s, m) := s.cphBegin r
      let q : CphReq := { req := r, cls := cls, msg := some m }
      if preempt then (s.setPipe e { active := some q, susp := (s.pipe e).active }).count (0x1C8 + e) 4 1
      else s.setPipe e { active := some q, susp := none }

/-- CLASS_0_RESUME: the suspended message is the active one again once the class-1 message has ended (14 R392). -/
def State.cphResume (s : State) (e : Nat) : State :=
  match s.pipe e with
  | { active := none, susp := some q } => s.setPipe e { active := some q, susp := none }
  | _ => s

/-- A stretch of up to n 16-byte blocks of the active message of pipeline e, if it is what the command names. -/
def State.cphRun (s : State) (e n : Nat) (want : Msg → Bool) : State :=
  match (s.pipe e).active with
  | some { req := r, cls := c, msg := some m } =>
    if !want m || m.ph = .over || n = 0 || s.deferredFor r.part || !s.running then s
    else match s.msgWork (.ring r.part) m (16 * n) with
      | (s, .error _) => s
      | (s, .ok m') =>
        let bytes := m'.used - m.used
        let s := ((s.setPipe e { s.pipe e with active := some { req := r, cls := c, msg := some m' } }).count (0x1C8 + e) 1 bytes).count
          (0x1C8 + e) 2 ((bytes + 15) / 16)
        s.clearSlots
  | _ => s

/-- The commands of an operation: the message does OP and is not zeroing. -/
def State.cphOp (s : State) (e n op : Nat) : State := s.cphRun e n fun m => m.op = op && m.ph ≠ .zeroing

/-- AUTH_FAIL_ZEROING: a stretch of zeroing (14 R395). -/
def State.cphZeroing (s : State) (e n : Nat) : State := s.cphRun e n fun m => m.ph = .zeroing

/-- A message that is over reports and leaves its pipeline (14 R389, R397). -/
def State.cphEnd (s : State) (e : Nat) (r : EngReq) (m : Msg) : State :=
  let s := s.setPipe e { s.pipe e with active := none }
  let s := s.msgReport (.ring r.part) (subParam r.sub) m
  let s := if m.status = 0x50 && m.detail = 0x32 then
      s.raise { src := srcCph e 2, info0 := m.wrote, idA := r.part, idB := r.ring, part := r.part }
    else s
  let s := (s.count (0x1C8 + e) 3 1).count (0x260 + r.part) 5 m.used
  let s := if m.status = 0x30 then s.count (0x1C8 + e) 5 1 else s
  (s.engineDone r m.status (if m.status = 0x30 then 0 else m.wrote) (m.used % 2 ^ 32 + m.detail * 2 ^ 32)).clearSlots

/-- CIPHER_COMPLETION: the active message of pipeline e, if it is over. -/
def State.cphCompletion (s : State) (e : Nat) : State :=
  match (s.pipe e).active with
  | some { req := r, cls := _, msg := some m } => if m.ph = .over && !s.deferredFor r.part && s.running then s.cphEnd e r m else s
  | _ => s

/-- An uncorrectable staging error ends the active message (14 R409). -/
def State.cphUpset (s : State) (e : Nat) : State :=
  match (s.pipe e).active with
  | some { req := r, cls := _, msg := some m } =>
    (s.raise { src := srcCph e 1, idA := e, part := r.part }).cphEnd e r (m.over 0x7F 0x42)
  | _ => s

/-- A resident of a pipeline in block reset (17 R444): what a Stream-mode GCM DECRYPT has written is zeroed, then the message ends with
INTERNAL_ERROR and DETAIL 0x40, or as 14 R397 says if a zeroing write failed. -/
def State.cphStopped (s : State) (e : Nat) (r : EngReq) (m : Msg) : State :=
  if m.gcmDec && !m.hold && m.outTotal ≠ 0 then
    let m := if m.ph = .zeroing then m else { m with ph := .zeroing, zeroed := 0, unzeroed := 0 }
    match s.msgZero (.ring r.part) m m.outTotal with
    | (s, .ok m) => s.cphEnd e r (if m.detail = 0x32 then m else m.over 0x7F 0x40)
    | (s, .error _) => s.cphEnd e r (m.over 0x7F 0x40)
  else s.cphEnd e r (m.over 0x7F 0x40)

/-- A block reset of a pipeline (17 R444): each message ends, then the known-answer tests run again. -/
def State.cphReset (s : State) (e : Nat) : State :=
  let stop := fun (s : State) (q : Option CphReq) => match q with
    | some { req := r, cls := _, msg := some m } => s.cphStopped e r m
    | _ => s
  let p := s.pipe e
  let s := (stop (stop s p.active) p.susp).setPipe e Pipe.idle
  let (k, s) := s.draw
  if Config.selfTest k then s
  else (s.setFld aCphStatus (8 + e) (8 + e) 1).raise { src := srcCph e 3, idA := e }

end Sys2Proof.Machine
end

