-- ==== Sys2Proof/Machine/LongEngines.lean ====
section
/-! DEFINITION. The units of `cmpx` (13 R373) and `cphx` (14 R402), and what they leave when they stop between units (02 R68). -/

namespace Sys2Proof.Machine
open Sys2Proof

/-! ### `cmpx` -/

/-- Set or drop the engine state of an LP's `cmpx`. -/
def State.setLpCmp (s : State) (n : Tri) (x : Option LpCmp) : State :=
  { s with cmp := { s.cmp with lp := smSet (fun _ => none) s.cmp.lp n.val x } }

/-- The status register (02 R66). -/
def State.putStatus (s : State) (n : Tri) (rb status : Nat) : State := s.updArch n fun a => a.putG rb (w64 status)

/-- `cmpx` ends: results into the block, the context settled, rb (13 R350, R366, R371); after NOT_SHRUNK the
destination bytes written are undefined. -/
def State.cmpxEnd (s : State) (n : Tri) (o : LongOp) (x : LpCmp) (had : Bool) (status detail : Nat) : State :=
  let io := Mio.lp n
  let blk := ((s.lp n).arch.rdG o.ra).toNat
  let start := subW x.regs 2
  let wrote := ((s.lp n).arch.rdG (o.rd + 2) - start).toNat
  let s := if status = 0x21 ∧ had ∧ wrote ≠ 0 then
      match s.vAccess n .store start wrote with
      | .ok l => s.spoil (l.flatMap (·.addrs))
      | .error _ => s
    else s
  let s := (s.ioWr io (blk + 64) (bytesOf (cmpResults x.ctl x.codec detail))).1
  let s :=
    if status = 0x20 then
      ((s.ioWr io x.ctx.toNat (ctxBytes x.ctl x.limit x.codec)).1.ioWr io x.hist.toNat x.codec.histBytes).1
    else if had && !(status = 0x23 && detail = 6) then
      match s.ioRd io (x.ctx.toNat + 7) 1 with
      | (s, .ok [b]) => (s.ioWr io (x.ctx.toNat + 7) [b &&& 0x7F]).1
      | (s, _) => s
    else s
  let s := if status = 0x21 then s.setBlockRegs n o.rd x.regs else s
  let e := x.engine
  let s := s.count (0x1C0 + e) 3 1
  let s := if status = 0x21 then s.count (0x1C0 + e) 5 1 else if status = 0x20 then s.count (0x1C0 + e) 4 1 else s
  (s.setLpCmp n none).putStatus n o.rb status

/-- Source bytes that a compressor reads for a unit: it plans whole blocks (13 R345, R352, R364), so the unit that opens a block reads all
of it (DEDUCED, log entry 7). -/
def Codec.unitRead (c : Codec) (left : Nat) : Nat :=
  match c with
  | .comp k => min left (max (min left 256) (k.needBytes (k.ahead.length + 256) - k.ahead.length))
  | .dec _ => min left 256

/-- The codec after a unit of 256 bytes: the bytes that no output represents yet are kept. -/
def Codec.keepAhead (c : Codec) (bs : List Byte) : Codec :=
  match c with
  | .comp k => .comp { k with ahead := bs }
  | d => d

/-- One unit with the engine state x: a compressor's registers advance by the whole unit (02 R64), and stand at what the output represents
where it ends. -/
def State.cmpxUnit (s : State) (n : Tri) (o : LongOp) (x : LpCmp) : Except Flt (State × Bool) :=
  match s.blockRegs n o.rd with
  | [src, slen, dst, dlen] =>
    let k := x.codec.unitRead slen.toNat
    match s.vRd n src k with
    | .error f => .error { f with faddr := src }
    | .ok (s, bs) =>
      let a := x.codec.ahead
      let u := min slen.toNat 256
      let (c, used, out, e) := (x.codec.keepAhead []).work (a ++ bs) (slen.toNat - k) dlen.toNat true (a.length + u)
      match s.vWr n dst out with
      | .error f => .error f
      | .ok s =>
        let (c, w) := match c, e with
          | .comp k, .more => (.comp { k with ahead := (a ++ bs.take u).drop used }, w64 u)
          | c, _ => (c, w64 used - w64 a.length)
        let s := s.setBlockRegs n o.rd [src + w, slen - w, dst + w64 out.length, dlen - w64 out.length]
        let s := ((s.count (0x1C0 + x.engine) 1 used).count (0x1C0 + x.engine) 2 out.length).count (0x260 + s.partOf n) 5 used
        let x := { x with codec := c }
        match e with
        | .more => .ok (s.setLpCmp n (some x), false)
        | .over st d => .ok (s.cmpxEnd n o x true st d, true)
  | _ => .ok (s, true)

/-- Engines open to a partition. -/
def State.cmpOpen (s : State) (p : Nat) : List Nat := (List.range 8).filter fun e => s.cmpAvail e && s.mayUse false p e
/-- The engine a request goes to: the one with the fewest residents among those with room, the lowest on a tie (13 R344). -/
def State.cmpRoom (s : State) (p : Nat) : Option Nat :=
  leastLoaded (fun e => (s.cmpRes e).length) ((s.cmpOpen p).filter fun e => decide ((s.cmpRes e).length < 8))

/-- Must the request of a long instruction wait: the partition has engines or pipelines, and none has room (13 R344, 14 R391)? -/
def State.engineFull (s : State) (n : Tri) (o : LongOp) : Bool :=
  let p := s.partOf n
  (s.lp n).arch.rdG (o.rd + 1) ≠ 0 &&
    match o.kind with
    | .cmpx => !(s.cmpOpen p).isEmpty && (s.cmpRoom p).isNone
    | .cphx => s.cphAny p && (s.cphSpot p 1).isNone
    | _ => false

/-- The first unit of this execution: the block, its checks, the context (13 R349, R373, 02 R70). -/
def State.cmpxStart (s : State) (n : Tri) (o : LongOp) (slen : Nat) : Except Flt (State × Bool) :=
  let a := (s.lp n).arch
  let blk := a.rdG o.ra
  match s.vRd n blk 64 with
  | .error f => .error f
  | .ok (s, bs) =>
    match s.vAccess n .store (blk + 64) 64 with
    | .error f => .error f
    | .ok _ =>
      let b := wordsOf 8 bs
      let w := subW b 0
      let dec := ctlDec w
      let lim := cmpLimit dec b slen
      let ctl := ctlWord dec w
      let x : LpCmp := { codec := codecStart dec ctl lim, ctl := ctl, limit := lim, ctx := subW b 5, hist := subW b 6
                         regs := s.blockRegs n o.rd, engine := 0 }
      let fail := fun (s : State) (st d : Nat) => (Except.ok (s.cmpxEnd n o x false st d, true) : Except Flt (State × Bool))
      if !cmpReservedOk false dec b then fail s 0x11 0
      else if cmpUnassigned dec w then fail s 0x12 0x30
      else
        let resumed := progressApplies a.progress .cmpx && bit a.progress 58
        let ready := fun (s : State) (x : LpCmp) =>
          match s.vAccess n .store x.ctx 1024 with
          | .error f => .error f
          | .ok _ =>
            match s.vAccess n .store x.hist 32768 with
            | .error f => .error f
            | .ok _ =>
              match s.cmpRoom (s.partOf n) with
              | none => fail (s.raise { src := 0x4CE, part := s.partOf n }) 0x7F 0x40
              | some e => (s.wakeDom (44 + e / 4)).cmpxUnit n o { x with engine := e }
        if bit w 28 || resumed then
          if x.ctx = 0 && !resumed then fail s 0x23 0x20
          else match s.vRd n x.ctx 1024 with
            | .error f => .error f
            | .ok (s, cs) =>
              if !ctxValid cs ctl (subW b 4).toNat lim then fail s 0x23 0x20
              else match s.vRd n x.hist (min 32768 (subW (wordsOf 128 cs) 10).toNat) with
                | .error f => .error f
                | .ok (s, hs) => ready s { x with codec := codecOf cs hs, limit := (subW (wordsOf 128 cs) 2).toNat }
        else ready s x

/-- One unit of `cmpx`; the Bool says that the instruction finished. -/
def State.unitCmpx (s : State) (n : Tri) (o : LongOp) : Except Flt (State × Bool) :=
  match smGet (fun _ => none) s.cmp.lp n.val with
  | some x => s.cmpxUnit n o x
  | none =>
    let slen := (s.lp n).arch.rdG (o.rd + 1)
    if slen = 0 then .ok (s.putStatus n o.rb 0, true) else s.cmpxStart n o slen.toNat

/-! ### `cphx` -/

/-- Set or drop the message of an LP's `cphx`. -/
def State.setLpCph (s : State) (n : Tri) (x : Option Msg) : State :=
  { s with cph := { s.cph with lp := smSet (fun _ => none) s.cph.lp n.val x } }

/-- The block registers as the message stands; after zeroing no output is kept (14 R389). -/
def Msg.regs (m : Msg) : List Word :=
  if m.status = 0x30 ∧ m.zeroed ≠ 0 then [w64 m.src, w64 m.srcLen, w64 m.dstStart, w64 (m.dstLen + m.zeroed)]
  else [w64 m.src, w64 m.srcLen, w64 m.dst, w64 m.dstLen]

/-- After a unit: the registers, and the end of a message that is over. -/
def State.cphxAfter (s : State) (n : Tri) (o : LongOp) (m : Msg) : State × Bool :=
  if m.ph = .over then
    let s := s.msgReport (.lp n) ((s.lp n).arch.rdG o.ra).toNat m
    let s := s.setBlockRegs n o.rd m.regs
    (((s.setLpCph n none).putStatus n o.rb m.status).clearSlots, true)
  else ((s.setBlockRegs n o.rd m.regs).setLpCph n (some m), false)

/-- What the pipeline counts for a unit (20 R503). -/
def State.cphxCount (s : State) (n : Tri) (m m' : Msg) : State :=
  let b := m'.used - m.used
  let s := ((s.count (0x1C8 + m.pipe) 1 b).count (0x1C8 + m.pipe) 2 ((b + 15) / 16)).count (0x260 + s.partOf n) 5 b
  if m'.ph ≠ .over then s
  else
    let s := s.count (0x1C8 + m.pipe) 3 1
    if m'.status = 0x30 then s.count (0x1C8 + m.pipe) 5 1 else s

/-- One unit of a message: 256 bytes, or all of it (14 R402). -/
def State.cphxUnit (s : State) (n : Tri) (o : LongOp) (m : Msg) : Except Flt (State × Bool) :=
  let io := Mio.lp n
  if m.single then
    let (s, r) := if m.ph = .aad then s.msgWork io m m.aadLen else (s, .ok m)
    match r with
    | .error f => .error f
    | .ok m => match s.msgWork io m m.srcLen with
      | (_, .error f) => .error f
      | (s, .ok m') => .ok ((s.cphxCount n m m').cphxAfter n o m')
  else match s.msgWork io m 256 with
    | (_, .error f) => .error f
    | (s, .ok m') => .ok ((s.cphxCount n m m').cphxAfter n o m')

/-- One unit of `cphx`; the Bool says that the instruction finished. -/
def State.unitCphx (s : State) (n : Tri) (o : LongOp) : Except Flt (State × Bool) :=
  match smGet (fun _ => none) s.cph.lp n.val with
  | some m => s.cphxUnit n o m
  | none =>
    let a := (s.lp n).arch
    match s.blockRegs n o.rd with
    | [src, slen, dst, dlen] =>
      if slen = 0 then .ok (s.putStatus n o.rb 0, true)
      else
        let resumed := progressApplies a.progress .cphx && bit a.progress 58
        match s.msgStart (.lp n) (a.rdG o.ra).toNat src.toNat slen.toNat dst.toNat dlen.toNat resumed with
        | (_, .error f) => .error f
        | (s, .ok m) =>
          if m.ph = .over then .ok (s.cphxAfter n o m)
          else match s.vAccess n .store (w64 m.ctx) 256 with
            | .error f => .error f
            | .ok _ =>
              match s.cphSpot m.part 1 with
              | none => .ok ((s.raise { src := 0x4D0, part := m.part }).cphxAfter n o (m.over 0x7F 0x40))
              | some (e, preempt) =>
                let s := if preempt then s.count (0x1C8 + e) 4 1 else s
                (s.wakeDom (46 + e / 4)).cphxUnit n o { m with pipe := e }
    | _ => .ok (s, true)

/-! ### Stopping between units -/

/-- Before an exception is taken, `cmpx` and `cphx` write their engine state to the context area (02 R68). -/
def State.longStop (s : State) (n : Tri) : State :=
  let io := Mio.lp n
  let s := match smGet (fun _ => none) s.cmp.lp n.val with
    | some x =>
      ((s.ioWr io x.ctx.toNat (ctxBytes x.ctl x.limit x.codec)).1.ioWr io x.hist.toNat x.codec.histBytes).1.setLpCmp n none
    | none => s
  match smGet (fun _ => none) s.cph.lp n.val with
  | some m =>
    let (s, bs) := s.msgCtx m m.ctxWrap
    ((s.ioWr io m.ctx bs).1.setLpCph n none).clearSlots
  | none => s

end Sys2Proof.Machine
end

