-- ==== Sys2Proof/Machine/VotedState.lean ====
section
/-! DEFINITION. The voted state by index (06 R172 to R174). -/

namespace Sys2Proof.Machine
open Sys2Proof

/-- Words of an accumulator: L, M, H. -/
def accWord (a : Arch) (i : Nat) : Word := accRead (a.rdAcc (i / 3)) (i % 3)

/-- Item i of a state (06 R174), its shadow words given. -/
def vsItem (a : Arch) (sh : List Nat) (i : Nat) : Word :=
  if i < 0x40 then a.rawG i
  else if i < 0x60 then a.rawF (i - 0x40)
  else if i < 0x6C then accWord a (i - 0x60)
  else if i = 0x70 then a.pc
  else if i = 0x71 then a.npc
  else if i = 0x72 then a.progress
  else if i = 0x73 then w64 (b2n a.nmtIs + 2 * b2n a.escIs)
  else if 0x78 ≤ i ∧ i ≤ 0x7F then w64 (sh.getD (i - 0x78) 0)
  else if 0x100 ≤ i ∧ i ≤ 0x1FF then a.cr false (i - 0x100)
  else 0

/-- A control register of the voted state written: no write effect but the fields it has. -/
def vsSetCr (a : Arch) (n : Nat) (v : Word) : Arch :=
  if n = 0 then { a with psw := if bits v 1 0 = 2 then putBits (v &&& pswMask) 1 0 (bits a.psw 1 0) else v &&& pswMask }
  else if n = 1 then { a with fcsr := putBits (w64 (bits v 4 0)) 10 8 (if bits v 10 8 ≤ 4 then bits v 10 8 else bits a.fcsr 10 8) }
  else if n = 2 then { a with fxcsr := putBits (putBits 0 9 8 (bits v 9 8)) 1 0 (bits v 1 0) }
  else if n = 0xC1 then { a with s2fpra := v }
  else a.setCr false n v

/-- Item i written (06 R174): NEXT_PC other than PC + 16 makes the bundle at PC a delay bundle. -/
def vsPut (a : Arch) (i : Nat) (v : Word) : Arch :=
  if i < 0x40 then a.wrG i v
  else if i < 0x60 then a.wrF (i - 0x40) v
  else if i < 0x6C then a.wrAcc ((i - 0x60) / 3) (accWrite (a.rdAcc ((i - 0x60) / 3)) ((i - 0x60) % 3) v)
  else if i = 0x70 then let pc := putBits v 3 0 0; { a with pc := pc, delay := decide (a.npc ≠ pc + 16) }
  else if i = 0x71 then let n := putBits v 3 0 0; { a with npc := n, delay := decide (n ≠ a.pc + 16) }
  else if i = 0x72 then { a with progress := v &&& 0xFCFFFFFF00000000 }
  else if i = 0x73 then { a with nmtIs := bit v 0, escIs := bit v 1 }
  else if 0x100 ≤ i ∧ i ≤ 0x1FF then vsSetCr a (i - 0x100) v
  else a

/-- Shadow words of the voted state: as written, else as the armed entries show. -/
def Lp.vsWords (l : Lp) : List Nat := match l.vsShadow with | some ws => ws | none => shadowWords l.voted.shadows

/-- Entries that eight shadow words arm (05 R140). -/
def armWords (ws : List Nat) : List Shadow := armShadows (frameBytes (List.replicate 18 0 ++ ws))

/-- The voted state read at an index. -/
def Lp.vsGet (l : Lp) (i : Nat) : Word := if l.vsLost.contains i then 0 else vsItem l.voted l.vsWords i

/-- The voted state written at an index; a lost word is whole again (06 R171). -/
def Lp.vsSet (l : Lp) (i : Nat) (v : Word) : Lp :=
  let l := { l with vsLost := l.vsLost.filter (· ≠ i) }
  if 0x78 ≤ i ∧ i ≤ 0x7F then { l with vsShadow := some (l.vsWords.set (i - 0x78) v.toNat) }
  else { l with voted := vsPut l.voted i v }

/-- Lost words become the zero that they read as (06 R171, R173). -/
def Lp.vsSettle (l : Lp) : Lp := l.vsLost.foldl (fun l i => l.vsSet i 0) l

/-- A state from its 512 items (10 R274): control registers first, since g63 stands for one of them. -/
def archOfItems (ws : Nat → Word) : Arch :=
  let a := (List.range 256).foldl (fun a i => vsSetCr a i (ws (0x100 + i))) Arch.reset
  let a := (List.range 0x74).foldl (fun a i => vsPut a i (ws i)) a
  { a with shadows := armWords ((List.range 8).map fun i => (ws (0x78 + i)).toNat)
           delay := decide (a.npc ≠ a.pc + 16) }

/-- All cores load the voted state (06 R156): the architectural state from which the LP goes on. -/
def Lp.loadVoted (l : Lp) : Lp :=
  let v := match l.vsShadow with | some ws => { l.voted with shadows := armWords ws } | none => l.voted
  { l with arch := v, voted := v, vsShadow := none, asm := [], frozen := none, records := [], entry := none
           waiting := l.waiting && l.records.isEmpty, retried := false }

end Sys2Proof.Machine
end

