-- ==== Sys2Proof/Machine/CtlRead.lean ====
section
/-! DEFINITION. Reading a control-space register: clock gates and OFF domains (01 R18 step 5, 18 R469), the access codes of 00 R6,
and the registers computed from other state. -/

namespace Sys2Proof.Machine
open Sys2Proof

/-! ### Gated windows (18 R469, R471) -/

/-- Gate bits and power domains of the units of window i; none for a window that has none. -/
def winUnits (i : Nat) : Option (List Nat × List Nat) :=
  if i = 0x08 then some ([24, 25, 26, 27], [52, 53, 54, 55])
  else if i = 0x11 then some ([20, 21, 22, 23], [48, 49, 50, 51])
  else if i = 0x12 then some ([28, 29, 30, 31], [56, 57, 58, 59])
  else if i = 0x18 then some ([0, 1, 2, 3, 4, 5, 6, 7], [44, 45])
  else if i = 0x19 then some ([8, 9, 10, 11, 12, 13, 14, 15], [46, 47])
  else if i = 0x1A then some ([16], [61])
  else if i = 0x40 then some ([32], [60])
  else if 0x20 ≤ i ∧ i < 0x40 then some ([], [i - 0x20])
  else none

/-- Does a window answer under step 5 of 01 R18? The pending bits of a triad lie outside its domain (05 R126). -/
def State.winShut (s : State) (a : Nat) : Bool :=
  let i := (a - ctlSpace) / 0x100000000
  match winUnits i with
  | none => false
  | some (gates, doms) =>
    let off := (a - ctlSpace) % 0x100000000
    if 0x20 ≤ i ∧ i < 0x40 ∧ 0x500 ≤ off ∧ off < 0x520 then false
    else (!gates.isEmpty && gates.all fun g => !s.gateRuns g) || doms.all fun d => s.domState d = 3

/-! ### Computed registers -/

/-- One bit per unit below n. -/
def maskOf (n : Nat) (p : Nat → Bool) : Nat := (List.range n).foldl (fun m i => m + b2n (p i) * 2 ^ i) 0

/-- Is ERR_OUT_N asserted (17 R445, R449, 18 R462)? -/
def State.errOut (s : State) : Bool :=
  s.fcu.errHold || s.fld aClkStatus 2 0 = 4 || (List.range 16).any fun k => s.flag (aFcuClassStat k) 1

/-- FCU_STATUS. -/
def State.fcuStatus (s : State) : Word :=
  w64 (s.fld aFcuStatus 63 48 * 2 ^ 48 + b2n s.errOut * 2 ^ 32 + maskOf 16 (fun k => s.flag (aFcuClassStat k) 0) * 2 ^ 16
    + maskOf 16 fun k => s.flag (aFcuClassStat k) 2)

/-- Word k of a log entry (17 R452). -/
def LogEnt.word (e : LogEnt) (k : Nat) : Word :=
  if k = 0 then
    w64 (e.src * 2 ^ 42 + e.cls * 2 ^ 38 + e.level * 2 ^ 36 + b2n e.esc * 2 ^ 35 + b2n e.err * 2 ^ 34 + b2n e.held * 2 ^ 33 + 2 ^ 32
      + e.seq % 2 ^ 32)
  else if k = 1 then w64 e.tod
  else if k = 2 then w64 e.info.info0
  else w64 (e.info.idA % 2 ^ 16 * 2 ^ 48 + e.info.idB % 2 ^ 16 * 2 ^ 32 + e.info.unit % 2 ^ 7 * 2 ^ 17 + e.info.part % 2 ^ 6 * 2 ^ 8)

/-- FCU_LOG_DATA k: the event that FCU_LOG_INDEX selects, if it is among the last 256. -/
def State.logData (s : State) (k : Nat) : Word :=
  let e := s.fld aFcuLogIndex 31 0
  match smGet (fun _ => none) s.fcu.log (e % 256) with
  | some x => if x.seq = e then x.word k else 0
  | none => 0

/-- The three doublewords of a microword as data and check bits (16 R437). -/
def microPart (data check k : Nat) : Word :=
  if k = 0 then w64 data else if k = 1 then w64 (data / 2 ^ 64) else w64 (check % 2 ^ 9 * 2 ^ 16 + data / 2 ^ 128 % 2 ^ 16)
/-- Patch word i, zero past the image. -/
def State.patchWord (s : State) (i : Nat) : Nat := s.kst.patch.words.getD i 0
/-- HUB_UC_RD_DATA k. -/
def State.ucData (s : State) (k : Nat) : Word :=
  let i := s.fld aHubUcRdIndex 10 0
  if i < 0x400 then microPart (s.patchWord i) (Config.microCheck (s.patchWord i)) k
  else if i < 0x440 then (if k = 0 then w64 (s.kst.patch.matches_.getD (i - 0x400) 0) else 0)
  else 0

/-- CMP_STATUS. -/
def State.cmpStatus (s : State) : Word :=
  w64 (maskOf 8 (fun e => !(s.cmpRes e).isEmpty) * 2 ^ 16 + s.fld aCmpStatus 15 8 * 2 ^ 8 + maskOf 8 s.cmpAvail)
/-- CPH_STATUS. -/
def State.cphStatus (s : State) : Word :=
  w64 (s.fld aCphStatus 32 32 * 2 ^ 32 + maskOf 8 (fun e => (s.pipe e).susp.isSome) * 2 ^ 24
    + maskOf 8 (fun e => (s.pipe e).active.isSome || (s.pipe e).susp.isSome) * 2 ^ 16 + s.fld aCphStatus 15 8 * 2 ^ 8 + maskOf 8 s.cphAvail)
/-- CSS_STATUS. -/
def State.cssStatus (s : State) : Word := putBits (putBits (s.reg aCssStatus) 41 32 s.rtRings) 16 0 s.jrnlBusy
/-- DBG_STATUS: HALTED shows TRD_STATE.HALTED of every triad. -/
def State.dbgStatus (s : State) : Word := putBits (s.reg aDbgStatus) 63 32 (maskOf 32 fun n => s.halted (triOf n))

/-- Is TRD_VS_DATA accessible (06 R172)? -/
def State.vsOpen (s : State) (n : Tri) : Bool := s.mode n = 5 || s.mode n = 6 || (s.mode n = 4 && s.held n)
/-- Index of TRD_VS_DATA. -/
def State.vsIndex (s : State) (n : Tri) : Nat := s.fld (aTrdVsIndex n) 8 0
/-- A read of TRD_VS_DATA. -/
def State.vsRead (s : State) (n : Tri) : Word := if s.vsOpen n then (s.lp n).vsGet (s.vsIndex n) else 0

/-- A register of a triad's window that is computed. -/
def State.trdComputed (s : State) (n : Tri) (off : Nat) : Option Word :=
  if off = 0x10 then some (s.reg (spareReg n))
  else if off = 0x88 then some (s.vsRead n)
  else if off = 0x480 then
    some (putBits (s.reg (aTrdExcStatus n)) 1 0 (b2n (s.lp n).voted.escIs * 2 + b2n (s.lp n).voted.nmtIs))
  else none

/-- Does a word of a unit count what the model does not compute: cycles; what lies at an L3 bank or a directory slice, whose lines no rule
gives; packets, link traffic and samples (20 R505, log entry 13)? -/
def cntFree (u w : Nat) : Bool :=
  if u < 0x20 then w ∈ [2, 3]
  else if u < 0x40 then w ∈ [6, 7]
  else if u < 0xA8 then w = 1
  else if u < 0xF0 then decide (w ≤ 5)
  else if u < 0x100 then decide (w ≤ 4)
  else if u < 0x180 then decide (w ≤ 8)
  else if u < 0x190 then decide (w ≤ 3)
  else if u < 0x1B0 then w ∈ [4, 6]
  else if u < 0x1C0 then w ∈ [2, 3, 4]
  else if u = 0x1D0 then w = 3
  else if 0x260 ≤ u then w ∈ [2, 6]
  else false

/-- A word of a bank as it reads (20 R502). -/
def State.bankWord (s : State) (i : Nat) : Word :=
  let at_ := fun i => smGet (fun _ => 0) s.cnt.bank i
  let label := at_ (i / 16 * 16)
  if label ≠ 0 && i % 16 ≠ 0 && cntFree (i / 16) (i % 16) then Config.counterWord i label s.cnt.era else w64 (at_ i)

/-- The value of a register that is computed rather than stored, by window index and offset. -/
def State.computed (s : State) (i off : Nat) : Option Word :=
  if i = 0x0 then (if inFam off 0x810 3 8 then some (s.ucData ((off - 0x810) / 8)) else none)
  else if i = 0x1 then (if off = 0x10 then some (w64 s.pwr.tod) else none)
  else if i = 0x2 then
    (if off = 0 then some s.fcuStatus else if inFam off 0x18 4 8 then some (s.logData ((off - 0x18) / 8)) else none)
  else if i = 0x4 then (if 0x10000 ≤ off then some (s.bankWord ((off - 0x10000) / 8)) else none)
  else if i = 0x10 then (if off = 8 then some s.cssStatus else none)
  else if i = 0x11 then (if off = 0 then some (w64 Config.moduleName) else none)
  else if i = 0x18 then
    (if off = 8 then some s.cmpStatus else if off = 0x10 then some (w64 s.cmpHeld) else none)
  else if i = 0x19 then
    (if off = 8 then some s.cphStatus else if off = 0x10 then some (w64 s.cphHeld)
     else if inFam off 0x200 12 8 then some (modPub ((off - 0x200) / 8)) else none)
  else if 0x20 ≤ i ∧ i < 0x40 then s.trdComputed (triOf (i - 0x20)) off
  else if i = 0x40 then (if off = 8 then some s.dbgStatus else none)
  else none

/-- What a register shows (00 R6): WO fields read zero. -/
def State.shown (s : State) (a : Nat) (d : RegDesc) : Word :=
  match s.computed ((a - ctlSpace) / 0x100000000) ((a - ctlSpace) % 0x100000000) with
  | some v => v
  | none => w64 ((s.reg a).toNat &&& (2 ^ 64 - 1 - d.wo))

/-- Bound on the blocking of a Trestle class from below, in hub cycles; class 3 has none (01 R21). -/
def trsBound (k : Nat) : Nat := if k = 0 then 80 else if k = 1 then 240 else if k = 2 then 800 else 0xFFFF

/-- A read of HUB_TRS_WORST_k: the longest blocking since the last read, which the model does not compute, within the bound that no
working module exceeds, unless TRS_BOUND_EXCEEDED has recorded more (01 R21, R25, log entry 32). -/
def State.trsRead (s : State) (k : Nat) : Word × State :=
  let a := aHubTrsWorst k
  let w := s.fld a 15 0
  let (j, s) := s.draw
  (w64 (if w = 0 then min (Config.trsWorst j) (trsBound k) else w), s.setReg a 0)

/-- A read of the control-space register at a by a requester of partition 0, with its side effects (01 R18, 14 R407). -/
def State.ctlRead (s : State) (a : Nat) : Word × State :=
  match regDesc a with
  | none => (0, s.count 0x1D4 3 1)
  | some d =>
    let s := s.count 0x1D4 1 1
    if s.winShut a then (0, s.count 0x1D4 2 1)
    else if a = aRngData then s.rngData
    else if aHubTrsWorst 0 ≤ a ∧ a ≤ aHubTrsWorst 3 then s.trsRead ((a - aHubTrsWorst 0) / 8)
    else (s.shown a d, if d.rc = 0 then s else s.setReg a (w64 ((s.reg a).toNat &&& (2 ^ 64 - 1 - d.rc))))

end Sys2Proof.Machine
end

