-- ==== Sys2Proof/Machine/Release.lean ====
section
/-! DEFINITION. The release of a commit record (06 R150 to R154): the voted state, the store buffer, the latent rule, and what a release
means for a recovery under way. -/

namespace Sys2Proof.Machine
open Sys2Proof

/-! ### Ends of device accesses (09 R252) -/

/-- The oldest entry of the store buffer leaves it. -/
def State.popStore (s : State) (n : Tri) : State := s.updLp n fun l => { l with storeBuf := l.storeBuf.drop 1, stReq := none }

/-- A fault event of a device access of LP n. -/
def State.devFault (s : State) (n : Tri) (src addr part : Nat) (withLp : Bool) : State :=
  s.raise { src := src, info0 := addr, unit := if withLp then n.val else 0x7F, part := part }

/-- The device or control-space load of LP n ends: with data, or without (09 R252). A bundle that a retry has given up since finds it in
the hold (06 R158). -/
def State.loadEnd (s : State) (n : Tri) (r : DevReq) (data : Option Word) (src : Nat) : State :=
  let s := match data with
    | some _ => s
    | none => s.devFault n src r.addr r.part true
  s.updLp n fun l =>
    match (if l.arch.pc = r.pc then l.frozen else none) with
    | some f => { l with devReq := none, frozen := some { f with dev := (r.slot, data) :: f.dev.filter fun d => d.1 ≠ r.slot } }
    | none => { l with devReq := none, devHold := l.devHold ++ [.data r.pc r.addr data] }

/-- The device or control-space store at the head of LP n's store buffer ends: it succeeded, or the failed-store state is set with KIND (09 R252, R253). -/
def State.storeEnd (s : State) (n : Tri) (r : DevReq) (fail : Option (Nat × Nat)) : State :=
  let s := s.popStore n
  match fail with
  | none => s
  | some (kind, src) => (s.devFault n src r.addr r.part true).asError n kind r.addr

/-- A posted write of LP n ends (09 R252). -/
def State.postedEnd (s : State) (n : Tri) (i : Nat) (src : Option Nat) : State :=
  match (s.lp n).posted[i]? with
  | none => s
  | some r =>
    let s := s.updLp n fun l => { l with posted := l.posted.eraseIdx i }
    match src with
    | none => s
    | some k => s.devFault n k r.addr r.part false

/-! ### Release: what it means for the voter -/

/-- TRD_LAST_MISMATCH. -/
def State.mismatch (s : State) (n : Tri) (kind item outcome cores : Nat) : State :=
  let s := s.updLp n fun l => { l with latent := l.latent.map fun w => { w with last := false } }
  s.setReg (aTrdLastMismatch n) (w64 (kind % 16 * 2 ^ 16 + outcome * 2 ^ 12 + cores * 2 ^ 8 + item % 256))

/-! ### Release (06 R150, R152) -/

/-- A register from the ITEM code of a register write. -/
def dstOfItem (i : Nat) : Dst := if i / 64 = 0 then .g (i % 64) else if i / 64 = 1 then .f (i % 64) else .acc (i % 64)

/-- Does a load shadow still show a register's old value (02 R51)? -/
def Arch.shadowed (a : Arch) : Dst → Bool
  | .g i => (a.shadow false i).isSome
  | .f i => (a.shadow true i).isSome
  | .acc _ => false

/-- A latent watch after one more released bundle (06 R154): a read ends it, one inside a load shadow too; a write settles a register
once no shadow shows the old value. `inl` is the watch that goes on, if one does; `inr` says that every register is settled. -/
def latentStep (w : Latent) (r : Record) : Option Latent ⊕ Latent :=
  if w.regs.any fun e => r.reads.contains e.1 then .inl none
  else
    let regs := (w.regs.map fun e => (e.1, e.2 || r.writes.contains e.1)).filter fun e => !(e.2 && !r.post.shadowed e.1)
    if regs.isEmpty then .inr w
    else if w.left ≤ 1 && regs.any (fun e => !e.2) then .inl none else .inl (some { w with regs := regs, left := w.left - 1 })

/-- Free entries of the store buffer suffice for the record (09 R234)? -/
def Lp.roomFor (l : Lp) (r : Record) : Bool := decide ((l.storeBuf.filter fun st => st.kind ≠ .fence).length + (r.stores.filter fun st => st.kind ≠ .fence).length ≤ 32)

/-- A resynchronisation after a release (06 R160, R162): it starts over once the retried record is released; otherwise lines of the lead's
L1D that the stores change are marked. -/
def Resync.released (x : Resync) (l : Lp) (r : Record) : Resync :=
  if x.restart then { tgt := l.lead, touched := [], restart := false }
  else
    let ls := linesOf ((r.stores.filter fun st => st.kind = .cache).flatMap fun st => st.bytes.map (·.1))
    { x with touched := x.touched ++ ls.filter fun line => l.lead.has false line && !x.touched.contains line }

/-- The recovery after a release. -/
def Lp.recovNext (l : Lp) (r : Record) : Recov :=
  match l.recov with
  | .resync c x => .resync c (x.released l r)
  | .subst c sp (some x) => .subst c sp (some (x.released l r))
  | v => v

/-- The oldest record is released: voted state, store buffer, counts. -/
def State.releaseOne (s : State) (n : Tri) : State :=
  match (s.lp n).records with
  | [] => s
  | r :: rest =>
    let steps := (s.lp n).latent.map fun w => latentStep w r
    let lat := steps.filterMap fun | .inl w => w | .inr _ => none
    let lat := if r.odd.isEmpty then lat else { regs := r.odd.map fun d => (d, false), left := 64, last := true } :: lat
    let done := steps.filterMap fun | .inl _ => none | .inr w => some w
    let s := s.updLp n fun l => { l with
      records := rest, voted := r.post, vsShadow := none, storeBuf := l.storeBuf ++ r.stores, retryTold := false, latent := lat
      recov := l.recovNext r
      rejoin := (l.rejoin.map fun j => { j with released := j.released + 1 }).filter fun j => decide (j.released < 256) }
    let s := s.setFld (aTrdState n) 35 34 0
    done.foldl (fun s w =>
      let s := s.addSat (aTrdRasCount n) 31 16 1
      if w.last then s.setFld (aTrdLastMismatch n) 11 11 1 else s) s

end Sys2Proof.Machine
end

