-- ==== Sys2Proof/Machine/Sequencer.lean ====
section
/-! DEFINITION. The sequencer of the control store (16 R425 to R430): the fields it decodes, the conditions it samples, the next address
with its micro-stack and its errors, and the redirection of ROM addresses. -/

namespace Sys2Proof.Machine
open Sys2Proof

/-! ### A microword (16 R426): 144 data bits -/

/-- Bits hi..lo of a microword. -/
def ucBits (w hi lo : Nat) : Nat := w / 2 ^ lo % 2 ^ (hi + 1 - lo)
/-- NEXT. -/
def ucNext (w : Nat) : Nat := ucBits w 143 129
/-- SEQ. -/
def ucSeq (w : Nat) : Nat := ucBits w 128 126
/-- Condition selector Ck. -/
def ucSel (w k : Nat) : Nat := ucBits w (113 + 4 * k) (110 + 4 * k)
/-- Does the word end a unit of a long instruction? -/
def ucUnit (w : Nat) : Bool := ucBits w 21 20 = 1

/-- Is a control-store address assigned (16 R425)? -/
def ucAssigned (a : Nat) : Bool := decide (a < 0x4400)

/-! ### Conditions (16 R428, R429) -/

/-- The condition that a selector names; an event is seen only in a word that ends a unit. -/
def ucCond (p : UcSample) (unit : Bool) (sel : Nat) : Bool :=
  match sel with
  | 0 => false
  | 1 => p.aluZero
  | 2 => p.aluNegative
  | 3 => p.aluCarry
  | 4 => p.loopZero
  | 5 => p.unitBoundary
  | 6 => unit && p.event
  | 7 => p.memFault
  | 8 => p.engineReady
  | 9 => p.engineStatus
  | 10 => p.ti
  | 11 => p.atM
  | 12 => p.delay
  | 13 => p.progress
  | 14 => p.escalation
  | 15 => p.holdReply
  | _ => false

/-- The value c of a word. -/
def ucC (p : UcSample) (w : Nat) : Nat :=
  let c := fun k => b2n (ucCond p (ucUnit w) (ucSel w k))
  c 0 + 2 * c 1 + 4 * c 2 + 8 * c 3

/-! ### Next address (16 R427) -/

/-- What the sequencer does after a word. -/
inductive UcStep where
  | go (u : Useq)
  | done
  | error
  deriving DecidableEq, Repr

/-- A next address that is assigned. -/
def ucGo (a : Nat) (st : List Nat) : UcStep := if ucAssigned a then .go { addr := a, stack := st } else .error

/-- The word after A in the same store. -/
def ucCont (a : Nat) (st : List Nat) : UcStep := if a = 0x3FFF ∨ a = 0x43FF then .error else ucGo (a + 1) st

/-- The next address after word w at A with condition value c. -/
def Useq.next (u : Useq) (w c : Nat) : UcStep :=
  match ucSeq w with
  | 0 => ucCont u.addr u.stack
  | 1 => ucGo (ucNext w) u.stack
  | 2 => ucGo (ucNext w ||| c) u.stack
  | 3 => if 4 ≤ u.stack.length then .error else ucGo (ucNext w ||| c) ((u.addr + 1) :: u.stack)
  | 4 => match u.stack with
    | [] => .error
    | a :: st => ucGo a st
  | 5 => .done
  | 6 => if c % 2 = 1 then ucGo (u.addr + 1) u.stack else .go u
  | _ => .error

/-! ### Redirection and the words (16 R430) -/

/-- The address of the word that is read for a next address: a ROM address that a valid match register holds is replaced, by the register
with the lowest number. -/
def ucRedirect (ms : List Nat) (a : Nat) : Nat :=
  if 0x4000 ≤ a then a
  else match ms.find? fun m => bit (w64 m) 63 && bits (w64 m) 23 10 = a with
    | some m => 0x4000 + bits (w64 m) 9 0
    | none => a

/-- The data bits of a word: the ROM's, or the patch RAM's as loaded from the hub copy (16 R436). -/
def State.ucWord (s : State) (a : Nat) : Nat :=
  if a < 0x4000 then Config.microWord a % 2 ^ 144 else s.kst.patch.words.getD (a - 0x4000) 0

/-- What the sequencer of LP n samples. The state of the microcode's own data path is internal to the core (16 R426), so its
conditions are free values (log entry 9). -/
def State.ucSample (s : State) (n : Tri) (unitEnd : Bool) : UcSample :=
  let l := s.lp n
  let a := l.arch
  let f := fun (sel : Nat) => Config.microCond sel l.cycles
  { aluZero := f 1, aluNegative := f 2, aluCarry := f 3, loopZero := f 4, unitBoundary := unitEnd, event := (s.nextEvent n).isSome
    memFault := f 7, engineReady := f 8, engineStatus := f 9, ti := bit a.psw 9, atM := a.pl = plM, delay := a.delay
    progress := bit a.progress 59, escalation := s.nextEvent n = some .esc33 || f 14
    holdReply := l.devHold.any fun h => match h with | .data .. => true | _ => false }

/-- A sequence begins at the entry of its kind of work (16 R424). -/
def State.ucBegin (s : State) (n : Tri) (work : Nat) : State :=
  s.updLp n fun l => { l with micro := some { addr := ucRedirect s.kst.patch.matches_ (Config.microEntry work), stack := [] } }

/-- One core cycle of the sequence under way. An error of the sequencer reaches the model as the retry that it leads to (16 R433): the
words of the ROM are not stated (log entry 9). -/
def State.ucTick (s : State) (n : Tri) (unitEnd : Bool) : State :=
  match (s.lp n).micro with
  | none => s
  | some u =>
    let w := s.ucWord u.addr
    let r := match u.next w (ucC (s.ucSample n unitEnd) w) with
      | .go v => some { v with addr := ucRedirect s.kst.patch.matches_ v.addr }
      | _ => none
    s.updLp n fun l => { l with micro := r }

end Sys2Proof.Machine
end

