-- ==== Sys2Proof/Machine/Bundle.lean ====
section
/-! DEFINITION. Issue and commit of a bundle: staging of the slots (02 R44), the checks in their order (02 R46 to R50), waits
(09 R237, R247), memory accesses in slot order (02 R48), register writes with load shadows (02 R51 to R54), the end action (04
R107), branches and their costs (04 R100, R112), traps. -/

namespace Sys2Proof.Machine
open Sys2Proof

/-! ### Placement checks (02 R45 to R49) -/

/-- Groups a slot accepts (02 R45). -/
def slotAccepts (slot : Nat) (g : Group) : Bool :=
  match g with
  | .integer => true
  | .branch | .system => slot = 0
  | .memory => slot = 1 || slot = 2
  | .long => slot = 1
  | .float | .fraction => slot = 3

/-- Two slots that write one register, the first of them (02 R47). -/
def dupSlot : List SlotEff → Option Nat
  | [] => none
  | e :: r => if e.dests.any (fun d => r.any fun e' => e'.dests.contains d) then some e.slot else dupSlot r

/-- Is a loop level active with its end at pc (04 R105)? -/
def loopEnd (a : Arch) (k : Nat) : Bool := v3 a.lct k ≠ 0 && v3 a.lea k = a.pc
/-- Is the bundle at PC the end bundle of an active level? -/
def isLoopEnd (a : Arch) : Bool := loopEnd a 0 || loopEnd a 1 || loopEnd a 2

/-- An instruction that must stand alone with NOP beside it: the lowest slot that takes part, if it does not (02 R43, R65). -/
def aloneBad (home : Nat) (p : SlotEff → Bool) (effs : List SlotEff) : Option Nat :=
  match effs.find? p with
  | none => none
  | some e =>
    let others := effs.filter fun x => x.slot ≠ e.slot && !x.nop
    if e.slot = home && others.isEmpty then none
    else some (others.foldl (fun m x => min m x.slot) e.slot)

/-- Illegal Bundle: lowest case and its slot (02 R49, 05 R131). -/
def illegal (a : Arch) (effs : List SlotEff) : Option (Nat × Nat) :=
  match effs.find? fun e => !slotAccepts e.slot e.group with
  | some e => some (1, e.slot)
  | none =>
  match dupSlot effs with
  | some k => some (2, k)
  | none =>
  let br := effs.find? fun e => e.branch.isSome
  match (if a.delay then br else none) with
  | some e => some (3, e.slot)
  | none =>
  match aloneBad 0 (·.modeChg) effs with
  | some k => some (4, k)
  | none =>
  match aloneBad 1 (fun e => e.group = .long) effs with
  | some k => some (5, k)
  | none =>
    if isLoopEnd a then
      match br with
      | some e => some (6, e.slot)
      | none => if a.delay then some (6, 0) else none
    else none

/-! ### End action and successor (04 R100, R106 to R108) -/

/-- The end action: next address and loop counts (04 R107). The Bool says that some level matched. -/
def endAction (a : Arch) : Word × Vector Word 3 × Bool :=
  let step := fun (st : Word × Vector Word 3 × Bool × Bool) (k : Nat) =>
    let (nx, lct, stop, _) := st
    if stop || !loopEnd a k then st
    else
      let c := v3 a.lct k - 1
      let lct := v3set lct k c
      if c ≠ 0 then (v3 a.lsa k, lct, true, true) else (nx, lct, false, true)
  let (nx, lct, _, hit) := [2, 1, 0].foldl step (a.npc, a.lct, false, false)
  (nx, lct, hit)

/-! ### Predictors (04 R112 to R115) -/

/-- Bimodal or global counter; unlisted is weakly not-taken (04 R116). -/
def predCtr (m : SMap Nat) (i : Nat) : Nat := smGet (fun _ => 1) m i

/-- The direction predicted for a conditional branch at pc (04 R114). -/
def Pred.direction (p : Pred) (pc : Word) : Bool :=
  let g := predCtr p.global (p.gh ^^^ bits pc 17 4)
  if g = 3 then true else if g = 0 then false else decide (predCtr p.bimodal (bits pc 15 4) ≥ 2)

/-- Index of the indirect-target table (04 R113). -/
def Pred.indIdx (p : Pred) (pc : Word) : Nat := p.gh % 2048 ^^^ bits pc 14 4

/-- The branch of a bundle. -/
def branchOf (effs : List SlotEff) : Option (BrKind × Word) := effs.findSome? (·.branch)

/-- The return stack once a bundle is fetched, and what a return is then predicted to be (04 R114, R115). -/
def Pred.fetch (p : Pred) (pc : Word) (b : Option (BrKind × Word)) : Pred × Option Word :=
  let push := { p with stack := ((pc + 32) :: p.stack).take 16 }
  match b with
  | some (.jmp true, _) => (push, none)
  | some (.jr true _, _) => (push, none)
  | some (.jr false true, _) =>
    match p.stack with
    | top :: rest => ({ p with stack := rest }, some top)
    | [] => (p, none)
  | _ => (p, none)

/-- The predicted next address after the delay bundle of a branch, if there is one; `top` is what the return stack gave (04 R114). -/
def Pred.guess (p : Pred) (top : Option Word) (pc : Word) (k : BrKind) (target : Word) : Option Word :=
  match k with
  | .cond _ dest => some (if p.direction pc then dest else pc + 32)
  | .jmp _ => some target
  | .jr .. => match top with
    | some t => some t
    | none => smGet (fun _ => none) p.indirect (p.indIdx pc)

/-- Is a branch mispredicted (04 R112)? -/
def Pred.wrong (p : Pred) (top : Option Word) (pc : Word) (k : BrKind) (target : Word) : Bool :=
  match k with
  | .cond taken _ => p.direction pc ≠ taken
  | _ => p.guess top pc k target ≠ some target

/-- The tables after a committed branch (04 R115). A conditional branch updates its counter of both tables, whichever gave the
prediction; a return predicted from the return stack leaves the indirect-target table as it is (DESIGN CHOICE, log entry 5). -/
def Pred.update (p : Pred) (top : Option Word) (pc : Word) (k : BrKind) (target : Word) : Pred :=
  match k with
  | .cond taken _ =>
    let gi := p.gh ^^^ bits pc 17 4
    let bi := bits pc 15 4
    { p with
      global := smSet (fun _ => 1) p.global gi (Config.predUpdate (predCtr p.global gi) taken % 4)
      bimodal := smSet (fun _ => 1) p.bimodal bi (Config.predUpdate (predCtr p.bimodal bi) taken % 4)
      gh := (p.gh * 2 + b2n taken) % 2 ^ 14 }
  | .jmp _ => p
  | .jr .. => if top.isSome then p else { p with indirect := smSet (fun _ => none) p.indirect (p.indIdx pc) (some target) }

/-! ### Issue -/

/-- Does the LP issue bundles now (06 R173, R177, 05 R142, 10 R266, 15 R420, 18 R462, R467)? A bundle being retried is issued whatever
halt is asked for (06 R156). -/
def State.issues (s : State) (n : Tri) : Bool :=
  let l := s.lp n
  let m := s.mode n
  l.released && decide (1 ≤ m) && decide (m ≤ 4) && !(m = 4 && s.held n) && !s.halted n && !s.checkstopped n
    && l.frozen.isNone && l.entry.isNone && (!l.haltReq || l.retried) && !l.stopTick && !l.quiesced && s.fld (aPwrDom n.val) 1 0 = 0
    && s.fld aClkStatus 2 0 ≠ 4 && !s.therm.stopped && !s.pwr.freq.any fun f => f.tri = n.val && !f.avs && !f.lower

/-- The order mode that applies to the LP's accesses at its level (09 R237). -/
def State.ordered (s : State) (n : Tri) : Bool := s.orderedAt n (s.lp n).arch.pl

/-- Does a `bar.st` hold younger stores back: its marker stands in the queue of stores, with a store before it, or with a combining
line not drained (09 R247)? -/
def Lp.fenced (l : Lp) : Bool :=
  let q := l.storeBuf ++ l.records.flatMap (·.stores)
  match q.reverse.dropWhile (fun st => st.kind ≠ .fence) with
  | [] => false
  | older => older.any (fun st => st.kind ≠ .fence) || !l.comb.isEmpty

/-- Older device stores not performed (09 R249). -/
def Lp.unperformedDev (l : Lp) : Bool :=
  let p := fun st : Store => st.kind = .devPosted || st.kind = .devStrict || st.kind = .ctl
  l.records.any (fun r => r.stores.any p) || l.storeBuf.any p

/-! ### Memory operations of a bundle: their checks -/

/-- The checks a memory operation asks for (09 R240). -/
def memReq : MemOp → Option AccReq
  | .load _ va size _ nt => some { kind := .load, va := va, size := size, align := if nt then 8 else 1 }
  | .store va size _ nt => some { kind := .store, va := va, size := size, align := if nt then 8 else 1 }
  | .amo _ _ va _ => some { kind := .rmw, va := va, size := 8, align := 8, atomic := true }
  | .casD _ va _ _ => some { kind := .rmw, va := va, size := 8, align := 8, atomic := true }
  | .casQ _ va _ _ _ _ => some { kind := .rmw, va := va, size := 16, align := 16, atomic := true }
  | .bar _ => none

/-- No access: a barrier. -/
def noAccess : Access := { region := .mem, addrs := [], pers := false, fills := [], cycles := 0 }

/-- Check the memory operation of a slot. -/
def State.memAcc (s : State) (n : Tri) (e : SlotEff) : Except Flt (Option MemAcc) :=
  match e.mem with
  | none => .ok none
  | some op =>
    match memReq op with
    | none => .ok (some { slot := e.slot, op := op, acc := noAccess })
    | some r =>
      match s.access n (s.lp n).arch.pl r with
      | .error f => .error f
      | .ok acc => .ok (some { slot := e.slot, op := op, acc := acc })

/-- The checked memory operations of a bundle, those whose checks fail left out. -/
def State.memAccs (s : State) (n : Tri) (effs : List SlotEff) : List MemAcc :=
  effs.filterMap fun e => match s.memAcc n e with | .ok (some m) => some m | _ => none

/-- The first synchronous fault of a slot found before any wait. -/
def State.slotFault (s : State) (n : Tri) (e : SlotEff) : Option Flt :=
  match e.fault with
  | some f => some f
  | none =>
    match s.sysFault n e.sys with
    | some f => some f
    | none => match s.memAcc n e with | .error f => some f | .ok _ => none

/-- Is the region a device for ordering purposes (09 R249)? The control space is one (01 R19). -/
def isDev (r : Region) : Bool := r ≠ .mem

/-- Is a failed store pending for the LP (09 R254)? -/
def State.asePending (s : State) (n : Tri) : Bool := s.flag (aTrdAseStatus n) 63

/-- Must the operation wait for older stores, given whether some are unperformed: any, other than non-temporal, to a device? -/
def State.opWaits (s : State) (n : Tri) (m : MemAcc) (any_ nonNt dev : Bool) : Bool :=
  match m.op with
  | .load .. => (s.ordered n && nonNt) || (isDev m.acc.region && dev)
  | .store .. => (s.lp n).fenced
  | .amo .. | .casD .. | .casQ .. => any_
  | .bar full => any_ && (full || s.asePending n)

/-- Must the operation wait for stores of older bundles? -/
def State.opWaitsOld (s : State) (n : Tri) (m : MemAcc) : Bool :=
  s.opWaits n m ((s.lp n).unperformed true) ((s.lp n).unperformed false) (s.lp n).unperformedDev

/-- The store of a slot, as it enters the commit queue. -/
def storeOf (part : Nat) (m : MemAcc) : Option Store :=
  match m.op with
  | .store _ size data nt =>
    let k : StKind := match m.acc.region with
      | .mem => if nt then .nt else .cache
      | .devPosted => .devPosted
      | .devStrict => .devStrict
      | .ctl => .ctl
    some { kind := k, addr := m.acc.addrs.headD 0, pers := m.acc.pers, part := part, bytes := m.acc.addrs.zip (leBytes size data.toNat) }
  | .bar false => some { kind := .fence, addr := 0, pers := false, part := part, bytes := [] }
  | _ => none

/-- Must the operation wait for a store of its own bundle, which then leaves ahead of it (09 R237)? -/
def State.ownHolds (s : State) (n : Tri) (sts : List Store) (m : MemAcc) : Bool :=
  let sts := sts.filter fun st => st.kind ≠ .fence
  !sts.isEmpty && s.opWaits n m true (sts.any fun st => st.kind ≠ .nt) (sts.any fun st => st.kind ≠ .nt && st.kind ≠ .cache)

/-- Is the operation a barrier or atomic, which meets a failed store (09 R254)? -/
def meetsAse : MemOp → Bool
  | .amo .. | .casD .. | .casQ .. | .bar _ => true
  | _ => false

/-- Asynchronous Store Error (09 R254). -/
def State.aseFault (s : State) (n : Tri) : Flt :=
  let r := s.reg (aTrdAseStatus n)
  { vec := 14, detail := bits r 61 60 + bits r 62 62 * 128, faddr := w64 (bits r 51 0) }

/-- The poison that an operation on main memory consumes, if it does (10 R529); `own` are the bundle's older stores. -/
def State.poisonFault (s : State) (n : Tri) (own : List Store) (m : MemAcc) : Option Flt :=
  match m.op with
  | .load _ va _ _ _ | .amo _ _ va _ | .casD _ va _ _ | .casQ _ va _ _ _ _ =>
    if m.acc.region = .mem && s.consumesPoison n own m.acc.addrs then some { vec := 15, detail := 0, faddr := va } else none
  | _ => none

/-- The lowest slot of some operations that consumes poison. -/
def State.poisonStop (s : State) (n : Tri) (ms : List MemAcc) : Option (Nat × Flt) :=
  ms.findSome? fun m =>
    (s.poisonFault n ((ms.filter fun x => decide (x.slot < m.slot)).filterMap (storeOf 0)) m).map fun f => (m.slot, f)

/-! ### Requests that a retry must not repeat (06 R158, 07 R206, 09 R244) -/

/-- Is it the data of a bundle's request for an address? -/
def Held.isData (pc : Word) (a : Nat) : Held → Bool
  | .data p b _ => p = pc && b = a
  | _ => false

/-- Data held for the request of the bundle at PC for an address. -/
def Lp.heldData (l : Lp) (a : Nat) : Option (Option Word) :=
  l.devHold.findSome? fun h => match h with
    | .data p b v => if p = l.arch.pc && b = a then some v else none
    | _ => none

/-- The results of the operation of slot 0 of the bundle at PC, if it is done. -/
def Lp.heldSys (l : Lp) : Option (List (Nat × Word)) :=
  l.devHold.findSome? fun h => match h with
    | .done p r => if p = l.arch.pc then some r else none
    | _ => none

/-- Has slot 1's store of the bundle at PC left? -/
def Lp.heldStore (l : Lp) : Bool := l.devHold.contains (.stored l.arch.pc)

/-- The first entry for which p holds leaves the hold. -/
def Lp.unhold (l : Lp) (p : Held → Bool) : Lp := { l with devHold := l.devHold.eraseP p }

/-- Data of a device or control-space load: answered in this bundle, or held for a retry. none: not there yet; some none: an error. -/
def devData (fr : Frozen) (l : Lp) (m : MemAcc) : Option (Option Word) :=
  match fr.dev.find? fun d => d.1 = m.slot with
  | some d => some d.2
  | none => l.heldData (m.acc.addrs.headD 0)

/-! ### Memory operations of a bundle: performing them -/

/-- What stops a bundle now: a wait, a store of its own that goes ahead, a device access to be made, a fault. -/
inductive Stop where
  | wait
  | ownStore
  | issue (d : DevReq)
  | fault (slot : Nat) (f : Flt)
  deriving DecidableEq, Repr

/-- The first thing that stops one memory operation whose older operations are done (09 R237, R244, R247, R249, R254). -/
def State.memStop (s : State) (n : Tri) (fr : Frozen) (m : MemAcc) : Option Stop :=
  if s.opWaitsOld n m then some .wait
  else if s.ownHolds n fr.res.stores m then some .ownStore
  else if meetsAse m.op && s.asePending n then some (.fault m.slot (s.aseFault n))
  else match s.poisonFault n fr.res.stores m with
    | some f => some (.fault m.slot f)
    | none =>
      match m.op with
      | .load _ va size _ _ =>
        if isDev m.acc.region then
          match devData fr (s.lp n) m with
          | some (some _) => none
          | some none => some (.fault m.slot { vec := 13, detail := 0, faddr := va })
          | none => some (.issue { addr := m.acc.addrs.headD 0, size := size, slot := m.slot, part := s.reqPart n, due := none
                                   pc := (s.lp n).arch.pc })
        else none
      | _ => none

/-- The combining buffer drains for a barrier or atomic whose wait for older stores is over, and for a `bar.st` with a store beside it
(09 R246, R247). -/
def State.drainBy (s : State) (n : Tri) (fr : Frozen) (m : MemAcc) (rest : List MemAcc) : State :=
  let full := match m.op with
    | .bar full => full || rest.any fun x => (storeOf 0 x).isSome
    | o => meetsAse o
  if full && !(s.lp n).unperformed true && !s.ownHolds n fr.res.stores m then s.drainAll n else s

/-- Extend what a load read. -/
def extend (size : Nat) (e : Ext) (v : Nat) : Word :=
  match e with
  | .zero => w64 v
  | .sign => if v.testBit (8 * size - 1) then w64 (v + (2 ^ 64 - 2 ^ (8 * size))) else w64 v

/-- New value of an atomic (09 R243). -/
def amoNew (op : AmoOp) (old b : Word) : Word :=
  match op with
  | .swap => b
  | .add => old + b
  | .and => old &&& b
  | .or => old ||| b

/-- L1D fills of lines that the L2 of triad n holds (07 R184). -/
def State.l1dFill (s : State) (n : Tri) (lines : List Nat) : State :=
  lines.foldl (fun s line => if ((s.lp n).l2Find line).isSome then s.fillL1 n line false else s) s

/-- An atomic on main memory whose read gave `old`: its line is held in M, and `new` is stored unless a comparison failed (09 R243). -/
def State.atomic (s : State) (n : Tri) (m : MemAcc) (new : Option (List Byte)) : State :=
  let part := s.reqPart n
  let lines := linesOf m.acc.addrs
  let s := lines.foldl (fun s line => s.own n part line) s
  let s := match new with
    | some bs => s.storeNow n part (m.acc.addrs.zip bs) m.acc.pers
    | none => s
  s.l1dFill n lines

/-- An atomic of 8 bytes, performed or, in a retry, taken from the hold (09 R243, R244). -/
def State.atomic8 (s : State) (n : Tri) (r : MemRes) (m : MemAcc) (dst : Dst) (new : Word → Option Word) : State × MemRes :=
  let a := m.acc.addrs.headD 0
  let pc := (s.lp n).arch.pc
  let give := fun (old : Word) => { r with
    loads := r.loads ++ [(dst, old)], reqs := r.reqs ++ [.mem m.op a], held := r.held ++ [.data pc a (some old)] }
  match (s.lp n).heldData a with
  | some v => (s.updLp n fun l => l.unhold (Held.isData pc a), give (v.getD 0))
  | none =>
    let old := w64 (leNat (m.acc.addrs.map s.byte))
    (s.atomic n m ((new old).map fun v => leBytes 8 v.toNat), give old)

/-- `cas.q`. -/
def State.atomic16 (s : State) (n : Tri) (r : MemRes) (m : MemAcc) (rd : Nat) (cmp new : Word × Word) : State × MemRes :=
  let a := m.acc.addrs.headD 0
  let pc := (s.lp n).arch.pc
  let give := fun (o0 o1 : Word) => { r with
    loads := r.loads ++ [(.g rd, o0), (.g (rd + 1), o1)], reqs := r.reqs ++ [.mem m.op a]
    held := r.held ++ [.data pc a (some o0), .data pc (a + 8) (some o1)] }
  match (s.lp n).heldData a, (s.lp n).heldData (a + 8) with
  | some v, some v' =>
    (s.updLp n fun l => (l.unhold (Held.isData pc a)).unhold (Held.isData pc (a + 8)), give (v.getD 0) (v'.getD 0))
  | _, _ =>
    let o0 := w64 (leNat ((m.acc.addrs.take 8).map s.byte))
    let o1 := w64 (leNat ((m.acc.addrs.drop 8).map s.byte))
    (s.atomic n m (if o0 = cmp.1 ∧ o1 = cmp.2 then some (leBytes 8 new.1.toNat ++ leBytes 8 new.2.toNat) else none), give o0 o1)

/-- The value of a load of main memory and its cache work (09 R236, R246). -/
def State.loadMem (s : State) (n : Tri) (r : MemRes) (m : MemAcc) (dst : Dst) (size : Nat) (ext : Ext) (nt : Bool) : State × MemRes :=
  let part := s.reqPart n
  let s := s.drainFor n m.acc.addrs
  let v := leNat (s.ownBytes n r.stores m.acc.addrs)
  ((linesOf m.acc.addrs).foldl (fun s line => s.touchRead n part line false nt false) s,
    { r with loads := r.loads ++ [(dst, extend size ext v)] })

/-- The value of a device or control-space load that has been answered (06 R158). -/
def State.loadDev (s : State) (n : Tri) (fr : Frozen) (m : MemAcc) (dst : Dst) (size : Nat) (ext : Ext) : State × MemRes :=
  let a := m.acc.addrs.headD 0
  let pc := (s.lp n).arch.pc
  let v := ((devData fr (s.lp n) m).getD none).getD 0
  let s := if fr.dev.any fun d => d.1 = m.slot then s else s.updLp n fun l => l.unhold (Held.isData pc a)
  let r := fr.res
  (s, { r with
    loads := r.loads ++ [(dst, extend size ext (v.toNat % 2 ^ (8 * size)))], held := r.held ++ [.data pc a (some v)] })

/-- A store joins the bundle's stores; one that left ahead of a retried bundle does not leave again (06 R158). -/
def State.queueStore (s : State) (n : Tri) (r : MemRes) (m : MemAcc) : State × MemRes :=
  match storeOf (s.reqPart n) m with
  | none => (s, r)
  | some st =>
    let s := if st.kind = .cache then s.drainFor n m.acc.addrs else s
    if m.slot = 1 && (s.lp n).heldStore then
      (s.updLp n fun l => l.unhold fun h => h = .stored l.arch.pc, { r with held := r.held ++ [.stored (s.lp n).arch.pc] })
    else (s, { r with stores := r.stores ++ [st] })

/-- Perform one memory operation (02 R48, 09 R236, R243); a line crossing costs its cycles (09 R241). -/
def State.perform (s : State) (n : Tri) (fr : Frozen) (m : MemAcc) : State × MemRes :=
  let s := (s.applyFills n m.acc false).updLp n fun l => { l with cycles := l.cycles + m.acc.cycles }
  let r := fr.res
  match m.op with
  | .load dst _ size ext nt => if isDev m.acc.region then s.loadDev n fr m dst size ext else s.loadMem n r m dst size ext nt
  | .store .. => s.queueStore n r m
  | .bar full => let (s, r) := s.queueStore n r m; (s, { r with reqs := r.reqs ++ [.mem (.bar full) 0] })
  | .amo op dst _ b => s.atomic8 n r m dst fun old => some (amoNew op old b)
  | .casD dst _ cmp new => s.atomic8 n r m dst fun old => if old = cmp then some new else none
  | .casQ rd _ c0 c1 n0 n1 => s.atomic16 n r m rd (c0, c1) (n0, n1)

/-- Has the bundle had an effect, so that its checks are not made again? -/
def Frozen.begun (fr : Frozen) : Bool := fr.todo.isSome || fr.sys.isSome || fr.res ≠ {}

/-- The memory operations in slot order, up to the first that stops (02 R48). -/
def State.memSteps (s : State) (n : Tri) (fr : Frozen) : List MemAcc → State × Frozen × Option Stop
  | [] => (s, fr, none)
  | m :: rest =>
    let s := s.drainBy n fr m rest
    match s.memStop n fr m with
    | some .wait => (s, if fr.begun then { fr with todo := some (m :: rest) } else fr, some .wait)
    | some x => (s, { fr with todo := some (m :: rest) }, some x)
    | none =>
      let (s, r) := s.perform n fr m
      s.memSteps n { fr with res := r } rest

/-! ### Commit -/

/-- Is a register the destination? -/
def dstIs (isF : Bool) (i : Nat) : Dst → Bool
  | .g j => !isF && i = j
  | .f j => isF && i = j
  | .acc _ => false

/-- Shadows after a bundle: a written register loses its shadow, the others run down, each load opens one with the value the
register showed before (02 R51, R52, 05 R132). -/
def shadowsAfter (a : Arch) (written : List Dst) (loads : List (Dst × Word)) : List Shadow :=
  let gone := written ++ loads.map (·.1)
  let old := (a.shadows.filter fun h => !(gone.any (dstIs h.isF h.idx)) && 2 ≤ h.remain).map fun h => { h with remain := h.remain - 1 }
  let new := loads.filterMap fun e => match e.1 with
    | .g i => if i = 0 then none else some { isF := false, idx := i, old := a.rdG i, remain := 2 }
    | .f i => some { isF := true, idx := i, old := a.rdF i, remain := 2 }
    | .acc _ => none
  old ++ new

/-- Register writes of a bundle (02 R46). -/
def Arch.writeAll (a : Arch) (effs : List SlotEff) (loads : List (Dst × Word)) : Arch :=
  let b := effs.foldl (fun b e =>
    let b := e.gw.foldl (fun b w => b.wrG w.1 w.2) b
    let b := e.fw.foldl (fun b w => b.wrF w.1 w.2) b
    match e.aw with | some w => b.wrAcc w.1 w.2 | none => b) a
  loads.foldl (fun b e => match e.1 with
    | .g i => b.wrG i e.2
    | .f i => b.wrF i e.2
    | .acc _ => b) b

/-- Registers written at once by the slots (a `cmov` whose condition fails writes none, 04 R104; g0 discards writes, 02 R37). -/
def writtenDsts (effs : List SlotEff) : List Dst :=
  effs.flatMap fun e =>
    (e.gw.filter fun w => w.1 ≠ 0).map (fun w => Dst.g w.1) ++ e.fw.map (fun w => Dst.f w.1) ++ (match e.aw with | some w => [Dst.acc w.1] | none => [])
      ++ (if e.cr.isSome then e.dests else [])

/-- Time of a bundle in the execute stage (03 R75). -/
def bundleTime (effs : List SlotEff) : Nat :=
  max (effs.foldl (fun t e => max t e.time) 1) (effs.foldl (fun t e => t + e.divTime) 0)

/-- The state after the bundle commits, with the successor rules of 04. -/
def commitArch (a : Arch) (sealed : Bool) (effs : List SlotEff) (loads : List (Dst × Word)) : Arch :=
  let shadows := shadowsAfter a (writtenDsts effs) loads
  let (nx, lct, hit) := endAction a
  let br := effs.findSome? (·.branch)
  let lps := effs.findSome? (·.lpset)
  let b := (a.writeAll effs loads).flags effs
  let b := { b with
    shadows := shadows, lct := lct, progress := 0, handlerFirst := false
    escLocked := b.escLocked || (effs.any fun e => match e.cr with | some (k, _) => k = 0x23 | none => false) }
  let b := match lps with
    | some (k, cnt, lo, hi) => { b with lsa := v3set b.lsa k lo, lea := v3set b.lea k hi, lct := v3set b.lct k cnt }
    | none => b
  let b := match effs.findSome? (·.cr) with
    | some (n, v) => b.setCr sealed n v
    | none => b
  match br with
  | some (_, target) => { b with pc := a.npc, npc := target, delay := true }
  | none =>
    let pc := match lps with
      | some (_, cnt, _, hi) => if cnt = 0 && !a.delay && !hit then hi + 16 else nx
      | none => nx
    { b with pc := pc, npc := pc + 16, delay := false }

/-- Extra cycles of a commit (04 R112); `wrong` says that its branch was mispredicted. An `lp.set` whose count is zero costs its 6
cycles outside a delay bundle also where an end action chooses the next address (DESIGN CHOICE, log entry 5). -/
def commitCost (a : Arch) (wrong : Bool) (effs : List SlotEff) : Nat :=
  let c := if wrong then 6 else 0
  let c := match effs.findSome? (·.lpset) with
    | some (_, cnt, _, _) => if cnt = 0 && !a.delay then c + 6 else c
    | none => c
  match effs.findSome? (·.cr) with
  | some (n, _) => if 8 ≤ n ∧ n ≤ 0x10 then c + 6 else c
  | none => c

/-- Registers a bundle reads (06 R154). -/
def effReads (effs : List SlotEff) : List Dst := effs.flatMap (·.reads)

/-- A wrong-path bundle is fetched: it fills caches where no walk is needed and the page does not fault, and changes nothing else (04
R119). -/
def State.wrongFetch (s : State) (n : Tri) (va : Word) : State :=
  let pl := (s.lp n).arch.pl
  match (s.lp n).tlbFind pl (s.reqPart n) .fetch va with
  | none => s
  | some _ =>
    match s.xlat n pl .fetch va with
    | .ok x => if x.region = .mem && s.memOk x.abs then (s.count n.val 5 1).touchRead n (s.reqPart n) (x.abs / 128) true false false else s
    | .error _ => s

/-- A push or pop of a wrong-path bundle; it is kept (04 R119). -/
def Pred.wrongStep (p : Pred) (x : Option Word) : Pred :=
  match x with
  | some v => { p with stack := (v :: p.stack).take 16 }
  | none => { p with stack := p.stack.drop 1 }

/-- What the bundles beyond the delay bundle of a mispredicted branch leave: those at the predicted address and on from there (04 R119;
which ones they are and their pushes and pops are free, log entry 31). -/
def State.wrongPath (s : State) (n : Tri) (guess : Word) : State :=
  let (k, s) := s.draw
  let s := s.updLp n fun l => l.cores fun c => { c with pred := (Config.wrongStack k).foldl Pred.wrongStep c.pred }
  (guess :: Config.wrongPath k).foldl (fun s va => (s.count n.val 4 1).wrongFetch n va) s

/-- Prediction and its cost at the commit of a branch: misprediction, wrong path, table updates in every core (04 R112 to R115). The
lead's tables give the prediction. -/
def State.resolve (s : State) (n : Tri) (top : Option Word) (b : Option (BrKind × Word)) : State × Bool :=
  let a := (s.lp n).arch
  match b with
  | none => (s, false)
  | some (k, t) =>
    let p := (s.lp n).lead.pred
    let wrong := p.wrong top a.pc k t
    let s := if wrong then (match p.guess top a.pc k t with | some g => s.wrongPath n g | none => s) else s
    (s.updLp n fun l => l.cores fun c => { c with pred := c.pred.update top a.pc k t }, wrong)

/-- Bundle boundary before the next bundle: pending flushes and the new order mode apply (04 R116, R118, 09 R238). -/
def State.boundary (s : State) (n : Tri) : State :=
  let l := s.lp n
  let s := if l.flushNear || l.flushShared then
      ((s.flushPred n l.flushNear l.flushShared).updLp n fun l => { l with flushNear := false, flushShared := false }).setFld
        (aTrdPredCtl n) 2 2 0
    else s
  s.updLp n fun l => { l with orderMode := (s.reg aHubOrderMode).toNat }

/-- The event due at the boundary, and after `wait` the one it waits for, is taken; the Bool says whether one was. -/
def State.checkEvents (s : State) (n : Tri) : State × Bool :=
  match s.nextEvent n with
  | some e => ((s.updLp n fun l => { l with asm := [] }).takeEvent n e, true)
  | none => (s, false)

/-- What follows the commit of a trap or of `wait` at once: the entry (05 R123, R128), the look for an event (05 R142). -/
def State.afterCommit (s : State) (n : Tri) (effs : List SlotEff) (pc : Word) : State :=
  match effs.find? fun e => e.sys = .call || e.sys = .brk with
  | some e => s.enter n { vec := if e.sys = .call then 6 else 7, slot := e.slot, faddr := pc }
  | none => if effs.any fun e => e.sys = .wait then ((s.boundary n).checkEvents n).1 else s

/-- Commit of the bundle at PC (02 R46). `extra` are registers that the last unit of a long instruction has written. -/
def State.commit (s : State) (n : Tri) (effs : List SlotEff) (r : MemRes) (top : Option Word) (extra : List Dst) : State :=
  let a := (s.lp n).arch
  let a' := commitArch a (s.lpSealed n) effs r.loads
  let (s, wrong) := s.resolve n top (branchOf effs)
  let s := (s.count n.val 1 1).count n.val 6 (b2n wrong)
  let moved := bits a.part 5 0 ≠ bits a'.part 5 0
  let sealedMove := moved && (s.sealed (bits a.part 5 0) || s.sealed (bits a'.part 5 0))
  let wr := writtenDsts effs ++ (r.loads.map (·.1)).filter (· ≠ .g 0) ++ extra
  let s := s.updLp n fun l => { l with
    arch := a', frozen := none, asm := [], micro := none
    cycles := l.cycles + bundleTime effs + commitCost a wrong effs
    stopTick := l.stopTick || sealedMove
    waiting := effs.any fun e => e.sys = .wait }
  let s := s.pushRecord n { post := a', stores := r.stores, writes := wr, reads := effReads effs, reqs := r.reqs, held := r.held, evt := none }
  (s.flushFor n a a' false).afterCommit n effs a.pc

/-! ### Giving a bundle up, or freezing it -/

/-- The bundle freezes the pipeline (02 R54). -/
def State.freeze (s : State) (n : Tri) (fr : Frozen) : State := s.updLp n fun l => { l with frozen := some fr, asm := [] }

/-- The bundle is given up for an exception; what its requests returned is given up with it. -/
def State.abandon (s : State) (n : Tri) : State := s.updLp n fun l => { l with frozen := none, asm := [], devHold := [], micro := none }

/-- A synchronous fault of a slot of the bundle at PC: nothing of it commits (02 R46). -/
def State.faultAt (s : State) (n : Tri) (slot : Nat) (f : Flt) : State := (s.abandon n).takeFault n slot f

/-- What a bundle that stops does: it freezes, sends its own store ahead, issues a device access, or faults. -/
def State.stopAt (s : State) (n : Tri) (fr : Frozen) (x : Stop) : State :=
  match x with
  | .wait => s.freeze n fr
  | .ownStore =>
    let a := (s.lp n).arch
    let s := s.pushRecord n { post := a, stores := fr.res.stores, writes := [], reads := [], reqs := fr.res.reqs, held := [], evt := none }
    s.freeze n { fr with res := { fr.res with stores := [], reqs := [], held := fr.res.held ++ [.stored a.pc] } }
  | .issue d => (s.updLp n fun l => if l.devReq.isSome then l else { l with devReq := some d }).freeze n fr
  | .fault k f => s.faultAt n k f

/-! ### `eret` (05 R139) -/

/-- Commit of `eret`. -/
def State.commitEret (s : State) (n : Tri) (a' : Arch) (viaM : Bool) : State :=
  let a := (s.lp n).arch
  let a' := { a' with handlerFirst := false }
  let s := s.count n.val 1 1
  let s := s.updLp n fun l => { l with arch := a', frozen := none, asm := [], cycles := l.cycles + 18 }
  let s := s.pushRecord n { post := a', stores := [], writes := [], reads := [.g 63], held := [], evt := none }
  s.flushFor n a a' viaM

/-- One of the four 64-byte loads of an `eret`, an ordinary load at the current level. -/
def State.eretLoad (s : State) (n : Tri) (va : Word) : State × Except Flt (List Byte) :=
  match s.access n (s.lp n).arch.pl { kind := .load, va := va, size := 64 } with
  | .error f => (s, .error f)
  | .ok ac =>
    let s := (s.applyFills n ac false).updLp n fun l => { l with cycles := l.cycles + ac.cycles }
    if ac.region ≠ .mem then (s, .error { vec := 13, detail := 0, faddr := va })
    else
      let s := s.drainFor n ac.addrs
      if s.consumesPoison n [] ac.addrs then (s, .error { vec := 15, detail := 0, faddr := va })
      else
        let bs := s.ownBytes n [] ac.addrs
        ((linesOf ac.addrs).foldl (fun s line => s.touchRead n (s.reqPart n) line false false false) s, .ok bs)

/-- The loads in order, up to the first that faults. -/
def State.eretLoads (s : State) (n : Tri) : List Word → List Byte → State × Except Flt (List Byte)
  | [], bs => (s, .ok bs)
  | va :: r, bs =>
    match s.eretLoad n va with
    | (s, .ok b) => s.eretLoads n r (bs ++ b)
    | (s, .error f) => (s, .error f)

/-- `eret` at PC: the 256 bytes at SP, then its checks. -/
def State.runEret (s : State) (n : Tri) (fr : Frozen) (slot : Nat) : State :=
  let a := (s.lp n).arch
  if s.ordered n && (s.lp n).unperformed false then s.freeze n fr
  else
    match s.eretLoads n ((List.range 4).map fun i => a.rdG 63 + w64 (64 * i)) [] with
    | (s, .error f) => s.faultAt n slot f
    | (s, .ok bs) =>
      match eretArch a (s.lpSealed n) bs with
      | .error f => s.faultAt n slot f
      | .ok a' => s.commitEret n a' (a.pl = plM)

/-! ### Long instructions (02 R64 to R71) -/

/-- Does the instruction use an engine? -/
def LongKind.engine : LongKind → Bool
  | .cmpx | .cphx => true
  | _ => false

/-- Registers that a unit reads and those that it writes (06 R146, R154). -/
def LongOp.regs (o : LongOp) : List Dst × List Dst :=
  if o.kind.engine then
    let block := (List.range 4).map fun i => Dst.g (o.rd + i)
    (block ++ [.g o.ra], block)
  else ([.g o.rd, .g o.ra, .g o.rb], [.g o.rd, .g o.ra, .g o.rb])

/-- What a unit did: its stores, and whether it was the instruction's last work, with registers that the commit itself writes. -/
def State.unitOf (s : State) (n : Tri) (o : LongOp) : Except Flt (State × List Store × Bool) :=
  match o.kind with
  | .mv => (s.unitMv n o).map fun r => (r.1, r.2, false)
  | .cmp => (s.unitCmp n o).map fun r => (r.1, [], r.2)
  | .crc poly w => (s.unitCrc n o poly w).map fun s => (s, [], false)
  | .cmpx => (s.unitCmpx n o).map fun r => (r.1, [], r.2)
  | .cphx => (s.unitCphx n o).map fun r => (r.1, [], r.2)

/-- The engine request of a unit (06 R146). -/
def LongOp.request (o : LongOp) (a : Arch) : List ReqItem :=
  if o.kind.engine then [.engine o ((List.range 4).map fun i => a.rdG (o.rd + i))] else []

/-- The instruction commits with its last work; an engine's results are voted results at once (02 R71). -/
def State.longCommit (s : State) (n : Tri) (o : LongOp) (effs : List SlotEff) (wrote : Bool) : State :=
  let extra := if wrote then (if o.kind.engine then o.regs.2 ++ [.g o.rb] else o.regs.2) else []
  let s := s.commit n effs { reqs := o.request (s.lp n).arch } none extra
  if o.kind.engine then s.releaseOne n else s

/-- A unit that is not the last work is done: progress word and record (02 R69, 06 R146). A unit of an engine instruction has its
request agreed on before, and its results are voted results at once (02 R71). It takes one core cycle (DESIGN CHOICE, log entry 5). -/
def State.unitDone (s : State) (n : Tri) (o : LongOp) (old : Arch) (sts : List Store) : State :=
  let s := s.updLp n fun l => { l with
    arch := { l.arch with progress := progressNext old.progress o.kind o.kind.engine 1 }, cycles := l.cycles + 1 }
  let s := s.ucTick n true
  let s := s.pushRecord n { post := (s.lp n).arch, stores := sts, writes := o.regs.2, reads := o.regs.1, reqs := o.request old
                            held := [], evt := none }
  if o.kind.engine then s.releaseOne n else s

/-- A unit faults (02 R68): the progress word is that of the units done. -/
def State.unitStop (s : State) (n : Tri) (o : LongOp) (slot : Nat) (f : Flt) : State :=
  let s := (s.longStop n).updLp n fun l => { l with
    arch := { l.arch with progress := progressNext l.arch.progress o.kind (bit l.arch.progress 58) 0 } }
  s.faultAt n slot f

/-- Run units until the operand ends, a fault, or the budget of units is used up (02 R64, R67, R68). -/
def State.runLong (s : State) (n : Tri) (slot : Nat) (o : LongOp) (effs : List SlotEff) : Nat → State
  | 0 => (s.longStop n).updLp n fun l => { l with frozen := none, asm := [], micro := none }
  | k + 1 =>
    let a := (s.lp n).arch
    if !o.kind.engine && a.rdG o.rb = 0 then s.longCommit n o effs false
    else
      match s.unitOf n o with
      | .error f => s.unitStop n o slot f
      | .ok (s, sts, last) =>
        if last then s.longCommit n o effs true
        else
          let s := s.unitDone n o a sts
          if !o.kind.engine && (s.lp n).arch.rdG o.rb = 0 then s.longCommit n o effs false else s.runLong n slot o effs k

/-- A long instruction at PC: it orders as `bar.full` before it begins (09 R248), and an engine gets its request only after the voter
has agreed on everything older (02 R71) and when it has room. -/
def State.startLong (s : State) (n : Tri) (fr : Frozen) (slot : Nat) (o : LongOp) : State :=
  if (s.lp n).unperformed true || (o.kind.engine && (!(s.lp n).records.isEmpty || s.engineFull n o)) then s.freeze n fr
  else ((s.drainAll n).ucBegin n (longKindNo o.kind)).runLong n slot o fr.effs o.budget

/-! ### System operations of slot 0 -/

/-- System operations at their place in the bundle; a range answers its stop address in rd (07 R203). -/
def State.sysDo (s : State) (n : Tri) (op : SysOp) : State × List (Nat × Word) :=
  match op with
  | .cmLine act a =>
    let s := s.drainAll n
    match s.cmXlat n (cmKind act) a with
    | .ok (some abs, f) => ((s.xfill n false f).cmApply act (abs / 128), [])
    | .ok (none, f) => (s.xfill n false f, [])
    | .error _ => (s, [])
  | .cmRange act rd a b =>
    let s := s.drainAll n
    let stop := cmStop a b
    if b.toNat ≤ a.toNat then (s, [(rd, b)])
    else match s.cmXlat n (cmKind act) a with
      | .ok (some abs, f) => ((cmLines a abs stop).foldl (fun s line => s.cmApply act line) (s.xfill n false f), [(rd, w64 stop)])
      | .ok (none, f) => (s.xfill n false f, [(rd, w64 stop)])
      | .error _ => (s, [])
  | .lkfill rd a b =>
    let s := s.drainAll n
    let stop := cmStop a b
    if b.toNat ≤ a.toNat then (s, [(rd, b)])
    else match s.cmXlat n .load a with
      | .ok (some abs, f) => ((cmLines a abs stop).foldl (fun s line => s.lockFill n line) (s.xfill n false f), [(rd, w64 stop)])
      | .ok (none, f) => (s.xfill n false f, [(rd, w64 stop)])
      | .error _ => (s, [])
  | .cmSw act a => ((s.drainAll n).cmPos n act a, [])
  | .isync => (s.drainAll n, [])
  | .tlb op a b => ((s.drainAll n).tlbDo op (s.partOf n) a b, [])
  | _ => (s, [])

/-- Is it a maintenance or TLB operation, which is a request of its bundle (06 R146)? -/
def SysOp.isReq : SysOp → Bool
  | .cmLine .. | .cmRange .. | .cmSw .. | .isync | .lkfill .. | .tlb .. => true
  | _ => false

/-- The operation of slot 0 that is a request. -/
def sysReq (effs : List SlotEff) : Option SysOp := (effs.map (·.sys)).find? SysOp.isReq

/-- Must a maintenance or TLB operation wait (07 R205, 08 R228)? -/
def State.sysWaits (s : State) (n : Tri) (op : SysOp) : Bool :=
  (s.lp n).unperformed true || match op with | .tlb op a b => s.tlbBusy n op a b | _ => false

/-- The request of slot 0 is made once: its results wait for the record's release, so that a retry does not repeat it (07 R206). -/
def State.sysStep (s : State) (n : Tri) (fr : Frozen) (op : SysOp) : State × Frozen :=
  let pc := (s.lp n).arch.pc
  let keep := fun (ws : List (Nat × Word)) => { fr with
    sys := some ws, res := { fr.res with reqs := fr.res.reqs ++ [.sys op], held := fr.res.held ++ [.done pc ws] } }
  match (s.lp n).heldSys with
  | some ws => (s.updLp n fun l => l.unhold fun h => h = .done l.arch.pc ws, keep ws)
  | none => let (s, ws) := s.sysDo n op; (s, keep ws)

/-- Add g writes to the slot-0 effect of a bundle. -/
def addGw (effs : List SlotEff) (ws : List (Nat × Word)) : List SlotEff :=
  if ws.isEmpty then effs else effs.map fun e => if e.slot = 0 then { e with gw := e.gw ++ ws } else e

/-- Accesses of the other slots once slot 0's operation is done: after a TLB operation they leave no translation behind (08 R228). -/
def afterSys (op : Option SysOp) (ms : List MemAcc) : List MemAcc :=
  match op with
  | some (.tlb ..) => ms.map fun m => { m with acc := { m.acc with fills := [] } }
  | _ => ms

/-! ### One attempt at a bundle -/

/-- The fetch of the bundle at PC: alignment, translation, presence, poison (08 R222). -/
def State.fetchFault (s : State) (n : Tri) : Except Flt Access :=
  let a := (s.lp n).arch
  if bits a.pc 3 0 ≠ 0 then .error { vec := 3, detail := 0, faddr := a.pc }
  else match s.access n a.pl { kind := .fetch, va := a.pc, size := 16 } with
    | .error f => .error f
    | .ok acc => if acc.addrs.any s.badByte then .error { vec := 15, detail := 0, faddr := a.pc } else .ok acc

/-- Does a bundle hold a long instruction that the held progress word applies to (02 R70)? -/
def resumesLong (p : Word) (effs : List SlotEff) : Bool :=
  effs.any fun e => match e.long with
    | some o => progressApplies p o.kind
    | none => false

/-- A bundle is fetched: caches, and the return stacks of the cores; a bundle that holds no long instruction to which the held progress
word applies clears it (02 R70, 04 R115). -/
def State.fetchWork (s : State) (n : Tri) (fr : Frozen) (fa : Access) : State × Frozen :=
  let s := s.applyFills n fa true
  let s := fa.addrs.head?.elim s fun b => s.touchRead n (s.reqPart n) (b / 128) true false false
  let pc := (s.lp n).arch.pc
  let b := branchOf fr.effs
  let top := ((s.lp n).lead.pred.fetch pc b).2
  let resumes := resumesLong (s.lp n).arch.progress fr.effs
  (s.updLp n fun l => { l.cores (fun c => { c with pred := (c.pred.fetch pc b).1 }) with
    arch := if resumes then l.arch else { l.arch with progress := 0 } },
    { fr with fetched := true, top := top })

/-- Faults of the lower slots' loads, which are found before a fault of a higher slot (02 R46): a load in Ordered mode waits first. -/
def State.faultStop (s : State) (n : Tri) (effs : List SlotEff) (k : Nat) (f : Flt) : Stop :=
  let ms := (s.memAccs n effs).filter fun m => decide (m.slot < k) && m.acc.region = .mem && match m.op with | .load .. => true | _ => false
  if ms.any fun m => s.opWaitsOld n m then .wait
  else match s.poisonStop n ms with
    | some (k, f) => .fault k f
    | none => .fault k f

/-- Core cycles that a bundle has held the execute stage for when it faults. A divide by zero is found at the end of the execute time (03
R78), which is taken as the bundle's; any other fault adds none (DESIGN CHOICE, log entry 5). -/
def faultTime (effs : List SlotEff) (f : Flt) : Nat := if f.vec = 5 then bundleTime effs else 0

/-- The checks of the slots: what is found before anything waits (02 R46, R49, R50). -/
def State.checkSlots (s : State) (n : Tri) (effs : List SlotEff) : Option Stop :=
  let a := (s.lp n).arch
  match effs.find? (·.reserved) with
  | some e => some (.fault e.slot { vec := 1, detail := 0, faddr := a.pc })
  | none =>
  match illegal a effs with
  | some (c, k) => some (.fault k { vec := 0, detail := c, faddr := a.pc })
  | none => (effs.findSome? fun e => (s.slotFault n e).map fun f => (e.slot, f)).map fun x => s.faultStop n effs x.1 x.2

/-- The rest of a bundle's memory operations, then its commit. -/
def State.runMem (s : State) (n : Tri) (fr : Frozen) (ms : List MemAcc) : State :=
  match s.memSteps n fr ms with
  | (s, fr, some x) => s.stopAt n fr x
  | (s, fr, none) => s.commit n (addGw fr.effs (fr.sys.getD [])) fr.res fr.top []

/-- A bundle whose slots have passed their checks: its operations in slot order (02 R48), slot 0's first. -/
def State.runSlots (s : State) (n : Tri) (fr : Frozen) : State :=
  let ms := s.memAccs n fr.effs
  match sysReq fr.effs with
  | none =>
    if ms.head?.any fun m => s.opWaitsOld n m then s.freeze n fr
    else match s.poisonStop n ms with
      | some (k, f) => s.faultAt n k f
      | none => s.runMem n fr ms
  | some op =>
    if s.sysWaits n op then s.freeze n fr
    else match s.poisonStop n ms with
      | some (k, f) => s.faultAt n k f
      | none =>
        let (s, fr) := s.sysStep n fr op
        s.runMem n fr (afterSys (some op) ms)

/-- A fetched bundle whose checks are to be made. -/
def State.runBundle (s : State) (n : Tri) (fr : Frozen) : State :=
  match s.checkSlots n fr.effs with
  | some (.fault k f) => (s.updLp n fun l => { l with cycles := l.cycles + faultTime fr.effs f }).faultAt n k f
  | some x => s.stopAt n fr x
  | none =>
    match fr.effs.findSome? fun e => e.long.map fun o => (e.slot, o) with
    | some (slot, o) => s.startLong n fr slot o
    | none =>
      match fr.effs.find? fun e => e.sys = .eret with
      | some e => s.runEret n fr e.slot
      | none => s.runSlots n fr

/-- One attempt to run the bundle at PC: fault, wait, or commit (02 R46 to R50, 08 R222, 09 R237, R247). -/
def State.attempt (s : State) (n : Tri) (fr : Frozen) : State :=
  match fr.todo with
  | some ms => s.runMem n fr ms
  | none =>
    if fr.fetched then s.runBundle n fr
    else
      match s.fetchFault n with
      | .error f => s.faultAt n 0 f
      | .ok fa => let (s, fr) := s.fetchWork n fr fa; s.runBundle n fr

/-- The assembled bundle is issued (02 R46, 05 R127, R142): an event that is due is taken in its place. -/
def State.issueBundle (s : State) (n : Tri) : State :=
  let s := s.boundary n
  let effs := (s.lp n).asm
  let (s, taken) := if (s.lp n).retried then (s, false) else s.checkEvents n
  let s := s.updLp n fun l => { l with retried := false }
  if taken then s
  else if (s.lp n).waiting then s.updLp n fun l => { l with asm := [] }
  else s.attempt n { effs := effs }

/-- A slot joins the bundle in assembly, kept in slot order; a second command for one slot replaces the first. -/
def insertSlot (e : SlotEff) (l : List SlotEff) : List SlotEff :=
  (l.filter fun x => decide (x.slot < e.slot)) ++ [e] ++ (l.filter fun x => decide (e.slot < x.slot))

/-- What a slot's effect depends on besides the registers. -/
structure SlotCtx where
  arch : Arch
  sealed : Bool
  escLocked : Bool
  sFill : Bool

/-- Context of a slot of LP n. -/
def State.slotCtx (s : State) (n : Tri) : SlotCtx :=
  { arch := (s.lp n).arch, sealed := s.lpSealed n, escLocked := (s.lp n).arch.escLocked, sFill := s.flag (aTrdL2Lock n) 16 }

/-- An instruction command: its effect is staged; the last one of a bundle issues it. An LP that issues no bundle takes none. -/
def State.stage (s : State) (at_ : Issue) (mk : SlotCtx → SlotEff) : State :=
  if s.issues at_.lp then
    let e := { mk (s.slotCtx at_.lp) with slot := at_.slot.val }
    let s := s.updLp at_.lp fun l => { l with asm := insertSlot e l.asm }
    if at_.last then s.issueBundle at_.lp else s
  else s.updLp at_.lp fun l => { l with asm := [] }

/-- A frozen bundle, or an entry that waits, is attempted again after something it may wait for has happened. -/
def State.reattempt (s : State) (n : Tri) : State :=
  match (s.lp n).entry with
  | some x => (s.updLp n fun l => { l with entry := none }).enter n x
  | none =>
    match (s.lp n).frozen with
    | some fr => s.attempt n fr
    | none => s

/-- Every frozen bundle is attempted again. -/
def State.reattemptAll (s : State) : State := allTri.foldl (fun s n => s.reattempt n) s

end Sys2Proof.Machine
end

