-- ==== Sys2Proof/Machine/Triad.lean ====
section
/-! DEFINITION. Triads (06): release, correction, retry, resynchronisation, substitution, rebuilding and starting. -/

namespace Sys2Proof.Machine
open Sys2Proof

/-! ### Cores and spares -/

/-- Set the cores of the roles; 0x1F is none. -/
def State.setCores (s : State) (n : Tri) (a b c : Nat) : State :=
  ((s.setFld (aTrdState n) 4 0 a).setFld (aTrdState n) 12 8 b).setFld (aTrdState n) 20 16 c

/-- STATE of a spare: sp 0 is S(2d), 1 is S(2d + 1). -/
def State.spareState (s : State) (n : Tri) (sp : Nat) : Nat := if sp = 0 then s.fld (spareReg n) 7 5 else s.fld (spareReg n) 15 13
/-- Set a spare's STATE and the triad it serves. -/
def State.setSpare (s : State) (n : Tri) (sp st : Nat) : State :=
  let t := if st = 1 ∨ st = 2 then n.val % 8 else 0
  if sp = 0 then (s.setFld (spareReg n) 7 5 st).setFld (spareReg n) 2 0 t
  else (s.setFld (spareReg n) 15 13 st).setFld (spareReg n) 10 8 t
/-- Power domain of a spare (18 R471). -/
def spareDom (n : Tri) (sp : Nat) : Nat := 32 + 2 * (n.val / 8) + sp
/-- A spare is switched on or off by the module (18 R473). -/
def State.spareOn (s : State) (n : Tri) (sp : Nat) (on : Bool) : State :=
  (s.setFld (aPwrDom (spareDom n sp)) 1 0 (if on then 0 else 3)).setFld (aPwrDom (spareDom n sp)) 63 63 (b2n (!on))
/-- The available spare with the lower number (06 R166). -/
def State.freeSpare (s : State) (n : Tri) : Option Nat := [0, 1].find? fun sp => s.spareState n sp = 0

/-- A core's number goes to the start journal, so that step 10 excludes it (06 R166, R169). -/
def State.journalCore (s : State) (n : Tri) (core : Nat) : State :=
  if core = 0x1F then s
  else
    let b := 2 ^ (32 * (n.val / 8) + core)
    { s with kst := { s.kst with rest := { s.kst.rest with exclCores := s.kst.rest.exclCores ||| b } } }

/-- Isolated core of a pair, or 0x1F (06 R145, TRD_STATE.ODD_CORE). -/
def State.oddCore (s : State) (n : Tri) : Nat := s.fld (aTrdState n) 28 24

/-- Roles that take part in voting, as CORES shows them (06 R148): the isolated core of a pair keeps its place until the rejoin, so lead and
third remain where the second was odd. -/
def State.takePart (s : State) (n : Tri) : Nat :=
  if s.mode n = 1 then 7 else if (s.mode n = 2 || s.mode n = 3) && s.coreOf n .second = s.oddCore n then 5 else 3

/-- A role's bit in CORES. -/
def roleBit : Role → Nat
  | .lead => 1
  | .second => 2
  | .third => 4

/-! ### Retry (06 R156 to R158) -/

/-- What the discarded bundles' requests returned, in their order. A store that slot 1 of the frozen bundle sent ahead has left only if its
record is released. -/
def Lp.heldBack (l : Lp) : List Held :=
  let fr := match l.frozen with
    | some f => if l.records.isEmpty then f.res.held else f.res.held.filter fun h => match h with | .stored _ => false | _ => true
    | none => []
  l.records.flatMap (·.held) ++ fr ++ l.devHold

/-- A resynchronisation after a retry starts over at its isolate phase once the retried record is released (06 R162). -/
def Recov.retried : Recov → Recov
  | .resync c x => .resync c { x with restart := true }
  | .subst c sp (some x) => .subst c sp (some { x with restart := true })
  | v => v

/-- The cores go back to the voted state; data of requests of discarded bundles is held (06 R158), and a trap whose entry is discarded is
taken again. -/
def Lp.rollback (l : Lp) : Lp :=
  let trap := l.records.head?.bind (·.trap)
  let evt := l.records.head?.any fun r => r.evt.isSome
  { l.loadVoted with
    devHold := l.heldBack, recov := l.recov.retried, entry := trap, retryTold := true, retried := !evt && trap.isNone
    cycles := l.cycles + 64 }

/-- An instruction retry, or a checkstop once the third has failed or a voted-state word is lost (06 R157, R170). -/
def State.retry (s : State) (n : Tri) (kind item cores : Nat) : State :=
  if s.fld (aTrdState n) 35 34 = 3 || s.flag (aTrdState n) 31 then
    let rec_ := (s.lp n).recov
    let s := (s.mismatch n kind item 3 cores).checkstop n
    -- a substitution still completes through attachment (06 R168)
    match rec_ with
    | .subst .. => s.updLp n fun l => { l with recov := rec_ }
    | _ => s
  else
    let s := s.mismatch n kind item 2 cores
    let s := s.setFld (aTrdState n) 35 34 (s.fld (aTrdState n) 35 34 + 1)
    let s := (s.addSat (aTrdRasCount n) 63 48 1).count n.val 12 1
    let s := if (s.lp n).retryTold then s else s.raise { src := srcTriad n 1 }
    ((s.unEnter n).updLp n Lp.rollback).reattempt n

/-! ### The granules of a core's arrays (06 R160) -/

/-- Entries of an array whose index lies in a range. -/
def inRange {α : Type} (m : SMap α) (lo n : Nat) : SMap α := m.filter fun e => decide (lo ≤ e.1) && decide (e.1 < lo + n)
/-- Entries outside. -/
def offRange {α : Type} (m : SMap α) (lo n : Nat) : SMap α := m.filter fun e => !(decide (lo ≤ e.1) && decide (e.1 < lo + n))

/-- Granules: 512 of L1I data, 512 of L1D data, 16 of tags, 23 of L1 TLBs, 8 bimodal, 32 global, 128 indirect, 1 return stack. -/
def granCount : Nat := 1232

/-- First entry and number of entries of L1 TLB granule k: 128 entries of 23 bytes. -/
def tlbGran (k : Nat) : Nat × Nat := (128 * k / 23, (128 * k + 127) / 23 + 1 - 128 * k / 23)

/-- Do two cores' arrays agree on a granule? GH stands with the first granule of the global table. -/
def CoreArr.granEq (a b : CoreArr) (g : Nat) : Bool :=
  if g < 512 then inRange a.l1i g 1 = inRange b.l1i g 1
  else if g < 1024 then inRange a.l1d (g - 512) 1 = inRange b.l1d (g - 512) 1
  else if g < 1032 then inRange a.l1i (64 * (g - 1024)) 64 = inRange b.l1i (64 * (g - 1024)) 64
  else if g < 1040 then inRange a.l1d (64 * (g - 1032)) 64 = inRange b.l1d (64 * (g - 1032)) 64
  else if g < 1063 then
    let r := tlbGran (g - 1040)
    let f := fun (c : CoreArr) => ((List.range r.2).map fun i => if r.1 + i < 64 then c.tlbI[r.1 + i]? else c.tlbD[r.1 + i - 64]?)
    f a = f b
  else if g < 1071 then inRange a.pred.bimodal (512 * (g - 1063)) 512 = inRange b.pred.bimodal (512 * (g - 1063)) 512
  else if g < 1103 then
    inRange a.pred.global (512 * (g - 1071)) 512 = inRange b.pred.global (512 * (g - 1071)) 512 && (g ≠ 1071 || a.pred.gh = b.pred.gh)
  else if g < 1231 then inRange a.pred.indirect (16 * (g - 1103)) 16 = inRange b.pred.indirect (16 * (g - 1103)) 16
  else a.pred.stack = b.pred.stack

/-- A granule invalidated; a predictor's is as after a flush. -/
def CoreArr.granInv (c : CoreArr) (g : Nat) : CoreArr :=
  if g < 512 then { c with l1i := offRange c.l1i g 1 }
  else if g < 1024 then { c with l1d := offRange c.l1d (g - 512) 1 }
  else if g < 1032 then { c with l1i := offRange c.l1i (64 * (g - 1024)) 64 }
  else if g < 1040 then { c with l1d := offRange c.l1d (64 * (g - 1032)) 64 }
  else if g < 1063 then
    let r := tlbGran (g - 1040)
    let f := fun (l : List TlbEnt) (off : Nat) =>
      (l.zipIdx.filter fun e => !(decide (r.1 ≤ e.2 + off) && decide (e.2 + off < r.1 + r.2))).map (·.1)
    { c with tlbI := f c.tlbI 0, tlbD := f c.tlbD 64 }
  else if g < 1071 then { c with pred := { c.pred with bimodal := offRange c.pred.bimodal (512 * (g - 1063)) 512 } }
  else if g < 1103 then { c with pred := { c.pred with
    global := offRange c.pred.global (512 * (g - 1071)) 512, gh := if g = 1071 then 0 else c.pred.gh } }
  else if g < 1231 then { c with pred := { c.pred with indirect := offRange c.pred.indirect (16 * (g - 1103)) 16 } }
  else { c with pred := { c.pred with stack := [] } }

/-- Granules of the lead that have changed since they were copied: those that differ from the copy, and L1D lines that a store changed. -/
def Resync.marked (x : Resync) (lead : CoreArr) : List Nat :=
  (List.range granCount).filter fun g =>
    !lead.granEq x.tgt g || (decide (512 ≤ g) && decide (g < 1024) && (inRange lead.l1d (g - 512) 1).any fun e => x.touched.contains (e.2 - 1))

/-! ### Correction, resynchronisation, substitution (06 R153, R159 to R169) -/

/-- A replaced core that is a spare counts as failed until the next chip reset (06 R166; log entry 15). -/
def State.dropSpare (s : State) (n : Tri) (core : Nat) : State :=
  if core = 24 then s.setSpare n 0 3 else if core = 25 then s.setSpare n 1 3 else s

/-- The pair without the isolated core: its lead, and its other core. -/
def State.pairCores (s : State) (n : Tri) : Nat × Nat :=
  (s.coreOf n .lead, if s.coreOf n .second = s.oddCore n then s.coreOf n .third else s.coreOf n .second)

/-- The triad stays a degraded pair (06 R169). -/
def State.degrade (s : State) (n : Tri) (core : Nat) : State :=
  let (a, b) := (s.setFld (aTrdState n) 28 24 core).pairCores n
  let s := ((s.setCores n a b 0x1F).setMode n 4).setFld (aTrdState n) 28 24 0x1F
  (((s.dropSpare n core).journalCore n core).updLp n fun l => { l with recov := .none }).raise { src := srcTriad n 5 }

/-- A spare is being brought in for `core` (06 R167). -/
def State.bringSpare (s : State) (n : Tri) (core sp : Nat) : State :=
  ((s.setSpare n sp 1).spareOn n sp true).updLp n fun l => { l with recov := .subst core sp none }

/-- A substitution of `core` starts with the available spare of the lower number, or the triad is degraded (06 R165 to R169). -/
def State.substitute (s : State) (n : Tri) (core : Nat) (told : Bool) : State :=
  match s.freeSpare n with
  | none => s.degrade n core
  | some sp =>
    let s := (s.setMode n 3).setFld (aTrdState n) 28 24 core
    let s := ((s.bringSpare n core sp).dropSpare n core).journalCore n core
    if told then s else s.raise { src := srcTriad n 3 }

/-- A resynchronisation of `core` starts (06 R159): its arrays are invalidated, then copied from the lead. -/
def State.resync (s : State) (n : Tri) (core : Nat) : State :=
  let s := (s.setMode n 2).setFld (aTrdState n) 28 24 core
  let t := (s.reg aHubTickNum).toNat
  let s := s.addSat (aTrdRasCount n) 47 32 1
  s.updLp n fun l => { l with
    recov := .resync core { tgt := l.lead, touched := [], restart := false }
    resyncs := smSet (fun _ => []) l.resyncs core (((smGet (fun _ => []) l.resyncs core) ++ [t]).reverse.take 4 |>.reverse) }

/-- Would the resynchronisation be the fourth within 999 ticks (06 R165)? -/
def State.tooMany (s : State) (n : Tri) (core : Nat) : Bool :=
  match (smGet (fun _ => []) (s.lp n).resyncs core).reverse.take 3 |>.reverse with
  | [a, _, _] => decide ((s.reg aHubTickNum).toNat ≤ a + 999)
  | _ => false

/-- The roles and their arrays after a core is isolated (06 R145). The isolated core keeps its place, or takes the third where it was the
lead; its arrays are of no account until it rejoins, and mirror those of the core beside it. -/
def State.isolate (s : State) (n : Tri) (role : Role) : State :=
  match role with
  | .lead =>
    (s.setCores n (s.coreOf n .second) (s.coreOf n .third) (s.coreOf n .lead)).updLp n fun l => { l with lead := l.second, second := l.third }
  | .second => s.updLp n fun l => { l with second := l.third }
  | .third => s.updLp n fun l => { l with third := l.second }

/-- The odd core of a correction is isolated and its recovery chosen (06 R145, R153, R163, R165). -/
def State.correct (s : State) (n : Tri) (role : Role) (kind item : Nat) : State :=
  let core := s.coreOf n role
  let s := (s.isolate n role).mismatch n kind item 1 (roleBit role)
  let s := ((s.addSat (aTrdRasCount n) 15 0 1).count n.val 11 1).raise { src := srcTriad n 0 }
  let early := (s.lp n).rejoin.find? fun j => j.core = core
  let s := s.updLp n fun l => { l with rejoin := l.rejoin.filter fun j => j.core ≠ core }
  match early with
  | some j => (if j.viaSub then s else s.raise { src := srcTriad n 2 }).substitute n core false
  | none => if s.tooMany n core then s.substitute n core false else s.resync n core

/-- A correction whose only differing items are register writes is watched from the release of its record on (06 R154). -/
def State.watchLatent (s : State) (n : Tri) (regs : List Nat) : State :=
  s.updLp n fun l => { l with records := match l.records with
    | r :: rest => { r with odd := regs.map dstOfItem } :: rest
    | [] => [] }

/-! ### The voter's commands -/

/-- Halt: it takes effect at the first boundary at which every record is released; a bundle being retried comes first (06 R156, R177). -/
def State.haltCheck (s : State) (n : Tri) : State :=
  let l := s.lp n
  if l.haltReq && l.records.isEmpty && l.frozen.isNone && l.entry.isNone && !l.retried then
    let s := s.setFld (aTrdState n) 33 33 1
    let s := if l.stepping then s else s.raise { src := 0x4E1, unit := n.val }
    s.updLp n fun l => { l with haltReq := false, stepping := false, asm := [] }
  else s

/-- After a release: what waited goes on. -/
def State.released (s : State) (n : Tri) : State := (s.reattempt n).haltCheck n

/-- Does the voter of triad n work on records? -/
def State.voting (s : State) (n : Tri) : Bool := decide (1 ≤ s.mode n) && decide (s.mode n ≤ 4)

/-- Is a request of the triad past its cores under way, whose copies the voter compares (06 R147)? -/
def Lp.asking (l : Lp) : Bool := l.devReq.isSome || l.frozen.isSome || !l.miss.isEmpty || !l.missWait.isEmpty

/-- The oldest record is released if the store buffer has room (09 R234), and what waited goes on. -/
def State.releaseHead (s : State) (n : Tri) : State :=
  match (s.lp n).records with
  | r :: _ => if (s.lp n).roomFor r then (s.releaseOne n).released n else s
  | [] => s

/-- VOTER_RELEASE: the voter decides on the oldest record, or with none on a request under way (06 R147 to R153). -/
def State.vote (s : State) (n : Tri) (b : Ballot) : State :=
  if !s.voting n || ((s.lp n).records.isEmpty && !(s.lp n).asking) then s
  else
    match b with
    | .agree => s.releaseHead n
    | .odd role kind item regs =>
      if s.mode n = 1 then ((s.correct n role kind.toNat item.toNat).watchLatent n (regs.map (·.toNat))).releaseHead n
      else s.retry n kind.toNat item.toNat (s.takePart n)
    | .none kind item => s.retry n kind.toNat item.toNat (s.takePart n)
    | .voterFault => s.retry n 8 0 (s.takePart n)

/-- Voted-state words are found with an uncorrectable error: they read zero from then on (06 R152, R171). -/
def State.vsLose (s : State) (n : Tri) (lost : List Nat) : State :=
  if lost.isEmpty then s
  else (s.setFld (aTrdState n) 31 31 1).updLp n fun l => { l with vsLost := (l.vsLost ++ lost).eraseDups }

/-- INSTRUCTION_RETRY: records of the oldest unreleased bundle that do not agree (06 R156); `lost` are words that the reload finds in error
(06 R170). -/
def State.retryCmd (s : State) (n : Tri) (kind item : Nat) (lost : List Nat) : State :=
  if s.voting n && (!(s.lp n).records.isEmpty || (s.lp n).asking) then (s.vsLose n lost).retry n kind item (s.takePart n) else s

/-- The rejoining core becomes third and MODE triple again (06 R145, R159, R161). The freeze takes 32 cycles and one for each of at most 64
granules copied; marked granules beyond those are invalidated in every core. -/
def State.rejoinCore (s : State) (n : Tri) (core : Nat) (viaSub : Bool) (marked : List Nat) : State :=
  let (a, b) := s.pairCores n
  let s := ((s.setCores n a b core).setMode n 1).setFld (aTrdState n) 28 24 0x1F
  s.updLp n fun l =>
    let l := l.cores fun c => (marked.drop 64).foldl CoreArr.granInv c
    { l with
      third := l.lead, recov := .none, cycles := l.cycles + 32 + min 64 marked.length
      rejoin := { core := core, released := 0, viaSub := viaSub } :: l.rejoin.filter fun j => j.core ≠ core }

/-- A resynchronisation fails (06 R163, R165, R166): the target is replaced; a target that is a spare has failed. -/
def State.resyncFails (s : State) (n : Tri) (core : Nat) : State := (s.raise { src := srcTriad n 2 }).substitute n core false

/-- RESYNC_FREEZE: the freeze of a resynchronisation, or of an attached spare (06 R161 to R163). `recopied` are the marked granules that
the recopy passes have copied again. -/
def State.freezeResync (s : State) (n : Tri) (recopied : List Nat) (copyFails : Bool) : State :=
  if !(s.lp n).records.isEmpty then s
  else
    let left := fun (x : Resync) => (x.marked (s.lp n).lead).filter fun g => !recopied.contains g
    match (s.lp n).recov with
    | .resync core x =>
      if x.restart then s else if copyFails then s.resyncFails n core else s.rejoinCore n core false (left x)
    | .subst core sp (some x) =>
      if s.mode n ≠ 3 || x.restart then s
      else if copyFails then
        (((s.setSpare n sp 3).spareOn n sp false).journalCore n (24 + sp)).resyncFails n core
      else
        let s := (s.setSpare n sp 2).rejoinCore n (24 + sp) true (left x)
        s.updLp n fun l => { l with resyncs := smSet (fun _ => []) l.resyncs (24 + sp) [] }
    | _ => s

/-- SPARE_SUBSTITUTION: the spare's self-test ends (06 R167, R168). The attached spare of a checkstopped pair waits, without state. -/
def State.spareTest (s : State) (n : Tri) (ok : Bool) : State :=
  match (s.lp n).recov with
  | .subst core sp none =>
    if ok then
      let s := s.updLp n fun l => { l with recov := .subst core sp (some { tgt := l.lead, touched := [], restart := false }) }
      if s.mode n = 3 then s.addSat (aTrdRasCount n) 47 32 1 else s.setSpare n sp 2
    else
      let s := ((s.setSpare n sp 3).spareOn n sp false).raise { src := srcTriad n 4 }
      if s.mode n = 3 then s.substitute n core true
      else match s.freeSpare n with
        | some sp' => s.bringSpare n core sp'
        | none => s.updLp n fun l => { l with recov := .none }
  | _ => s

/-! ### Rebuilding and starting (06 R173) -/

/-- Cores that a triad can be re-formed from: its roles, with a core being resynchronised, but a replaced core's place holds the attached
spare, if there is one. -/
def State.ownCores (s : State) (n : Tri) : List Nat :=
  let roles := [s.coreOf n .lead, s.coreOf n .second, s.coreOf n .third]
  let cs := match (s.lp n).recov with
    | .subst c sp (some _) => roles.filter (· ≠ c) ++ [24 + sp]
    | .subst c _ none => roles.filter (· ≠ c)
    | _ => roles
  (cs.filter fun c => decide (c < 26)).eraseDups

/-- Spares brought in until there are three cores (06 R166, R168). -/
def State.fillSpares (s : State) (n : Tri) (failed : List Nat) : Nat → List Nat → State × List Nat
  | 0, cs => (s, cs)
  | k + 1, cs =>
    if 3 ≤ cs.length then (s, cs)
    else match s.freeSpare n with
      | none => (s, cs)
      | some sp =>
        if failed.contains (24 + sp) then
          (((s.setSpare n sp 3).spareOn n sp false).raise { src := srcTriad n 4 }).fillSpares n failed k cs
        else (((s.setSpare n sp 2).spareOn n sp true).raise { src := srcTriad n 3 }).fillSpares n failed k (cs ++ [24 + sp])

/-- A recovery that ends here (06 R176): a spare that was being brought in is available again, an attached one belongs to the triad. -/
def State.endRecov (s : State) (n : Tri) : State :=
  match (s.lp n).recov with
  | .subst _ sp none => (s.setSpare n sp 0).spareOn n sp false
  | .subst _ sp (some _) => s.setSpare n sp 2
  | _ => s

/-- A core that fails its self-test is out until the next chip reset (06 R166). -/
def State.coreFails (s : State) (n : Tri) (c : Nat) : State :=
  let s := s.journalCore n c
  if 24 ≤ c then (s.setSpare n (c - 24) 3).spareOn n (c - 24) false else s

/-- The triad is re-formed from the cores that pass their self-test; `failed` are those that do not. It ends in MODE 0x6, in 0x4 held
stopped, or in 0x0, its voted state kept. -/
def State.reform (s : State) (n : Tri) (failed : List Nat) : State :=
  let own := s.ownCores n
  let s := (own.filter failed.contains).foldl (fun s c => s.coreFails n c) (s.endRecov n)
  let (s, cs) := s.fillSpares n failed 2 (own.filter fun c => !failed.contains c)
  let s := (s.unEnter n).updLp n fun l =>
    { l.cores (fun c => { CoreArr.reset with pred := c.pred }) with
      records := [], asm := [], frozen := none, devReq := none, waiting := false, recov := .none, rejoin := [], latent := []
      retryTold := false, devHold := [], entry := none }
  let s := ((s.setFld (aTrdState n) 35 34 0).setFld (aTrdState n) 28 24 0x1F).setFld (aTrdState n) 32 32 0
  match cs with
  | a :: b :: c :: _ => ((s.setCores n a b c).setMode n 6).setFld (aTrdState n) 30 30 0
  | [a, b] => ((s.setCores n a b 0x1F).setMode n 4).setFld (aTrdState n) 30 30 1
  | _ => ((s.setCores n (cs.headD 0x1F) 0x1F 0x1F).setMode n 0).setFld (aTrdState n) 30 30 0

/-- TRD_CTL.RECOVER: in MODE 0x5 (06 R173). -/
def State.recover (s : State) (n : Tri) (failed : List Nat) : State :=
  if s.mode n ≠ 5 then s else (s.setFld (aTrdExcStatus n) 2 2 0).reform n failed

/-- The cores start from the voted state, where a lost word is zero (06 R171, R173). -/
def State.startTriad (s : State) (n : Tri) : State :=
  let s := ((s.setMode n (if s.mode n = 6 then 1 else s.mode n)).setFld (aTrdState n) 30 30 0).setFld (aTrdState n) 31 31 0
  let s := s.updLp n fun l => { l.vsSettle.loadVoted.cores (fun c => { c with pred := Pred.reset, l1i := [], l1d := [] }) with
    released := true, stopTick := false, quiesced := false }
  s.setFld (aTrdState n) 35 34 0

/-- TRD_CTL.START: in MODE 0x6, or in MODE 0x4 with HELD = 1; ignored otherwise, and while the domain is not ON (18 R473). -/
def State.start (s : State) (n : Tri) : State :=
  if (s.mode n = 6 || (s.mode n = 4 && s.held n)) && s.domState n.val ≠ 3 then s.startTriad n else s

/-- A write of TRD_VS_DATA. -/
def State.vsWrite (s : State) (n : Tri) (v : Word) : State := if s.vsOpen n then s.updLp n fun l => l.vsSet (s.vsIndex n) v else s

end Sys2Proof.Machine
end

