-- ==== Sys2Proof/Machine/Clocks.lean ====
section
/-! DEFINITION. Clocks and power (18, 21): the TOD counter, the reference states and clock hold, triad frequencies with their
voltages, clock gates, power domains and idle selection, TOD comparators, temperatures and rails. -/

namespace Sys2Proof.Machine
open Sys2Proof

/-! ### TOD (18 R458) and the time that domains spend in each state (20 R505) -/

/-- k TOD units pass; every domain counts them under its state. -/
def State.advanceTod (s : State) (k : Nat) : State :=
  if !s.pwr.todRun || k = 0 then s
  else
    let s := { s with pwr := { s.pwr with tod := (s.pwr.tod + k) % 2 ^ 64 } }
    (List.range 64).foldl (fun s d => s.count (0x220 + d) (1 + s.domState d) k) s

/-! ### Reference states (18 R459 to R465) -/

/-- CLK_STATUS.REFSTATE: 0 START, 1 REF, 2 XTAL, 3 REF_ONLY, 4 HOLD. -/
def State.refState (s : State) : Nat := s.fld aClkStatus 2 0

/-- What the PCIE_REFCLK outputs carry. -/
inductive RefOut where
  | refclk
  | crystal
  | stopped
  deriving DecidableEq, Repr

/-- The PCIE_REFCLK outputs (21 R521): the crystal-derived clock in XTAL, nothing in clock hold, REFCLK otherwise. -/
def State.pcieRefclk (s : State) : RefOut := if s.refState = 4 then .stopped else if s.refState = 2 then .crystal else .refclk

/-- PLL i, in the order of 18 R457, locks; a holdover episode came before it unless it starts. -/
def State.pllCount (s : State) (hold lock : Nat) : State :=
  (List.range 49).foldl (fun s i => (s.count (0x1E0 + i) 1 lock).count (0x1E0 + i) 2 hold) s

/-- The reference changes outside HOLD: the PLLs hold their frequency and lock to it (18 R461). -/
def State.relock (s : State) (st : Nat) : State :=
  let s := (s.setFld aClkStatus 2 0 st).pllCount 1 1
  { s with pwr := { s.pwr with unlocked := [] } }

/-- HOLD is entered (18 R462): every buffer goes to self-refresh by itself. -/
def State.holdEnter (s : State) : State :=
  let s := ((s.setFld aClkStatus 2 0 4).setFld aClkStatus 6 6 1).setFld aClkStatus 5 5 1
  let s := { s with pwr := { s.pwr with holdTod := s.pwr.tod } }
  s.mapLinks.foldl (fun s m => s.count (0x180 + m) 5 1) s

/-- HOLD ends (18 R463): the PLLs lock to the crystal, every memory link of the map that works retrains with saved parameters, and the
collector reacts to what was logged in HOLD and to CLK_HOLD. -/
def State.holdEnd (s : State) : State :=
  let s := (s.setFld aClkStatus 2 0 2).pllCount 0 1
  let s := (s.mapLinks.filter fun m => s.linkState m = 2 || s.linkState m = 3).foldl (fun s m => s.setFld (aMemLinkStatus m) 25 24 1) s
  let s := { s with raised := s.raised ++ s.fcu.late, fcu := { s.fcu with late := [] } }
  s.raise { src := 0x4D6, info0 := s.pwr.holdTod, idA := s.pwr.tod % 65536 }

/-- REFCLK_MONITOR_TRIP (18 R460). -/
def State.refTrip (s : State) : State :=
  let st := s.refState
  let s := (s.setFld aClkStatus 3 3 0).raise { src := 0x4D4, idA := st }
  if st = 1 then s.relock 2 else if st = 3 then s.holdEnter else s

/-- CRYSTAL_MONITOR_TRIP (18 R460): the crystal restarts its count. -/
def State.xtalTrip (s : State) : State :=
  let st := s.refState
  let refOk := s.flag aClkStatus 3
  let s := (s.setFld aClkStatus 4 4 0).raise { src := 0x4D5, idA := st }
  if st = 1 then s.relock 3
  else if st = 2 then (if refOk then s.relock 3 else s.holdEnter)
  else s

/-- CRYSTAL_START_COUNT: the crystal is stable (18 R456, R458, R460, R463). -/
def State.xtalStable (s : State) : State :=
  if s.flag aClkStatus 4 then s
  else
    let st := s.refState
    let s := s.setFld aClkStatus 4 4 1
    if st = 0 then { s with pwr := { s.pwr with todRun := true } }
    else if st = 3 then s.relock 1
    else if st = 4 then s.holdEnd
    else s

/-- REFCLK_JUDGED_SOUND (18 R459). -/
def State.refSound (s : State) : State := s.setFld aClkStatus 3 3 1

/-- CLK_REF_CTL.RETURN (18 R460). -/
def State.refReturn (s : State) : State := if s.refState = 2 && s.flag aClkStatus 3 then s.relock 1 else s

/-- CLK_PLL_UNLOCK: PLL i stays in holdover (18 R461). -/
def State.pllUnlock (s : State) (i : Nat) : State :=
  if 49 ≤ i ∨ s.refState = 0 ∨ s.refState = 4 then s
  else
    let s := { s with pwr := { s.pwr with unlocked := smSet (fun _ => false) s.pwr.unlocked i true } }
    (s.raise { src := 0x4D7, idA := i }).count (0x1E0 + i) 2 1

/-! ### Triad frequency (18 R467, 21 R514, R515) -/

/-- VDD_C in mV for the highest STEP of a die. -/
def vddOf (step : Nat) : Nat :=
  if step ≤ 32 then 600 else if step ≤ 48 then 660 else if step ≤ 64 then 720 else if step ≤ 80 then 790
  else if step ≤ 92 then 860 else 950

/-- CLK_TRD_FREQ_n.STEP. -/
def State.freqStep (s : State) (n : Nat) : Nat := s.fld (aClkTrdFreq n) 6 0

/-- Voltage that die d needs: that of the highest STEP among its triads neither OFF nor excluded, else 0.60 V. -/
def State.vddNeed (s : State) (d : Fin 4) : Nat :=
  vddOf (((dieTri d).filter fun n => s.domState n.val ≠ 3 && s.mode n ≠ 0).foldl (fun m n => max m (s.freqStep n.val)) 0)

/-- The voltage requested for die d. -/
def State.vdd (s : State) (d : Fin 4) : Nat := s.pwr.vdd.get d
/-- Request the voltage that die d needs. -/
def State.vddSet (s : State) (d : Fin 4) : State := { s with pwr := { s.pwr with vdd := s.pwr.vdd.set d (s.vddNeed d) } }

/-- CLK_TRD_FREQ_WRITE: a valid write sets BUSY; a rise that needs more voltage first waits for the regulator. -/
def State.freqWrite (s : State) (n : Tri) (v : Word) : State :=
  let new := bits v 6 0
  let old := s.freqStep n.val
  if s.flag (aClkTrdFreq n.val) 63 || decide (new < 8) || decide (104 < new) then s
  else
    let s := (s.setFld (aClkTrdFreq n.val) 6 0 new).setFld (aClkTrdFreq n.val) 63 63 1
    let d := dieOf n
    let rise := decide (old < new) && decide (s.vdd d < s.vddNeed d)
    let s := if rise then s.vddSet d else s
    { s with pwr := { s.pwr with freq := s.pwr.freq ++ [{ tri := n.val, old := old, new := new, avs := rise, lower := false }] } }

/-- A change whose triad stands at a boundary with every record released: the PLL locks, the triad resumes, a lower frequency lowers
the voltage. -/
def State.freqStep1 (s : State) (f : FreqReq) : State :=
  let n := triOf f.tri
  if f.avs || f.lower || !(s.lp n).records.isEmpty || (s.lp n).frozen.isSome then s
  else
    let s := (s.setFld (aClkTrdFreq f.tri) 63 63 0).count (0x1E0 + f.tri) 1 1
    let d := dieOf n
    let rest := s.pwr.freq.erase f
    if f.new < f.old ∧ s.vddNeed d < s.vdd d then
      ({ s with pwr := { s.pwr with freq := rest ++ [{ f with lower := true }] } }).vddSet d
    else { s with pwr := { s.pwr with freq := rest } }
/-- Every change that can go on does. -/
def State.freqSettle (s : State) : State := s.pwr.freq.foldl (fun s f => s.freqStep1 f) s

/-- Requests of die d that wait for the regulator. -/
def State.avsWaiting (s : State) (d : Fin 4) : List FreqReq :=
  s.pwr.freq.filter fun f => (f.avs || f.lower) && dieOf (triOf f.tri) = d

/-- VOLTAGE_WRITE_ACKNOWLEDGE of die d, and its 80 µs of settling (21 R514). -/
def State.avsAck (s : State) (d : Fin 4) : State :=
  let w := s.avsWaiting d
  let keep := s.pwr.freq.filter fun f => !(w.contains f && f.lower)
  { s with pwr := { s.pwr with freq := keep.map fun f => if w.contains f then { f with avs := false } else f } }

/-- AVS_WRITE_TIMEOUT: a rise is abandoned (21 R514). -/
def State.avsTimeout (s : State) (d : Fin 4) : State :=
  let w := s.avsWaiting d
  if w.isEmpty then s
  else
    let s := s.raise { src := 0x4DA, idA := s.vdd d, unit := d.val }
    let s := { s with pwr := { s.pwr with freq := s.pwr.freq.filter fun f => !w.contains f } }
    let s := (w.filter (·.avs)).foldl (fun s f => (s.setFld (aClkTrdFreq f.tri) 6 0 f.old).setFld (aClkTrdFreq f.tri) 63 63 0) s
    s.vddSet d

/-! ### Clock gates (18 R468 to R470) -/

/-- Does a port carry a usable path? -/
def State.portUsed (s : State) (p : Nat) : Bool := s.pathList.any fun e => e.2.2.port = p && e.2.2.pstate = 2

/-- Is the closure of gate b refused (18 R469)? -/
def State.gateRefused (s : State) (b : Nat) : Bool :=
  if b < 8 then !(s.cmpRes b).isEmpty
  else if b < 16 then decide (s.pipe (b - 8) ≠ Pipe.idle)
  else if 20 ≤ b ∧ b < 24 then (List.range 8).any fun i => s.portUsed (8 * (b - 20) + i)
  else if 24 ≤ b ∧ b < 28 then s.mapLinks.any fun m => m / 4 = b - 24
  else false

/-- One gate bit written: opening cancels a deferred closure; a closure that is not refused is deferred until GATE_CLOSURE. -/
def State.gateBit (s : State) (v : Word) (b : Nat) : State :=
  if bit v b then (s.setFld (aClkGate 0) b b 1).setFld (aClkGate 1) b b 0
  else if !s.gateOpen b then s
  else if s.gateRefused b then s.setFld aClkStatus 7 7 1
  else (s.setFld (aClkGate 0) b b 0).setFld (aClkGate 1) b b 1

/-- CLK_GATE_WRITE. -/
def State.gateWrite (s : State) (v : Word) : State :=
  ((List.range 33).filter fun b => !(17 ≤ b && b ≤ 19)).foldl (fun s b => s.gateBit v b) s

/-- Every device access of the LPs that goes to a root port of which `on` holds ends: a load with `data`, a store with `fail`, a posted write
with the source `late`. -/
def State.endAccesses (s : State) (on : Nat × Nat → Bool) (data : Option Word) (fail : Tri → Option (Nat × Nat)) (late : Option Nat) : State :=
  let on := fun (q : DevReq) => (s.devClaimedBy q.addr).any on
  allTri.foldl (fun s t =>
    let l := s.lp t
    let s := match l.devReq with | some q => if on q then s.loadEnd t q data (srcTriad t 15) else s | none => s
    let s := match l.stReq with | some q => if on q then s.storeEnd t q (fail t) else s | none => s
    (l.posted.filter on).foldl (fun s q => match (s.lp t).posted.findIdx? (· = q) with
      | some i => s.postedEnd t i late
      | none => s) s) s

/-- GATE_CLOSURE: the deferred closure of gate b ends, its port idle, or forced with an access of partition p dropped: a pending read
returns zeros and a pending write is dropped. -/
def State.gateClosure (s : State) (b : Nat) (forced : Option Nat) : State :=
  if b < 33 && s.flag (aClkGate 1) b then
    let s := s.setFld (aClkGate 1) b b 0
    match forced with
    | none => s
    | some p =>
      let s := if 28 ≤ b ∧ b < 32 then s.endAccesses (fun r => r.1 = b - 28) (some 0) (fun _ => none) none else s
      s.raise { src := 0x4D8, idA := b, part := p }
  else s

/-! ### Power domains (18 R471 to R473) -/

/-- The counters of unit u restart (20 R503). -/
def State.cntRestart (s : State) (u : Nat) : State :=
  { s with cnt := { s.cnt with live := s.cnt.live.filter fun e => e.1 / 16 ≠ u
                               restart := smSet (fun _ => false) s.cnt.restart u true } }

/-- Deepest auto state of the kind of domain d; 0 for none. -/
def autoMax (d : Nat) : Nat := if d < 32 then 2 else if 44 ≤ d ∧ d < 48 then 3 else if d = 60 then 3 else 0
/-- Does no unit of an engine group hold a request? -/
def State.groupIdle (s : State) (d : Nat) : Bool :=
  if d < 46 then (List.range 4).all fun i => (s.cmpRes (4 * (d - 44) + i)).isEmpty
  else (List.range 4).all fun i => s.pipe (4 * (d - 46) + i) = Pipe.idle

/-- Is command OFF accepted for domain d (18 R473)? -/
def State.offOk (s : State) (d : Nat) : Bool :=
  if d < 32 then s.mode (triOf d) = 0 || s.mode (triOf d) = 6
  else if d < 40 then false
  else if d < 44 then (dieTri ⟨d % 4, by omega⟩).all fun n => s.domState n.val = 3
  else if d < 48 then true
  else if d < 52 then (List.range 8).all fun i => !s.portUsed (8 * (d - 48) + i)
  else if d < 56 then s.mapLinks.all fun m => m / 4 ≠ d - 52
  else decide (d < 62)

/-- Every line of an L3 is cleaned and invalidated. -/
def State.flushL3 (s : State) (d : Fin 4) : State :=
  ((s.l3Of d).ways.map (·.1)).foldl (fun s k => s.l3Evict d k) s |>.updL3 d fun _ => Cache.reset

/-- A triad that has lost everything: its voted state is zero (18 R473). -/
def Lp.lost (l : Lp) : Lp :=
  { Lp.reset with arch := archOfItems fun _ => 0, voted := archOfItems fun _ => 0, released := l.released }

/-- The link of a root port goes down: reads pending on it end with Unsupported Request, writes are dropped (12 R341, 09 R252). -/
def State.linkDown (s : State) (n r : Nat) : State :=
  (s.rootDown n r).endAccesses (· = (n, r)) none (fun t => some (2, srcTriad t 15)) (some 0x4C7)

/-- What OFF does to the units of a domain. -/
def State.domOff (s : State) (d : Nat) : State :=
  if d < 32 then
    let n := triOf d
    let s := ((s.flushL2 n).updLp n Lp.lost).setDom d 3
    ((s.cntRestart d).cntRestart (0x20 + d)).vddSet (dieOf n)
  else if d < 44 then ((s.flushL3 ⟨d % 4, by omega⟩).setDom d 3)
  else if d < 48 then (if s.groupIdle d then s.setDom d 3 else s)
  else if d < 52 then (List.range 8).foldl (fun s i => s.portDown (8 * (d - 48) + i) 0) (s.setDom d 3)
  else if d < 56 then (List.range 4).foldl (fun s i => s.setReg (aMemLinkStatus (4 * (d - 52) + i)) 0) (s.setDom d 3)
  else if d < 60 then (List.range 4).foldl (fun s r => s.linkDown (d - 56) r) (s.setDom d 3)
  else if d = 61 then
    let s := s.setDom d 3
    ({ s with cph := { s.cph with drbg := [] } }).setFld aRngStatus 0 0 0
  else s.setDom d 3

/-- A link of a root port trains again; whether it succeeds is the environment's (log entry 10). -/
def State.rootTrain (s : State) (n r : Nat) : State :=
  let (k, s) := s.draw
  if s.rootOk n r && Config.selfTest k then { s with pci := { s.pci with up := s.pci.up ||| 2 ^ (4 * n + r) } } else s

/-- What a return to ON does; `failed` are cores of a triad that fail their self-test. -/
def State.domOn (s : State) (d : Nat) (failed : List Nat) : State :=
  let s := s.setDom d 0
  if d < 32 then (s.reform (triOf d) failed).vddSet (dieOf (triOf d))
  else if 48 ≤ d ∧ d < 52 then (List.range 8).foldl (fun s i => s.setPortState (8 * (d - 48) + i) 1) s
  else if 56 ≤ d ∧ d < 60 then (List.range 4).foldl (fun s r => s.rootTrain (d - 56) r) s
  else if d = 61 then s.rngRetest
  else s

/-- A write of PWR_DOM_d (18 R473, R476): LIMIT, the W1C REFUSED, and a command. -/
def State.domWrite (s : State) (d : Nat) (v : Word) (failed : List Nat) : State :=
  let a := aPwrDom d
  let s := if bit v 62 then s.setFld a 62 62 0 else s
  let s := s.setFld a 5 4 (bits v 5 4)
  let was := s.flag a 63
  if bit v 63 && !was then
    if s.offOk d then (s.setFld a 63 63 1).domOff d else s.setFld a 62 62 1
  else if !bit v 63 && was then
    if 32 ≤ d ∧ d < 40 then s.setFld a 62 62 1 else (s.setFld a 63 63 0).domOn d failed
  else if autoMax d ≠ 0 ∧ min (bits v 5 4) (autoMax d) < s.domState d then s.wakeDom d
  else s

/-- Groups commanded OFF go OFF once no unit holds a request; staging follows the engine groups (18 R473). -/
def State.domSettle (s : State) : State :=
  let s := [44, 45, 46, 47].foldl (fun s d =>
    if s.flag (aPwrDom d) 63 && s.domState d ≠ 3 && s.groupIdle d then s.setDom d 3 else s) s
  let want := if [44, 45, 46, 47].all fun d => s.domState d = 3 then 3 else 0
  if s.domState 62 = want then s else s.setDom 62 want

/-- PWR_DOMAIN_FAIL: the units of domain d count as absent (18 R473). -/
def State.domFail (s : State) (d : Nat) : State :=
  if s.domState d ≠ 0 || !s.domUsable d then s
  else
    let s := s.raise { src := 0x4D9, idA := d }
    let s := { s with pwr := { s.pwr with absent := smSet (fun _ => false) s.pwr.absent d true } }
    let s := s.domOff d
    if d < 32 then (s.setMode (triOf d) 0).updLp (triOf d) fun l => { l with released := false }
    else if d < 40 then s.setSpare (triOf (8 * ((d - 32) / 2))) ((d - 32) % 2) 3
    else s

/-! ### Idle selection (18 R474, R475) -/

/-- Break-even plus exit latency of auto state st in hundredths of a microsecond. -/
def idleCost (d st : Nat) : Nat :=
  if st = 1 then 30 else if st = 2 then (if 44 ≤ d then 2300 else 1200) else 102000
/-- Exit latency in TOD units, rounded up. -/
def exitTod (d st : Nat) : Nat := if st = 1 then 13 else if st = 2 then (if 44 ≤ d then 768 else 512) else 5120

/-- Is a completion interrupt or a Span event interrupt to LP n due at the next boundary (11 R305, 12 R324)? -/
def State.postDue (s : State) (n : Tri) : Bool :=
  (s.ringList.any fun e => e.2.intPend && e.2.intEn && e.2.target = n.val)
    || (s.spn.evWritten && s.flag aSpnEvqCtl 62 && s.fld aSpnEvqCtl 57 53 = n.val)

/-- TOD of the next known event of domain d. -/
def State.nextKnown (s : State) (d : Nat) : Option Nat :=
  if 32 ≤ d then none
  else
    let cs := ((List.range 8).filter fun k => s.flag (aClkTodcmpCfg k) 63 && s.fld (aClkTodcmpCfg k) 12 8 = d).map fun k =>
      (s.reg (aClkTodcmpVal k)).toNat
    let cs := if s.postDue (triOf d) then ((s.reg aHubTickLastTod).toNat + s.tick.period) :: cs else cs
    cs.min?

/-- Is domain d eligible for an auto state (18 R473, R476)? -/
def State.idleOk (s : State) (d : Nat) : Bool :=
  let on := s.domState d = 0 && s.domUsable d
  if d < 32 then
    let n := triOf d
    on && (s.lp n).waiting && (s.mode n = 1 || s.mode n = 4) && !s.halted n && (s.nextEvent n).isNone
  else if 44 ≤ d ∧ d < 48 then on && s.groupIdle d
  else d = 60 && on && !s.flag aDbgStatus 0

/-- IDLE_ENTRY: the deepest auto state, no deeper than LIMIT, that fits before the next known event. -/
def State.idleEntry (s : State) (d : Nat) : State :=
  if !s.idleOk d then s
  else
    let ev := s.nextKnown d
    let fits := fun st => match ev with
      | none => true
      | some t => decide (256 * idleCost d st + 100 * s.fld aPwrIdleCfg 15 0 ≤ 100 * (t - s.tod))
    let lim := s.fld (aPwrDom d) 5 4
    let states := if d < 32 then [2, 1] else if d < 60 then [3, 2, 1] else [3]
    match states.find? fun st => decide (st ≤ lim) && fits st with
    | none => s
    | some st =>
      let s := s.setDom d st
      let s := { s with pwr := { s.pwr with wake := smSet (fun _ => none) s.pwr.wake d (ev.map fun t => t - exitTod d st) } }
      -- a domain that was OFF keeps nothing: its counters restart (20 R503)
      if st = 3 ∧ d < 48 then (List.range 4).foldl (fun s i => s.cntRestart (if d < 46 then 0x1C0 + 4 * (d - 44) + i else 0x1C8 + 4 * (d - 46) + i)) s
      else s

/-- IDLE_EXIT: for the known event, or for any event that needs the domain. -/
def State.idleExit (s : State) (d : Nat) : State := if autoMax d = 0 then s else s.wakeDom d

/-! ### TOD comparators (18 R477) -/

/-- TOD_COMPARATOR_FIRE of comparator k. -/
def State.cmpFire (s : State) (k : Nat) : State :=
  let a := aClkTodcmpCfg k
  if k < 8 && s.flag a 63 && decide ((s.reg (aClkTodcmpVal k)).toNat ≤ s.tod) && s.pwr.todRun then
    ((s.setFld a 63 63 0).setFld a 62 62 1).post (triOf (s.fld a 12 8)) (s.fld a 7 0)
  else s

/-- A write of CLK_TODCMP_CFG_k: VECTOR below 48 leaves the field; EN with VAL at or below TOD fires at once. -/
def State.cmpCfgWrite (s : State) (k : Nat) (v : Word) : State :=
  let a := aClkTodcmpCfg k
  let s := if bit v 62 then s.setFld a 62 62 0 else s
  let s := (s.setFld a 63 63 (b2n (bit v 63))).setFld a 12 8 (bits v 12 8)
  let s := if bits v 7 0 < 48 then s else s.setFld a 7 0 (bits v 7 0)
  if bit v 63 then s.cmpFire k else s

/-! ### Temperatures and rails (21 R522 to R528) -/

/-- A sensor's reading as a number. -/
def temp (b : Byte) : Int := b.toInt
/-- Hottest of a list of readings. -/
def hottest (l : List Byte) : Byte := l.foldl (fun m b => if temp m < temp b then b else m) 0x80
/-- Readings of die d, 8 each, then of the hub, 4 (21 R522). -/
def sensorsOf (rs : List Byte) (d : Nat) : List Byte := ((rs.drop (8 * d)).take (if d < 4 then 8 else 4))
/-- Reported temperature: a die whose domain is unpowered reports 0x80. -/
def State.dieTemp (s : State) (rs : List Byte) (d : Nat) : Byte :=
  if d < 4 ∧ s.domState (40 + d) = 3 then 0x80 else hottest (sensorsOf rs d)

/-- The sensors are read: PWR_THERM_STATUS, THERM_WARN (21 R522 to R524). -/
def State.sensorRead (s : State) (rs : List Byte) : State :=
  let t := fun d => s.dieTemp rs d
  let mx := hottest ((List.range 5).map t)
  let hot := ((List.range 5).find? fun d => t d = mx).getD 4
  let s := s.setReg aPwrThermStatus (w64 ((t 4).toNat * 2 ^ 40 + (t 3).toNat * 2 ^ 32 + (t 2).toNat * 2 ^ 24 + (t 1).toNat * 2 ^ 16
    + (t 0).toNat * 2 ^ 8 + mx.toNat))
  let warn : Int := s.fld aPwrThermCfg 7 0
  if s.therm.armed && decide (warn ≤ temp mx) then
    ({ s with therm := { s.therm with armed := false, warn := true } }).raise { src := 0x4E5, idA := mx.toNat, unit := hot }
  else if !s.therm.armed && decide (temp mx + 5 ≤ warn) then { s with therm := { s.therm with armed := true, warn := false } }
  else s

/-- The first sensor at or above a limit: die (4 for the hub), sensor, reading. -/
def State.overTemp (s : State) (rs : List Byte) (limit : Int) : Option (Nat × Nat × Byte) :=
  (List.range 5).findSome? fun d =>
    if d < 4 ∧ s.domState (40 + d) = 3 then none
    else (((List.range 8).zip (sensorsOf rs d)).find? fun e => decide (limit ≤ temp e.2)).map fun e => (d, e.1, e.2)

/-- I2C_READ: the byte that a command code answers (21 R523). -/
def State.i2cByte (s : State) (code : Nat) : Nat :=
  let r := s.reg aPwrThermStatus
  if code = 0 then bits r 7 0
  else if code ≤ 4 then bits r (8 * code + 7) (8 * code)
  else if code = 5 then bits r 47 40
  else if code = 0x10 then b2n s.therm.trip + 2 * b2n s.therm.warn
  else 0xFF

/-- PWR_RAIL_UV (21 R528). -/
def State.railUv (s : State) (rail voltage : Nat) : State :=
  if s.kst.pwrok then s.raise { src := 0x4E4, idA := rail, idB := voltage } else s

end Sys2Proof.Machine
end

