-- ==== Sys2Proof/Machine/Fcu.lean ====
section
/-! DEFINITION. The fault collector's classes and log (17 R441 to R452): acceptance of an event with escalation, acknowledgement,
quiet intervals. The reactions are performed in Collector.lean. -/

namespace Sys2Proof.Machine
open Sys2Proof

/-- May a reaction go to the LP of triad n (17 R443)? -/
def State.fcuAble (s : State) (n : Tri) : Bool := decide (1 ≤ s.mode n) && decide (s.mode n ≤ 4) && !s.held n

/-- Triad TARGET_LP of class k. -/
def State.fcuTargetLp (s : State) (k : Nat) : Tri := triOf (s.fld (aFcuClassCfg k) 28 24)

/-- The triad that a reaction of class k goes to, if one qualifies (17 R443). -/
def State.fcuTarget (s : State) (k : Nat) : Option Tri :=
  if s.fcuAble (s.fcuTargetLp k) then some (s.fcuTargetLp k) else allTri.find? s.fcuAble

/-- First source number of the block that owns source i (17 R439, R444). -/
def blockBase (i : Nat) : Nat :=
  if i < 0x200 then i / 16 * 16
  else if i < 0x240 then (if i % 16 < 4 then i / 16 * 16 else i)
  else if i < 0x4C0 then i / 8 * 8
  else 0x4C0

/-- Is the reaction of a source held: a save, a start, a chip reset to come, or a block in block reset (10 R272, 17 R444, R445, 19
R499)? -/
def State.fcuHeld (s : State) (src : Nat) : Bool :=
  s.save.phase ≠ .none || s.kst.phase ≠ .released || s.fcu.errHold || s.fcu.resetting.contains (blockBase src)

/-- Level of an event before the conversion of R443. -/
def State.fcuLevel (s : State) (k sel : Nat) : Nat :=
  let a := aFcuClassStat k
  if s.flag a 2 && s.flag a 0 then max sel (min (s.fld a 4 3 + 1) (s.fld (aFcuClassCfg k) 41 40)) else sel

/-- An event is written to the log (17 R452). -/
def State.fcuLog (s : State) (f : FaultInfo) (k lvl : Nat) (esc err held : Bool) : State :=
  let e := s.fld aFcuLogHead 31 0
  let x : LogEnt := { seq := e, src := f.src, cls := k, level := lvl, esc := esc, err := err, held := held, tod := s.tod, info := f }
  let s := s.setReg aFcuLogHead (w64 ((e + 1) % 2 ^ 32))
  { s with fcu := { s.fcu with log := smSet (fun _ => none) s.fcu.log (e % 256) (some x) } }

/-- The quiet interval of class k restarts (17 R448). -/
def State.fcuQuiet (s : State) (k : Nat) : State :=
  let i := Ival.start (s.fld (aFcuClassCfg k) 63 48)
  { s with fcu := { s.fcu with quiet := smSet (fun _ => none) s.fcu.quiet k (some i) } }

/-- An event of a class that is in no fault state makes it ACTIVE; every event updates UNACK, LAST_SRC, EVENTS and ERR (17 R446). -/
def State.fcuMark (s : State) (src k : Nat) (err : Bool) : State :=
  let a := aFcuClassStat k
  let s := if s.flag a 2 then s else ((s.setFld a 2 2 1).setFld a 4 3 0).setFld a 20 10 src
  let s := ((s.setFld a 0 0 1).setFld a 31 21 src).addSat a 47 32 1
  if err then s.setFld a 1 1 1 else s

/-- A raise within 8 hub cycles of an accepted one of its source is counted, and nothing else (17 R441). -/
def State.fcuMerge (s : State) (f : FaultInfo) : State := (s.addSat (aFcuSrcCfg f.src) 63 48 1).count 0x1D3 2 1

/-- One raised event is accepted (17 R441, R446). The answer is its class and the level to perform, if one is. -/
def State.fcuAccept (s : State) (f : FaultInfo) : State × Option (Nat × Nat) :=
  match srcClass f.src with
  | none => (s, none)
  | some k =>
    let c := aFcuSrcCfg f.src
    let s := ((s.addSat c 63 48 1).setFld c 3 3 1).count 0x1D3 1 1
    let sel := s.fld c 1 0
    let lvl := s.fcuLevel k sel
    let esc := decide (sel < lvl)
    let lvl := if lvl = 1 ∧ (s.fcuTarget k).isNone then 3 else lvl
    let held := s.fcuHeld f.src
    let err := s.flag c 2
    let s := (s.fcuMark f.src k err).fcuQuiet k
    let s := s.fcuLog f k lvl esc (err || (!held && lvl = 3)) held
    if held then (s, none)
    else (s.setFld (aFcuClassStat k) 4 3 (max (s.fld (aFcuClassStat k) 4 3) lvl), some (k, lvl))

/-- Software acknowledges class k (17 R447). -/
def State.fcuAck (s : State) (k : Nat) : State := (s.setFld (aFcuClassStat k) 0 0 0).setFld (aFcuClassStat k) 1 1 0

/-- The quiet interval of class k expires (17 R448). -/
def State.fcuExpire (s : State) (k : Nat) : State :=
  let a := aFcuClassStat k
  let s := ((s.setFld a 2 0 0).setFld a 4 3 0).addSat a 63 48 1
  { s with fcu := { s.fcu with quiet := smSet (fun _ => none) s.fcu.quiet k none } }

/-- The quiet intervals at a boundary (17 R448, 01 R30 action 2). -/
def State.quietTick (s : State) : State :=
  (List.range 16).foldl (fun s k =>
    match smGet (fun _ => none) s.fcu.quiet k with
    | none => s
    | some i =>
      match i.tick s.tod s.tick.period with
      | none => s.fcuExpire k
      | some j => { s with fcu := { s.fcu with quiet := smSet (fun _ => none) s.fcu.quiet k (some j) } }) s

/-- Would the quiet interval of class k expire at a boundary at this TOD? -/
def State.quietDue (s : State) (k tod : Nat) : Bool :=
  match smGet (fun _ => none) s.fcu.quiet k with | some i => i.ends tod | none => false

/-- A write of FCU_CLASS_CFG_k: QUIET 0 and a VECTOR below 48 leave their field. -/
def State.classCfgWrite (s : State) (k : Nat) (v : Word) : State :=
  let a := aFcuClassCfg k
  let s := if bits v 63 48 = 0 then s else s.setFld a 63 48 (bits v 63 48)
  let s := if bits v 39 32 < 48 then s else s.setFld a 39 32 (bits v 39 32)
  (s.setFld a 41 40 (bits v 41 40)).setFld a 28 24 (bits v 28 24)

end Sys2Proof.Machine
end

