-- ==== Sys2Proof/Machine/Journal.lean ====
section
/-! DEFINITION. The start journal and its copies in boot flash (19 R489, R490), and what KST_CTL orders (19 R486, R487). The
journal's register fields are the registers themselves: a write to one updates the journal in the same cycle. -/

namespace Sys2Proof.Machine
open Sys2Proof

/-- Fields of the register at a that the journal holds, as a mask. -/
def jrMask (a : Nat) : Nat := match regDesc a with | some d => d.jr | none => 0

/-- The journal's register fields: registers that differ from their reset value in such a field. -/
def State.jrnlFields (s : State) : SMap Word :=
  s.ctl.filterMap fun e =>
    let m := jrMask e.1
    if m ≠ 0 ∧ e.2.toNat &&& m ≠ (ctlReset e.1).toNat &&& m then some (e.1, w64 (e.2.toNat &&& m)) else none

/-- The newer valid flash copy, and whether it is copy B. -/
def Kst.newest (k : Kst) : Option (FlashCopy × Bool) :=
  match k.flashA, k.flashB with
  | some a, some b => if a.gen < b.gen then some (b, true) else some (a, false)
  | some a, none => some (a, false)
  | none, some b => some (b, true)
  | none, none => none

/-- A flash write of the journal, with the next generation, to the copy whose turn it is (19 R490). -/
def State.flashWrite (s : State) : State :=
  let s := s.setReg aKstJrnlGen (w64 ((s.fld aKstJrnlGen 31 0 + 1) % 2 ^ 32))
  let c : FlashCopy := { gen := s.fld aKstJrnlGen 31 0, fields := s.jrnlFields, rest := s.kst.rest }
  { s with kst := if s.kst.nextB then { s.kst with flashB := some c, nextB := false } else { s.kst with flashA := some c, nextB := true } }

/-- Does the journal differ from its newest flash copy? -/
def State.jrnlChanged (s : State) : Bool :=
  match s.kst.newest with
  | some (c, _) => decide (c.fields ≠ s.jrnlFields) || decide (c.rest ≠ s.kst.rest)
  | none => true

/-- JOURNAL_FLASH_WRITE: a change reaches the flash (19 R490). Always-on logic does it in every phase but before the first start. -/
def State.jrnlFlash (s : State) : State := if s.kst.aon && s.jrnlChanged then s.flashWrite else s

/-- CLEAR_ATTEMPTS (19 R487). -/
def State.clearAttempts (s : State) : State := (List.range 20).foldl (fun s i => s.setFld (aKstStep (i + 1)) 1 0 0) s

/-- RETRY_OPT (19 R486). -/
def State.retryOpt (s : State) : State := { s with kst := { s.kst with rest := { s.kst.rest with retryOpt := true } } }

/-- A write of KST_CTL. -/
def State.kstCtlWrite (s : State) (v : Word) : State :=
  let s := if bit v 2 then s.clearAttempts else s
  let s := if bit v 1 then s.retryOpt else s
  if bit v 0 then s.flashWrite else s

end Sys2Proof.Machine
end

