-- ==== Sys2Proof/Machine/CtlWrite.lean ====
section
/-! DEFINITION. Writing a control-space register (01 R18 step 5): the access codes of 00 R6, and the registers whose write does more
or is conditional. -/

namespace Sys2Proof.Machine
open Sys2Proof

/-- A register after a write of v, by the access codes (00 R6). -/
def regAfter (d : RegDesc) (old v : Word) : Word :=
  let o := old.toNat
  let n := v.toNat
  let all := 2 ^ 64 - 1
  w64 ((o &&& (all - (d.rw ||| d.w1c))) ||| (n &&& d.rw) ||| (o &&& d.w1c &&& (all - n % 2 ^ 64)) ||| (n &&& d.w1s))

/-- The plain write. -/
def State.plainWrite (s : State) (a : Nat) (d : RegDesc) (v : Word) : State := s.setReg a (regAfter d (s.reg a) v)

/-- The plain write of v with field [h:l] kept as it stands if v's is not allowed. -/
def State.keepWrite (s : State) (a : Nat) (d : RegDesc) (h l : Nat) (ok : Nat → Bool) (v : Word) : State :=
  s.plainWrite a d (if ok (bits v h l) then v else putBits v h l (s.fld a h l))

/-! ### Tick (01 R26) -/

/-- A write of HUB_TICK_PERIOD. -/
def State.tickPeriodWrite (s : State) (v : Word) : State :=
  let p := bits v 15 0
  if 0x0500 ≤ p ∧ p ≤ 0xC800 then s.setReg aHubTickPeriod (w64 p) else s.setFld aHubTickStatus 1 1 1

/-- A write of HUB_TICK_CFG. An edge accepted in follow mode sets no boundary once MODE is free-running: DESIGN CHOICE, 01 R28 and R35
leave it open (log entry 33). -/
def State.tickCfgWrite (s : State) (a : Nat) (d : RegDesc) (v : Word) : State :=
  let s := s.keepWrite a d 1 0 (fun x => decide (x < 2)) v
  if s.fld aHubTickCfg 1 0 = 1 then s else { (s.setFld aHubTickStatus 0 0 0) with tick := { s.tick with edge := none } }

/-! ### Triad window -/

/-- Cores among a list that fail a self-test the module makes by itself (log entry 10). -/
def State.drawFailed (s : State) (cores : List Nat) : State × List Nat :=
  cores.foldl (fun st c => let (k, s) := st.1.draw; (s, if Config.selfTest k then st.2 else st.2 ++ [c])) (s, [])

/-- The cores a re-forming of triad n may use. -/
def State.candidates (s : State) (n : Tri) : List Nat := (s.ownCores n ++ [24, 25]).eraseDups

/-- A write of TRD_CTL (06 R173). -/
def State.trdCtlWrite (s : State) (n : Tri) (v : Word) : State :=
  let s := if bit v 0 && s.mode n = 5 then
      let (s, bad) := s.drawFailed (s.candidates n); s.recover n bad
    else s
  if bit v 1 then s.start n else s

/-- A flush of predictors is ordered (04 R117, R118). -/
def State.flushOrder (s : State) (n : Tri) (near shared : Bool) : State :=
  if near || shared then
    (s.setFld (aTrdPredCtl n) 2 2 1).updLp n fun l => { l with flushNear := l.flushNear || near, flushShared := l.flushShared || shared }
  else s

/-- A write of TRD_INT_PEND k: vectors 0 to 33 are not posted by software (05 R125). -/
def State.intPendWrite (s : State) (n : Tri) (k : Nat) (v : Word) : State :=
  let v := if k = 0 then v.toNat / 2 ^ 34 * 2 ^ 34 else v.toNat
  s.setReg (aTrdIntPend n k) (w64 ((s.reg (aTrdIntPend n k)).toNat ||| v))

/-- A write of TRD_L2_LOCK (07 R194). -/
def State.l2LockWrite (s : State) (n : Tri) (v : Word) : State :=
  if 8 < ((List.range 16).filter (bit v)).length then s.setFld (aTrdL2Status n) 3 3 1
  else s.setReg (aTrdL2Lock n) (w64 (v.toNat % 2 ^ 17))

/-- A write in the window of triad n. -/
def State.trdWrite (s : State) (n : Tri) (off a : Nat) (d : RegDesc) (v : Word) : State :=
  if off = 0x8 then s.trdCtlWrite n v
  else if off = 0x88 then s.vsWrite n v
  else if off = 0x400 then s.flushOrder n (bit v 0) (bit v 1)
  else if inFam off 0x500 4 8 then s.intPendWrite n ((off - 0x500) / 8) v
  else if off = 0x600 then s.l2LockWrite n v
  else s.plainWrite a d v

/-! ### The other windows -/

/-- A write in the hub's window. -/
def State.hubWinWrite (s : State) (off a : Nat) (d : RegDesc) (v : Word) : State :=
  if off = 0x100 then s.tickPeriodWrite v
  else if off = 0x108 then s.tickCfgWrite a d v
  else if off = 0x310 then s.keepWrite a d 7 0 (fun x => decide (x ≠ 0)) v
  else if inFam off 0x1008 32 8 then
    let s := s.plainWrite a d v
    if bit v 63 then s.undefer ((off - 0x1000) / 8) else s
  else if inFam off 0x2008 32 8 then s.partCfgWrite ((off - 0x2000) / 8) v
  else if inFam off 0x2208 32 8 then s.partL3qWrite ((off - 0x2200) / 8) v
  else if inFam off 0x2408 32 8 then s.partResWrite ((off - 0x2400) / 8) v
  else s.plainWrite a d v

/-- A write of PWR_DOM_d; cores of a triad that returns draw their self-tests. -/
def State.pwrDomWrite (s : State) (d : Nat) (v : Word) : State :=
  if d < 32 ∧ s.flag (aPwrDom d) 63 ∧ ¬ bit v 63 then
    let (s, bad) := s.drawFailed (s.candidates (triOf d)); s.domWrite d v bad
  else s.domWrite d v []

/-- A write in the window of clocks and power. -/
def State.clkWrite (s : State) (off a : Nat) (d : RegDesc) (v : Word) : State :=
  if off = 0x8 then (if bit v 0 then s.refReturn else s)
  else if off = 0x20 then s.gateWrite v
  else if inFam off 0x108 8 16 then s.cmpCfgWrite ((off - 0x108) / 16) v
  else if inFam off 0x200 32 8 then s.freqWrite (triOf ((off - 0x200) / 8)) v
  else if inFam off 0x1100 64 8 then s.pwrDomWrite ((off - 0x1100) / 8) v
  else if off = 0x1408 then s.keepWrite a d 7 0 (fun x => decide (60 ≤ x) && decide (x ≤ 110)) v
  else s.plainWrite a d v

/-- A write in the window of fault collection. -/
def State.fcuWrite (s : State) (off a : Nat) (d : RegDesc) (v : Word) : State :=
  if inFam off 0x100 16 8 then s.classCfgWrite ((off - 0x100) / 8) v
  else if inFam off 0x200 16 8 then (if bit v 0 then s.fcuAck ((off - 0x200) / 8) else s)
  else s.plainWrite a d v

/-- A write in the window of the channel subsystem. -/
def State.cssWrite (s : State) (off a : Nat) (d : RegDesc) (v : Word) : State :=
  if off = 0x108 then s.cssRcmdWrite v
  else if inFam off 0x1008 32 8 then s.cssJrnlWrite ((off - 0x1000) / 8) v
  else if inFam off 0x10000 1024 8 then s.cssDblWrite ((off - 0x10000) / 8) v
  else s.plainWrite a d v

/-- A write in the window of the Span ports. -/
def State.spnWrite (s : State) (off a : Nat) (d : RegDesc) (v : Word) : State :=
  if off = 0x8 then s.keepWrite a d 7 0 (fun x => decide (x ≠ 0)) v
  else if off = 0x100 then s.spnScmdWrite v
  else if off = 0x118 then s.keepWrite a d 52 45 (fun x => decide (48 ≤ x)) v
  else s.plainWrite a d v

/-- A write in the window of PCIe. -/
def State.pciWrite (s : State) (off a : Nat) (d : RegDesc) (v : Word) : State :=
  if inFam off 0x0 4 8 then
    let v := if bits v 9 8 = 3 then putBits v 9 8 (s.fld a 9 8) else v
    s.keepWrite a d 2 0 (fun x => decide (1 ≤ x) && decide (x ≤ 6)) v
  else if inFam off 0x100 4 8 then
    let s := s.plainWrite a d v
    if bit v 0 then s.ridInv ((off - 0x100) / 8) else s
  else if off = 0x200 then s.pciCfgAddrWrite v
  else if off = 0x208 then s.pciCfgDataWrite v
  else s.plainWrite a d v

/-- A write in the window of the cipher pipelines. -/
def State.cphWrite (s : State) (off a : Nat) (d : RegDesc) (v : Word) : State :=
  if off = 0x108 then s.kcmdWrite v
  else if inFam off 0x1008 32 8 then s.krangeWrite ((off - 0x1000) / 8) v
  else s.plainWrite a d v

/-! ### The write -/

/-- A write that reaches its block. -/
def State.blockWrite (s : State) (a : Nat) (d : RegDesc) (v : Word) : State :=
  let i := (a - ctlSpace) / 0x100000000
  let off := (a - ctlSpace) % 0x100000000
  if i = 0x0 then s.hubWinWrite off a d v
  else if i = 0x1 then s.clkWrite off a d v
  else if i = 0x2 then s.fcuWrite off a d v
  else if i = 0x3 then (if off = 0x18 then s.kstCtlWrite v else s.plainWrite a d v)
  else if i = 0x10 then s.cssWrite off a d v
  else if i = 0x11 then s.spnWrite off a d v
  else if i = 0x12 then s.pciWrite off a d v
  else if i = 0x19 then s.cphWrite off a d v
  else if i = 0x1A then (if off = 0 && bit v 0 then s.rngRetest else s)
  else if 0x20 ≤ i ∧ i < 0x40 then s.trdWrite (triOf (i - 0x20)) off a d v
  else s.plainWrite a d v

/-- A write of the control-space register at a by a requester of partition 0: one to a block whose gate is closed, or that is OFF,
is dropped (18 R469, R471). -/
def State.ctlWrite (s : State) (a : Nat) (v : Word) : State :=
  match regDesc a with
  | none => s.count 0x1D4 3 1
  | some d =>
    let s := s.count 0x1D4 1 1
    if s.winShut a then s.count 0x1D4 2 1 else s.blockWrite a d v

/-- A write by a requester of some partition, with the checks of 01 R18. -/
def State.regWrite (s : State) (part addr size : Nat) (v : Word) : State :=
  if size ≠ 8 ∨ addr % 8 ≠ 0 then s.count 0x1D4 3 1
  else if part ≠ 0 then (s.count 0x1D4 3 1).raise { src := 0x4C0, info0 := addr, part := part }
  else s.ctlWrite addr v

end Sys2Proof.Machine
end

