-- ==== Sys2Proof/Machine/Stores.lean ====
section
/-! DEFINITION. Stores that are performed (09 R233 to R235, R245, R246, R250), answers of devices and their timeouts (09 R251, R252). -/

namespace Sys2Proof.Machine
open Sys2Proof

/-- Bytes laid over those of a combining line. -/
def mergeBytes (old new : List (Nat × Byte)) : List (Nat × Byte) := old.filter (fun o => !(new.any fun b => b.1 = o.1)) ++ new

/-- A non-temporal store merges into its combining line, or takes a free one (09 R245, R246). -/
def State.combine (s : State) (n : Tri) (st : Store) : State :=
  let line := st.addr / 128
  let s := if (s.lp n).comb.any (·.line = line) || (s.lp n).comb.length < 16 then s
    else match (s.lp n).comb.head? with
      | some c => s.drainComb n c.line
      | none => s
  let s := if (s.lp n).comb.any (·.line = line) then s
    else s.updLp n fun l => { l with comb := l.comb ++ [{ line := line, bytes := [] }] }
  let s := s.updLp n fun l => { l with comb := l.comb.map fun c =>
    if c.line = line then { c with bytes := mergeBytes c.bytes st.bytes, parts := c.parts ||| 2 ^ st.part } else c }
  match (s.lp n).comb.find? fun c => c.line = line with
  | some c => if c.bytes.length = 128 then s.drainComb n line else s
  | none => s

/-- A cacheable store reaches the L2; one to memory behind a FAILED link is dropped (09 R531). -/
def State.storeCache (s : State) (n : Tri) (st : Store) : State :=
  let lines := (st.bytes.map fun b => b.1 / 128).eraseDups
  let s := lines.foldl (fun s line => s.drainComb n line) s
  if st.bytes.all fun b => s.memOk b.1 then s.l2Store n st.part st.bytes st.pers else s.asError n 2 st.addr

/-- Do the store buffers of the module work now? -/
def State.storesRun (s : State) : Bool := s.fld aClkStatus 2 0 ≠ 4 && !s.therm.stopped

/-- The request that a device or control-space store makes. -/
def Store.req (st : Store) : DevReq := { addr := st.addr, size := st.bytes.length, slot := 0, part := st.part, due := none }

/-- The value a store to a register carries. -/
def Store.word (st : Store) : Word := w64 (leNat (st.bytes.map (·.2)))

/-! ### HUB_ORDER_MODE (09 R238) -/

/-- Does LP m run on with a mode that the register no longer gives it? A halted, checkstopped or powered-off LP applies it before it issues
a bundle, and the storing LP when its own bundle waits for the store. -/
def State.orderLags (s : State) (n m : Tri) : Bool :=
  let l := s.lp m
  let p := if l.arch.pl = plM then 0 else bits l.arch.part 5 0
  l.released && !s.halted m && !s.checkstopped m && s.fld (aPwrDom m.val) 1 0 = 0
    && l.orderMode.testBit p ≠ (s.reg aHubOrderMode).toNat.testBit p
    && !(m = n && (l.frozen.isSome || l.entry.isSome))

/-- An LP between two bundles applies the mode. -/
def State.orderApply (s : State) (m : Tri) : State :=
  if (s.lp m).frozen.isSome || (s.lp m).entry.isSome then s
  else s.updLp m fun l => { l with orderMode := (s.reg aHubOrderMode).toNat }

/-- A store to HUB_ORDER_MODE at the head of LP n's store buffer: it completes once no affected LP lags. -/
def State.performOrder (s : State) (n : Tri) (st : Store) : State :=
  let s := if (s.lp n).stReq.any (·.taken) then s else s.ctlWrite st.addr st.word
  let s := allTri.foldl (fun s m => s.orderApply m) s
  if allTri.any fun m => s.orderLags n m then
    s.updLp n fun l => { l with stReq := some { (l.stReq.getD st.req) with taken := true } }
  else s.popStore n

/-! ### STORE_PERFORMED -/

/-- STORE_PERFORMED: the oldest entry of the store buffer of LP n. A strict device store leaves the hub and stays until it is answered
or times out; a control-space store is taken by its block. -/
def State.performStore (s : State) (n : Tri) : State :=
  match (s.lp n).storeBuf.head? with
  | none => s
  | some st =>
    match st.kind with
    | .cache =>
      let waits := (st.bytes.map fun b => b.1 / 128).any fun line => ((s.lp n).l2Find line).isNone && s.fillWaits n line
      if waits then s else (s.popStore n).storeCache n st
    | .nt => (s.popStore n).combine n st
    | .fence => (s.popStore n).drainAll n
    | .ctl => if st.addr = aHubOrderMode then s.performOrder n st else (s.popStore n).ctlWrite st.addr st.word
    | .devPosted => (s.popStore n).updLp n fun l => { l with posted := l.posted ++ [st.req] }
    | .devStrict => s.updLp n fun l => if l.stReq.isSome then l else { l with stReq := some st.req }

/-- The store of LP n whose answer is awaited: a strict device store that has left the hub, or a control-space store at the head of the
store buffer. -/
def Lp.awaited (l : Lp) : Option (DevReq × Store) :=
  match l.storeBuf.head? with
  | none => none
  | some st => if st.kind = .ctl then some (l.stReq.getD st.req, st) else l.stReq.map fun r => (r, st)

/-- Does a device behind a port whose gate is closed leave an access unanswered (18 R468)? -/
def State.devShut (s : State) (a : Nat) : Bool := (s.devClaimedBy a).any fun r => !s.gateRuns (28 + r.1)

/-- DEVICE_ACCESS_ANSWER: success with the data of a load, or an error answer. A register's block answers a load with what it shows. -/
def State.devAnswer (s : State) (n : Tri) (acc : DevAccess) (ok : Bool) (data : Word) : State :=
  match acc with
  | .load => match (s.lp n).devReq with
    | some r =>
      if s.devShut r.addr then s
      else if !ok then s.loadEnd n r none (srcTriad n 15)
      else if isCtl r.addr then let (v, s) := s.ctlRead r.addr; s.loadEnd n r (some v) 0
      else s.loadEnd n r (some data) 0
    | none => s
  | .store => match (s.lp n).awaited with
    | some (r, st) =>
      if s.devShut r.addr then s
      else if !ok then s.storeEnd n r (some (2, srcTriad n 15)) else if st.kind = .ctl then s.performStore n else s.storeEnd n r none
    | none => s
  | .posted i =>
    if ((s.lp n).posted[i]?).any fun r => s.devShut r.addr then s else s.postedEnd n i (if ok then none else some 0x4C7)

/-- An access's interval at a boundary: fixed, or expired (01 R31). The Bool says that it expired. -/
def DevReq.tick (r : DevReq) (tod len : Nat) : DevReq × Bool :=
  match r.due with
  | none => ({ r with due := some (tod + len) }, false)
  | some d => (r, decide (d ≤ tod))

/-- DEVICE_TIMEOUT as a time. -/
def State.devLen (s : State) : Nat := s.fld aHubDevTimeout 7 0 * s.tick.period

/-- Device accesses of LP n at a boundary (09 R251, R252). -/
def State.devTick1 (s : State) (n : Tri) : State :=
  let len := s.devLen
  let s := match (s.lp n).devReq with
    | none => s
    | some r =>
      let (r, x) := r.tick s.tod len
      if x then s.loadEnd n r none (srcTriad n 13) else s.updLp n fun l => { l with devReq := some r }
  let s := match (s.lp n).awaited with
    | none => s
    | some (r, _) =>
      let (r, x) := r.tick s.tod len
      if x then s.storeEnd n r (some (1, srcTriad n 14)) else s.updLp n fun l => { l with stReq := some r }
  let ps := (s.lp n).posted.map fun r => r.tick s.tod len
  let s := s.updLp n fun l => { l with posted := (ps.filter fun p => !p.2).map (·.1) }
  (ps.filter (·.2)).foldl (fun s p => s.devFault n 0x4C6 p.1.addr p.1.part false) s

/-- Device accesses at a boundary (01 R30 action 2); frozen bundles whose wait ended go on. -/
def State.devTick (s : State) : State := allTri.foldl (fun s n => s.devTick1 n) s

/-- Would an access of LP n time out at a boundary at this TOD? -/
def State.devDue (s : State) (n : Tri) (acc : DevAccess) (tod : Nat) : Bool :=
  let r := match acc with
    | .load => (s.lp n).devReq
    | .store => (s.lp n).stReq
    | .posted i => (s.lp n).posted[i]?
  match r.bind (·.due) with | some d => decide (d ≤ tod) | none => false

end Sys2Proof.Machine
end

