-- ==== Sys2Proof/Machine/Tick.lean ====
section
/-! DEFINITION. Tick boundaries (01 R26 to R35, 18 R464) with the snapshot of the counters (20 R502 to R504), and the time that passes
while no command waits. -/

namespace Sys2Proof.Machine
open Sys2Proof

/-! ### Counter banks (20 R502, R503) -/

/-- Does the gate or the domain of a unit stop its clock? `lim` is the first domain state that does. -/
def State.stoppedBy (s : State) (gate dom : Option Nat) : Bool :=
  (match gate with | some g => !s.gateRuns g | none => false) || (match dom with | some d => s.domState d ≠ 0 | none => false)

/-- The triad of die d that core c serves. -/
def State.coreTri (s : State) (d : Fin 4) (c : Nat) : Option Tri :=
  (dieTri d).find? fun n => s.coreOf n .lead = c || s.coreOf n .second = c || s.coreOf n .third = c

/-- Is the clock of counting unit u stopped? -/
def State.unitStopped (s : State) (u : Nat) : Bool :=
  if u < 0x40 then s.stoppedBy none (some (u % 32))
  else if u < 0xA8 then
    match s.coreTri ⟨(u - 0x40) / 26 % 4, Nat.mod_lt _ (by decide)⟩ ((u - 0x40) % 26) with
    | some n => s.stoppedBy none (some n.val)
    | none => true
  else if 0xB0 ≤ u ∧ u < 0xF0 then s.stoppedBy none (some (40 + (u - 0xB0) / 16))
  else if 0x180 ≤ u ∧ u < 0x190 then s.stoppedBy (some (24 + (u - 0x180) / 4)) (some (52 + (u - 0x180) / 4))
  else if 0x190 ≤ u ∧ u < 0x1B0 then s.stoppedBy (some (20 + (u - 0x190) / 8)) (some (48 + (u - 0x190) / 8))
  else if 0x1B0 ≤ u ∧ u < 0x1C0 then s.stoppedBy (some (28 + (u - 0x1B0) / 4)) (some (56 + (u - 0x1B0) / 4))
  else if 0x1C0 ≤ u ∧ u < 0x1C8 then s.stoppedBy (some (u - 0x1C0)) (some (44 + (u - 0x1C0) / 4))
  else if 0x1C8 ≤ u ∧ u < 0x1D0 then s.stoppedBy (some (8 + (u - 0x1C8))) (some (46 + (u - 0x1C8) / 4))
  else if u = 0x1D0 then s.stoppedBy (some 16) (some 61)
  else false

/-- The label of a bank. -/
def bankLabel (restart : Bool) (tick : Nat) : Nat := 2 ^ 63 + b2n restart * 2 ^ 62 + tick % 2 ^ 48

/-- Action 1 of 01 R30: every unit whose clock runs copies its counters, labelled with the tick that has ended. -/
def State.cntCopy (s : State) (tick : Nat) : State :=
  let units := (List.range 0x281).filter cntUnit
  let bank := units.flatMap fun u =>
    if s.unitStopped u then s.cnt.bank.filter fun e => e.1 / 16 = u
    else (16 * u, bankLabel (smGet (fun _ => false) s.cnt.restart u) tick) :: s.cnt.live.filter fun e => e.1 / 16 = u
  let s := { s with cnt := { s.cnt with bank := bank, restart := s.cnt.restart.filter fun e => s.unitStopped e.1 } }
  s.setReg aCntGen (w64 (tick % 2 ^ 32 * 2 ^ 32 + (s.fld aCntGen 31 0 + 2) % 2 ^ 32))

/-! ### Boundaries -/

/-- TOD of the next boundary (01 R28, R35). -/
def State.nextBoundary (s : State) : Nat :=
  let t := match s.tick.edge with | some e => e | none => (s.reg aHubTickLastTod).toNat + s.tick.period
  max t s.tod

/-- TICK_OUT: high for 100 ns from a boundary, while OUT_EN = 1; low from a power-fail boundary on (01 R34). -/
def State.tickOut (s : State) : Bool :=
  s.flag aHubTickCfg 4 && !s.tick.outLow && (match s.tick.outEnd with | some e => decide (s.tod < e) | none => false)

/-- Follow mode at a boundary, which came from an accepted edge or not (01 R35). -/
def State.followTick (s : State) (viaEdge : Bool) : State :=
  if s.fld aHubTickCfg 1 0 ≠ 1 then { (s.setFld aHubTickStatus 0 0 0) with tick := { s.tick with edge := none, missed := 0 } }
  else if viaEdge then { (s.setFld aHubTickStatus 0 0 1) with tick := { s.tick with edge := none, missed := 0 } }
  else
    let m := s.tick.missed + 1
    let s := { (s.setFld aHubTickStatus 0 0 0) with tick := { s.tick with edge := none, missed := min m 4 } }
    if m = 4 then (s.setFld aHubTickStatus 3 3 1).raise { src := 0x4C3 } else s

/-- Actions 1 to 3 and 5 of 01 R30. A save under way leaves no interval of a device or a path running (10 R267, R268; DEDUCED, log
entry 21). -/
def State.tickActions (s : State) (ended : Nat) (pf : Bool) : State :=
  let s := s.cntCopy ended
  let idle := s.save.phase = .none
  let (s, due) := if idle then s.ringsDue else (s, [])
  let ev := idle && s.spn.evWritten
  let s := if ev then { s with spn := { s.spn with evWritten := false } } else s
  let s := if idle then (s.devTick).spanTick s.tod s.tick.period else s
  let s := s.quietTick
  let s := if idle then (s.ringInts due).spanInt ev else s
  let s := if pf then s else s.partTick
  let s := if pf || !idle then s else s.slotsBack
  if pf then s else s.reattemptAll

/-- A boundary at TOD t; `viaEdge` says that an accepted TICK_IN edge set it. 100 ns are 25.6 TOD units. In clock hold no unit receives
the boundary (18 R464). -/
def State.boundaryAt (s : State) (t : Nat) (pf : Bool) : State :=
  let viaEdge := s.tick.edge.isSome && decide (t = s.nextBoundary)
  let s := s.advanceTod (t - s.tod)
  let n := (s.reg aHubTickNum).toNat
  let s := (s.setReg aHubTickNum (w64 (n + 1))).setReg aHubTickLastTod (w64 s.tod)
  let s := s.followTick viaEdge
  let s := { s with tick := { s.tick with
    period := s.fld aHubTickPeriod 15 0, outLow := s.tick.outLow || pf, outEnd := if pf then none else some (s.tod + 26) } }
  let s := if pf then s.setFld aHubTickStatus 4 4 1 else s
  if s.refState = 4 then s else s.tickActions n pf

/-- TICK_BOUNDARY: the next scheduled boundary, TOD having reached it. -/
def State.tickBoundary (s : State) : State :=
  if s.tick.running && s.pwr.todRun && !s.therm.stopped then s.boundaryAt s.nextBoundary false else s

/-- The power-fail boundary: at once, or at a boundary scheduled within 1 µs (01 R33). -/
def State.pfBoundary (s : State) : State :=
  s.boundaryAt (if s.nextBoundary ≤ s.tod + 256 then s.nextBoundary else s.tod) true

/-- One TOD unit passes while no command waits; a boundary that it reaches happens (log entry 14). -/
def State.idle (s : State) : State :=
  if s.tick.running && !s.therm.stopped && decide (s.nextBoundary ≤ s.tod + 1) then s.tickBoundary else s.advanceTod 1

/-- TICK_IN_EDGE at the present TOD (01 R35). -/
def State.tickInEdge (s : State) : State :=
  if s.fld aHubTickCfg 1 0 ≠ 1 || !s.tick.running || s.tick.outLow then s
  else
    let b := s.tod + s.fld aHubTickCfg 27 16
    let d := b - (s.reg aHubTickLastTod).toNat
    if s.tick.period ≤ 2 * d ∧ 2 * d ≤ 3 * s.tick.period then { s with tick := { s.tick with edge := some b } }
    else s.setFld aHubTickStatus 2 2 1

/-- TICK_IN_LOST: the boundary that ends the fourth period without an accepted edge. -/
def State.tickInLost (s : State) : State :=
  if s.fld aHubTickCfg 1 0 = 1 && s.tick.edge.isNone && s.tick.missed = 3 then s.tickBoundary else s

/-! ### Intervals as commands -/

/-- Does an optional interval end at a boundary at this TOD? -/
def ivalDue (tod : Nat) (i : Option Ival) : Bool := match i with | some i => i.ends tod | none => false

/-- Does the interval end at the next boundary? -/
def State.intervalDue (s : State) (k : IntervalKind) : Bool :=
  let t := s.nextBoundary
  match k with
  | .device n acc => s.devDue n acc t
  | .quiet k => s.quietDue k.val t
  | .login i p => match s.session i with | some x => ivalDue t (x.path p).login | none => false
  | .keepalive i p => match s.session i with | some x => ivalDue t (x.path p).ka | none => false
  | .pathWait i => match s.session i with | some x => ivalDue t x.wait | none => false
  | .resume i => match s.session i with | some x => ivalDue t x.resume | none => false

/-- An interval expires: the next boundary, if the interval ends at it. -/
def State.expireAt (s : State) (k : IntervalKind) : State := if s.intervalDue k then s.tickBoundary else s

end Sys2Proof.Machine
end

