-- ==== Sys2Proof/Machine/Save.lean ====
section
/-! DEFINITION. The memory links (10 R256 to R259) and the Fumarole save (10 R263 to R276, 13 R374, 14 R403): its phases as commands, the
save area, the header. -/

namespace Sys2Proof.Machine
open Sys2Proof

/-! ### Memory links (10 R259, R262, R529) -/

/-- Is link m UP or DEGRADED? -/
def State.linkUsable (s : State) (m : Nat) : Bool := s.linkState m = 2 || s.linkState m = 3

/-- Link m is recorded as lost in the save under way, and its DRAM is no longer part of an image (10 R271, 19 R495). -/
def State.linkLost (s : State) (m : Nat) : State :=
  if s.save.lost.testBit m then s
  else
    let s := { s with
      save := { s.save with lost := s.save.lost ||| 2 ^ m }, kst := { s.kst with dram := s.kst.dram &&& (0xFFFF ^^^ 2 ^ m) } }
    (s.setFld aMemSaveStatus 39 24 s.save.lost).raise { src := srcLink m 5 }

/-- Is a save under way? -/
def State.saving (s : State) : Bool := s.save.phase ≠ .none && s.save.phase ≠ .ended

/-- MEM_LINK_FAIL: link m becomes unusable until the next chip reset. -/
def State.linkFail (s : State) (m : Nat) : State :=
  if !s.linkUsable m then s
  else
    let a := aMemLinkStatus m
    let s := ((s.setFld a 2 0 4).setFld a 11 8 0).raise { src := srcLink m 3 }
    if s.saving && s.mapLinks.contains m then s.linkLost m else s

/-- MEM_LANE_DEGRADE: a lost lane leaves 4; a further one fails the link. -/
def State.laneDegrade (s : State) (m : Nat) : State :=
  if s.linkState m = 2 then
    (((s.setFld (aMemLinkStatus m) 2 0 3).setFld (aMemLinkStatus m) 11 8 4).raise { src := srcLink m 2 })
  else s.linkFail m

/-- MEM_CE: a corrected DRAM error at an address. -/
def State.memCe (s : State) (a : Nat) : State :=
  if s.memOk a then (s.count (0x180 + s.linkOf a) 4 1).raise { src := srcLink (s.linkOf a) 0 } else s

/-- MEM_UE: the granule of an address is poisoned: 32 bytes, or the line under version 2. -/
def State.memUe (s : State) (a : Nat) : State :=
  if !s.memOk a then s
  else
    let m := s.linkOf a
    let gs := if s.fld (aMemLinkStatus m) 7 4 = 2 then (List.range 4).map fun i => a / 128 * 4 + i else [a / 32]
    (gs.foldl (fun s g => s.setPoison g true) s).raise { src := srcLink m 1 }

/-! ### The save area (10 R273 to R276) -/

/-- Absolute base of the save area. -/
def State.saveBase (s : State) : Nat := s.fld aMemSaveBase 51 24 * 2 ^ 24
/-- Is the save area in use? -/
def State.saveArea (s : State) : Bool := s.flag aMemSaveBase 63

/-- MAGIC. -/
def hdrMagic : Nat := 0x454C4F52414D5546

/-- The header's 4 KiB for a save, with the links recorded. -/
def headerBytes (v : Save) (map : Word) : List Byte :=
  let bs := bytesOf [w64 hdrMagic, w64 v.state, w64 v.seq, w64 v.cause, w64 v.tick, w64 v.tod, map, w64 v.lost, w64 v.bytesP,
    w64 v.bytesN, w64 v.duration] ++ List.replicate 4000 0
  bs ++ leBytes 8 (crc32c bs)

/-- Bytes written directly to memory, bypassing every cache; those behind a FAILED link are lost (10 R269). -/
def State.putDirect (s : State) (a : Nat) (bs : List Byte) : State := s.memWrite ((at_ a bs).filter fun e => s.memOk e.1)

/-- A range of memory is zeroed directly. -/
def State.zeroDirect (s : State) (lo hi : Nat) : State :=
  let out := fun (a : Nat) => decide (a < lo) || decide (hi ≤ a) || !s.memOk a
  { s with mem := s.mem.filter fun e => out e.1, poison := s.poison.filter fun e => out (32 * e.1) }

/-- Bytes put into a range that has been zeroed: the zero ones stay unwritten. -/
def State.putNew (s : State) (a : Nat) (bs : List Byte) : State :=
  s.memWrite ((at_ a bs).filter fun e => e.2 ≠ 0 && s.memOk e.1)

/-- The link that holds the header, if there is one. -/
def State.headerLink (s : State) : Option Nat := if s.saveArea then some (s.linkOf s.saveBase) else none

/-- Can the header be written: its own link is not recorded as lost (10 R271)? -/
def State.headerReach (s : State) : Bool := match s.headerLink with | some m => !s.save.lost.testBit m | none => false

/-- The header is written (10 R269, R271, R276). -/
def State.headerWrite (s : State) : State :=
  let s := { s with save := { s.save with lostHdr := s.save.lost } }
  if s.headerReach then s.putDirect s.saveBase (headerBytes s.save (s.reg aMemMap)) else s

/-- A phase has ended: STATE and DURATION, the header, MEM_SAVE_STATUS. -/
def State.headerState (s : State) (st : Nat) : State :=
  let s := { s with save := { s.save with state := st, duration := s.tod - s.save.tod } }
  let s := (s.setFld aMemSaveStatus 47 46 st).setFld aMemSaveStatus 23 0 (min (s.save.duration / 256) 0xFFFFFF)
  s.headerWrite

/-! ### Contexts (10 R274, R275, 13 R374, 14 R403) -/

/-- An LP's slot as (offset, doubleword). -/
def State.lpSlot (s : State) (n : Tri) : List (Nat × Word) :=
  let l := s.lp n
  ((List.range 512).map fun i => (8 * i, l.vsGet i)) ++
    [(0x1000, s.reg (aTrdState n)), (0x1008, s.reg (aTrdAseStatus n)), (0x1010, s.reg (aTrdL2Lock n))]
    ++ ((List.range 4).map fun k => (0x1018 + 8 * k, s.reg (aTrdIntPend n k)))
    ++ [(0x1038, w64 (b2n (s.halted n) + 2 * b2n (s.checkstopped n) + 4 * b2n l.waiting + 8 * b2n l.voted.escLocked))]

/-- TAG, ring and partition of an entry, with its low bits. -/
def entryWord (r : EngReq) (low : Nat) : Word := w64 (r.tag % 2 ^ 32 * 2 ^ 32 + r.ring * 2 ^ 16 + r.part * 2 ^ 8 + low)

/-- A resident of a compression engine: its entry, and whether it starts again from the beginning (13 R374). -/
def CmpReq.entry (q : CmpReq) : List Byte × Bool :=
  match q.codec with
  | none => (bytesOf [entryWord q.req 1], true)
  | some c =>
    if subW q.blk 6 = 0 ∧ c.histLen ≠ 0 then (bytesOf [entryWord q.req 1], true)
    else
      let blk := ((q.blk.set 1 (w64 q.src)).set 2 (w64 q.dst)).set 3 (w64 q.dstLen)
      (bytesOf ([entryWord q.req 0] ++ List.replicate 7 0 ++ blk ++ List.replicate 8 0) ++ List.replicate 0x140 0 ++ ctxBytes q.ctl q.limit c,
        false)

/-- What the journal keeps of a resident for the submission entry's sake (log entry 21). -/
def State.engSub (s : State) (unit k : Nat) (ws : List Word) : State :=
  { s with kst := { s.kst with rest := { s.kst.rest with engSubs := smSet (fun _ => []) s.kst.rest.engSubs (8 * unit + k) ws } } }

/-- The slot of a compression engine. -/
def State.cmpSlot (s : State) (e : Nat) : State :=
  let a := s.saveBase + 0x50000 + 0x4000 * e
  let l := s.cmpRes e
  let s := s.putNew a (leBytes 8 l.length)
  (l.zip (List.range l.length)).foldl (fun s x =>
    let q := x.1
    let (bs, restart) := q.entry
    let s := match restart, q.codec with
      | false, some c =>
        if subW q.blk 6 = 0 ∨ q.needHist ≠ 0 then s else (s.hubWr q.req.part (subW q.blk 6).toNat c.histBytes).1
      | _, _ => s
    (s.putNew (a + 0x40 + 0x600 * x.2) bs).engSub e x.2 (q.req.sub ++ [w64 q.used, w64 q.wrote])) s

/-- Does a message start again from its first block (14 R403)? The key operations too, which are one unit of work. -/
def Msg.restarts (m : Msg) : Bool := m.hold || m.mode = 6 || m.keyOp || m.ph = .new || m.ph = .over

/-- The slot of a cipher pipeline. -/
def State.cphSlot (s : State) (e : Nat) : State :=
  let a := s.saveBase + 0x50000 + 0x4000 * (8 + e)
  let p := s.pipe e
  let l := (p.active.toList.map fun q => (q, 0)) ++ (p.susp.toList.map fun q => (q, 2))
  let s := s.putNew a (leBytes 8 l.length)
  (l.zip (List.range l.length)).foldl (fun s x =>
    let q := x.1.1
    let m := q.msg.getD (Msg.fresh [] q.req.part 0 0 0 0)
    let w := entryWord q.req (x.1.2 + b2n m.restarts)
    let (k, s) := s.draw
    let ctx := if m.restarts then [] else m.sealCtx Config.saveKey (beB 12 (Config.entropy k % 2 ^ 96))
    let bs := bytesOf ([w] ++ List.replicate 7 0 ++ (if m.restarts then [] else m.blk ++ List.replicate 12 0)) ++ ctx
    (s.putNew (a + 0x40 + 0x200 * x.2) bs).engSub (8 + e) x.2 (q.req.sub ++ [w64 m.used, w64 m.wrote, w64 (m.iv % 2 ^ 64), w64 (m.iv / 2 ^ 64), w64 m.status])) s

/-- Queued requests in the order in which they would have been placed (10 R275, 13 R344, 14 R391). -/
def queueEntry (r : EngReq) : List Byte :=
  bytesOf ([entryWord r (2 * b2n r.rt + 1)] ++ List.replicate 7 0 ++ (List.range 8).map (subW r.sub))

/-- A list of fixed-size entries from an address. -/
def State.putEntries (s : State) (a size : Nat) (l : List (List Byte)) : State :=
  (l.zip (List.range l.length)).foldl (fun s x => s.putNew (a + size * x.2) x.1) s

/-- Every modified journal entry reaches its journal area directly (10 R269). -/
def State.jrnlSave (s : State) : State :=
  s.jents.foldl (fun s e =>
    if e.2.2.dirty && s.flag (aCssJrnl e.1) 63 then
      ((s.putDirect (s.jrnlAddr e.1 e.2.1) (bytesOf (jentWords e.2.2))).setJent e.1 e.2.1 { e.2.2 with dirty := false })
    else s) s

/-- The context regions, written in full (10 R269, R274). An engine request whose completion a ring could not write is kept as a queued
request (11 R297). -/
def State.contexts (s : State) : State :=
  let b := s.saveBase
  let s := s.zeroDirect (b + 0x10000) (b + 0x410000)
  let s := allTri.foldl (fun s n =>
    s.memWrite (((s.lpSlot n).filter fun e => e.2 ≠ 0).flatMap fun e =>
      (at_ (b + 0x10000 + 0x2000 * n.val + e.1) (leBytes 8 e.2.toNat)).filter fun x => x.2 ≠ 0 && s.memOk x.1)) s
  let s := { s with kst := { s.kst with rest := { s.kst.rest with engSubs := [] } } }
  let s := (List.range 8).foldl (fun s e => s.cmpSlot e) s
  let s := (List.range 8).foldl (fun s e => s.cphSlot e) s
  let s := s.cph.slots.foldl (fun s e => match e.2 with
    | some k => s.putNew (b + 0x90000 + 64 * e.1) (tokenMake 1 saveRks k)
    | none => s) s
  let s := s.ringList.foldl (fun s e => s.putNew (b + 0x110000 + 64 * e.1) (bytesOf (ringEntry e.2))) s
  let s := s.sessionList.foldl (fun s e => s.putNew (b + 0x210000 + 256 * e.1) (bytesOf (sessEntry e.2 (s.issuedOf e.1)))) s
  let owed := fun (cph : Bool) => (s.ringList.flatMap fun e => e.2.owed.filterMap (·.req)).filter fun r => (subOp r.sub = 0x18) = cph
  let s := s.putEntries (b + 0x310000) 128 (((owed false ++ s.cmp.queue).take 4096).map queueEntry)
  s.putEntries (b + 0x390000) 128 (((owed true ++ s.cphOrder.map (·.1)).take 4096).map queueEntry)

/-! ### Quiesce (10 R266 to R268) -/

/-- The entry of a trap whose own bundle is released completes, since that bundle is not executed again (DEDUCED from 10 R266 and 05 R128,
log entry 21). -/
def State.quiesceTrap (s : State) (n : Tri) : State :=
  let l := s.lp n
  match l.records, l.entry with
  | r :: _, _ => if r.trap.isSome then s.releaseOne n else s
  | [], some x =>
    if x.vec = 6 ∨ x.vec = 7 then (s.enterFrame n x (targetLevel l.arch x.vec)).releaseOne n else s
  | [], none => s

/-- LP n stops at the power-fail boundary; it stands at the voted state. -/
def State.quiesceLp (s : State) (n : Tri) : State :=
  let s := s.quiesceTrap n
  (s.unEnter n).updLp n fun l => { l.loadVoted with
    quiesced := true, stopTick := false, devReq := none, devHold := [], recov := .none, posted := [] }

/-- A save starts (10 R263, R271). -/
def State.saveStart (s : State) (cause cls : Nat) (stay thermal : Bool) : State :=
  let s := (List.range 8).foldl (fun s e => s.cphCompletion e) s
  let s := s.pfBoundary
  let old := memBytes s.mem s.saveBase 24
  let seq := if s.saveArea && leNat (old.take 8) = hdrMagic then leNat (old.drop 16) + 1 else 1
  let s := { s with save := { Save.reset with
    phase := .quiesce, cause := cause + 256 * cls, tick := (s.reg aHubTickNum).toNat, tod := s.tod, seq := seq % 2 ^ 64, stay := stay
    thermal := thermal } }
  let s := (s.setFld aMemSaveStatus 55 48 cause).setFld aMemSaveStatus 47 46 0
  let s := (s.setFld aMemSaveStatus 39 24 0).setFld aMemSaveStatus 23 0 0
  let s := (s.mapLinks.filter fun m => !s.linkUsable m).foldl (fun s m => s.linkLost m) s
  allTri.foldl (fun s n => s.quiesceLp n) s

/-- The store buffer of LP n drains up to a strict device store that has not been performed. -/
def State.drainStores (s : State) (n : Tri) : Nat → State
  | 0 => s
  | k + 1 =>
    match (s.lp n).storeBuf with
    | [] => s
    | st :: _ => if st.kind = .devStrict then s else (s.performStore n).drainStores n k

/-- QUIESCE_STORE_LIMIT for LP n: strict device stores are dropped as for a timeout (10 R267). -/
def State.limitStores (s : State) (n : Tri) : Nat → State
  | 0 => s
  | k + 1 =>
    match (s.lp n).storeBuf with
    | [] => s
    | st :: _ =>
      if st.kind = .devStrict then
        let r : DevReq := { addr := st.addr, size := st.bytes.length, slot := 0, part := st.part, due := none }
        (s.storeEnd n r (some (1, srcTriad n 14))).limitStores n k
      else (s.performStore n).limitStores n k

/-- QUIESCE_STORE_LIMIT. -/
def State.storeLimit (s : State) : State :=
  if s.save.phase = .quiesce then allTri.foldl (fun s n => s.limitStores n (s.lp n).storeBuf.length) s else s

/-- QUIESCE_END: every store buffer and combining buffer has drained; phase 3 then writes the journal entries, the contexts and the
header (10 R266, R269). -/
def State.quiesceEnd (s : State) : State :=
  if s.save.phase ≠ .quiesce then s
  else
    let s := allTri.foldl (fun s n => s.drainStores n (s.lp n).storeBuf.length) s
    if allTri.any fun n => !(s.lp n).storeBuf.isEmpty then s
    else
      let s := allTri.foldl (fun s n => s.drainAll n) s
      let s := if s.saveArea then (s.jrnlSave.contexts).headerState 1 else s
      { s with save := { s.save with phase := .contexts } }

/-! ### Write-back (10 R270) -/

/-- Modified lines that a triad holds, with their PERS, the newest copy first. -/
def Lp.modLines (l : Lp) : List (Nat × Bool) :=
  (l.l2.ways.filterMap fun e => if e.2.st = .m then some (e.2.line, e.2.pers) else none) ++ l.vbuf.map fun v => (v.line, v.pers)

/-- Modified lines of the module, each once, with the PERS of its newest copy. -/
def State.modLines (s : State) : List (Nat × Bool) :=
  let all := (allTri.flatMap fun n => (s.lp n).modLines) ++ (List.finRange 4).flatMap fun d =>
    (s.l3Of d).ways.filterMap fun e => if e.2.st = .m then some (e.2.line, e.2.pers) else none
  (all.foldl (fun acc e => if acc.any fun x => x.1 = e.1 then acc else e :: acc) []).reverse

/-- Every modified line with a given PERS is written and becomes clean; the answer counts bytes. -/
def State.writeLines (s : State) (pers : Bool) : State × Nat :=
  let ls := s.modLines.filter fun e => e.2 = pers
  (ls.foldl (fun s e => s.cleanLine e.1) s, 128 * ls.length)

/-- CONTEXTS_WRITTEN: phase 3 ends, and phase 4 writes the persistent lines. -/
def State.contextsEnd (s : State) : State :=
  if s.save.phase ≠ .contexts then s
  else
    let (s, n) := s.writeLines true
    let s := { s with save := { s.save with phase := .persistent, bytesP := n } }
    s.headerState 2

/-- PERSISTENT_WRITEBACK_END: phase 4 ends, and phase 5 writes the other lines. -/
def State.persistentEnd (s : State) : State :=
  if s.save.phase ≠ .persistent then s
  else
    let (s, n) := s.writeLines false
    let s := { s with save := { s.save with phase := .others, bytesN := n } }
    s.headerState 3

/-! ### Self-refresh (10 R271) -/

/-- Links of the map that have neither acknowledged nor been recorded. -/
def State.refreshLeft (s : State) : List Nat := s.mapLinks.filter fun m => !(s.save.acked ||| s.save.lost).testBit m
/-- May link m be told to enter self-refresh now: the header's link is the last? -/
def State.refreshTurn (s : State) (m : Nat) : Bool :=
  s.refreshLeft.contains m && (s.headerLink ≠ some m || s.refreshLeft = [m])

/-- Every link but the header's is settled: a link recorded since the last header write makes one more (10 R271). -/
def State.lastHeader (s : State) : State :=
  let left := s.refreshLeft
  if (left = [] ∨ s.headerLink = left.head? ∧ left.length = 1) ∧ s.save.lost ≠ s.save.lostHdr then s.headerWrite else s

/-- The save ends once every link is settled; buffers that acknowledged keep their DRAM (10 R271, 19 R495). -/
def State.refreshEnd (s : State) : State :=
  let s := s.lastHeader
  if s.refreshLeft.isEmpty then
    { s with save := { s.save with phase := .ended }, kst := { s.kst with dram := s.kst.dram &&& s.save.acked } }
  else s

/-- WRITEBACK_END: phase 5 ends, and every link of the map is told to enter self-refresh. -/
def State.writebackEnd (s : State) : State :=
  if s.save.phase ≠ .others then s else State.refreshEnd { s with save := { s.save with phase := .selfRefresh } }

/-- SELF_REFRESH_ACK of link m: acknowledged, or not within 20 µs. -/
def State.refreshAck (s : State) (m : Nat) (ok : Bool) : State :=
  if s.save.phase ≠ .selfRefresh || !s.refreshTurn m then s
  else if ok then State.refreshEnd { s with save := { s.save with acked := s.save.acked ||| 2 ^ m } }
  else (s.linkLost m).refreshEnd

/-- A link that was recorded may have been the last that the save waited for. -/
def State.saveSettle (s : State) : State := if s.save.phase = .selfRefresh then s.refreshEnd else s

/-- A save code for the status lands (10 R279). -/
def State.saveCode (s : State) : Option Nat :=
  match s.save.phase with
  | .none => none
  | .ended =>
    if !s.saveArea || s.save.lost ≠ 0 then some 0xE4 else if s.save.state = 2 then some 0xE3 else some 0xE2
  | _ => some 0xE1

end Sys2Proof.Machine
end

