-- ==== Sys2Proof/Machine/Reset.lean ====
section
/-! DEFINITION. Resets (19 R479, R480, R499): what a chip reset and an always-on reset leave, the start journal's loading (R481,
R489, R490), and the start halt. -/

namespace Sys2Proof.Machine
open Sys2Proof

/-! ### Events raised before release (17 R445, 19 R499) -/

/-- Raised events, and those of a clock hold, are logged as held; no reaction is performed. -/
def State.logHeld (s : State) : State :=
  (s.fcu.late ++ s.raised).foldl (fun s f => (s.fcuAccept f).1) { s with raised := [], fcu := { s.fcu with late := [] } }

/-! ### The reset kinds (19 R480) -/

/-- Bits of the register at a that a chip reset keeps besides journal fields: the reference state (18 R459), the log and RECOVERIES
(19 R480). -/
def aonMask (a : Nat) : Nat :=
  if a = aClkStatus then 0x1F
  else if a = aFcuLogHead then 0xFFFFFFFF
  else if aFcuClassStat 0 ≤ a ∧ a ≤ aFcuClassStat 15 then 0xFFFF * 2 ^ 48
  else 0

/-- A register's value after a chip reset. -/
def keptReg (a : Nat) (v : Word) : Word :=
  let m := w64 (jrMask a ||| aonMask a)
  (v &&& m) ||| (ctlReset a &&& ~~~m)

/-- The registers after a chip reset. -/
def State.keptRegs (s : State) : SMap Word :=
  s.ctl.filterMap fun e => let v := keptReg e.1 e.2; if v = ctlReset e.1 then none else some (e.1, v)

/-- A chip reset for a cause: Keystone is due at a step (19 R479, R480). Events not yet logged are logged first. -/
def State.chipReset (s : State) (cause first : Nat) : State :=
  let s := s.logHeld
  let t : State := { State.reset with
    pending := s.pending, mem := s.mem, poison := s.poison, ctl := s.keptRegs, free := s.free + 1, bus := s.bus, dbg := s.dbg
    fcu := { Fcu.reset with log := s.fcu.log }
    cnt := { Cnt.reset with era := s.free }
    pwr := { Pwr.reset with tod := s.pwr.tod, todRun := s.pwr.todRun, vdd := s.pwr.vdd }
    kst := { s.kst with phase := .due first, cause := cause, patch := { words := [], matches_ := [] } } }
  t.setFld aKstStatus 18 16 cause

/-- Loss of the always-on logic: what is left is main memory, the boot flash and the buffers' self-refresh. -/
def State.alwaysOnReset (s : State) (pwrok : Bool) : State :=
  { State.reset with
    pending := s.pending, mem := s.mem, poison := s.poison, free := s.free + 1, bus := s.bus
    cnt := { Cnt.reset with era := s.free }
    kst := { Kst.reset with flashA := s.kst.flashA, flashB := s.kst.flashB, nextB := s.kst.nextB, dram := s.kst.dram, pwrok := pwrok
                            resetN := s.kst.resetN, pfWarn := s.kst.pfWarn } }

/-! ### The journal in use (19 R481, R490) -/

/-- Journal fields of a flash copy loaded. -/
def State.loadFields (s : State) (fs : SMap Word) : State :=
  fs.foldl (fun s e => let m := w64 (jrMask e.1); s.setReg e.1 ((e.2 &&& m) ||| (s.reg e.1 &&& ~~~m))) s

/-- Step 3: the journal in always-on SRAM, else the newer flash copy, else defaults. -/
def State.journalLoad (s : State) : State :=
  let s := if s.kst.aon then s.setFld aKstStatus 11 10 0
    else match s.kst.newest with
      | some (c, isB) =>
        let s := (s.loadFields c.fields).setReg aKstJrnlGen (w64 c.gen)
        let s := { s with kst := { s.kst with rest := c.rest, nextB := !isB } }
        (s.setFld aKstStatus 11 10 (1 + b2n isB)).raise { src := 0x4DD, idA := b2n isB, idB := c.gen }
      | none => ({ s with kst := { s.kst with rest := Jrnl.reset } }).setFld aKstStatus 11 10 3
  let s := { s with kst := { s.kst with aon := true } }
  (List.range 64).foldl (fun s d => if s.flag (aPwrDom d) 63 then s.setDom d 3 else s) s

/-- Step 13 or 14 settles on the cold path: fields of partition firmware's set-up take their cold-start values (19 R481). -/
def State.coldFields (s : State) : State :=
  let z := fun (s : State) a => s.setReg a (ctlReset a)
  let s := [aCssCfg, aSpnEvqBase].foldl z s
  let s := ((List.range 32).flatMap fun p => [aCssJrnl (p + 1), aHubPartCfg (p + 1), aHubPartL3q (p + 1), aHubPartRes (p + 1),
    aCphKrange (p + 1)]).foldl z s
  let s := ((List.range 1024).map aCssDbl).foldl z s
  let s := ((List.range 4).map aPciRidt).foldl z s
  let s := (List.range 0x4E7).foldl (fun s i =>
    let r := (srcCfgRst i)
    (s.setFld (aFcuSrcCfg i) 2 2 (bits (w64 r) 2 2)).setFld (aFcuSrcCfg i) 1 0 (bits (w64 r) 1 0)) s
  let s := ((List.range 16).map aFcuClassCfg).foldl z s
  { s with kst := { s.kst with rest := { s.kst.rest with dblLine := [], ringNoPers := [], engSubs := [] } } }

/-! ### Start halt and failed steps (19 R485, R487) -/

/-- ATTEMPTS of a step. -/
def State.attempts (s : State) (n : Nat) : Nat := s.fld (aKstStep n) 1 0

/-- A mandatory step has failed. Its unit-specific CAUSE is not a stated value (log entry 4). Before release a warm path has written no
memory, so the image stays as it is. -/
def State.stepFail (s : State) (n : Nat) : State :=
  let a := aKstStep n
  let att := min 3 (s.attempts n + 1)
  let (k, s) := s.draw
  let c := (Config.freeWord k).toNat % 256
  let s := ((s.setFld a 1 0 att).setFld a 4 2 3).setFld a 15 8 c
  let s := (s.raise { src := 0x4DB, idA := n, idB := att }).logHeld
  if att = 3 then
    let s := (s.setFld aKstStatus 9 9 1).setReg aDbgCtl 0
    let s := s.flashWrite
    { s with kst := { s.kst with phase := .halted } }
  else s.flashWrite.chipReset 5 2

/-- STAT7 to STAT0 (19 R488, 10 R279, 18 R462); none while undriven. -/
def State.statCode (s : State) : Option Nat :=
  if s.refState = 4 then some 0xC1
  else match s.saveCode with
    | some c => some c
    | none => match s.kst.phase with
      | .due 1 => none
      | .due n => some n
      | .released => some 0
      | .halted => some (0x80 + s.fld aKstStatus 4 0)
      | .abandoned => some 0xE5

/-! ### Signals (19 R479, R499, 10 R263, R272, R278) -/

/-- PF_WARN_N before release ends the start (10 R278, 19 R499). -/
def State.startAbandon (s : State) : State :=
  match s.kst.phase with
  | .due _ => { s with kst := { s.kst with phase := .abandoned } }
  | _ => s

/-- RESET_N_ASSERT: a chip reset without a save. -/
def State.resetN (s : State) : State :=
  let s := s.chipReset 1 2
  { s with kst := { s.kst with resetN := false } }

/-- PWROK_FALL: a chip reset from step 1. -/
def State.pwrokFall (s : State) : State :=
  let s := s.chipReset 2 1
  { s with kst := { s.kst with pwrok := false } }

end Sys2Proof.Machine
end

