-- ==== Sys2Proof/Machine/Image.lean ====
section
/-! DEFINITION. The boot-flash images (16 R434 to R436, 19 R492, R493): their checks with reason codes, and what a start takes from
an accepted one. Whether a signature verifies is the environment's. -/

namespace Sys2Proof.Machine
open Sys2Proof

/-- Little-endian field of n bytes at offset o. -/
def imgNum (bs : List Byte) (o n : Nat) : Nat := leNat ((bs.drop o).take n)
/-- Are the n bytes at offset o zero? -/
def imgZero (bs : List Byte) (o n : Nat) : Bool := ((bs.drop o).take n).all fun b => b = 0

/-! ### Firmware (19 R492, R493) -/

/-- SIZE. -/
def fwSize (bs : List Byte) : Nat := imgNum bs 0x14 4
/-- BODY. -/
def fwBody (bs : List Byte) : List Byte := (bs.drop 0x1000).take (fwSize bs)

/-- The reason with which a firmware slot is rejected, 0 if it is accepted. -/
def fwReason (f : FlashSlot) : Nat :=
  let bs := f.bytes
  if bs.length < 0x1000 || bs.take 4 ≠ [0x51, 0x4E, 0x46, 0x57] then 1
  else if imgNum bs 4 2 ≠ 1 || !imgZero bs 0x0A 6 || !imgZero bs 0x30 4048 then 2
  else if imgNum bs 6 2 ≠ 0x8100 || imgNum bs 8 1 ≠ 0x10 then 3
  else if 1 < imgNum bs 9 1 || Config.keyRevoked (imgNum bs 9 1) then 4
  else if fwSize bs = 0 || decide (32501664 < fwSize bs) then 5
  else if !f.sigOk then 6
  else if imgNum bs 0x10 4 < Config.fwMinRev then 7
  else 0

/-- Digest of a byte string as a number. -/
def digest (bs : List Byte) : Nat := sha384 bs

/-! ### Patches (16 R434, R435) -/

/-- WORDS and MATCHES. -/
def pchW (bs : List Byte) : Nat := imgNum bs 0x0A 2
/-- MATCHES. -/
def pchM (bs : List Byte) : Nat := imgNum bs 0x0C 1
/-- Match entries. -/
def pchMatches (bs : List Byte) : List Nat := (List.range (pchM bs)).map fun m => imgNum bs (0x20 + 8 * m) 8
/-- Patch words. -/
def pchWords (bs : List Byte) : List Nat := (List.range (pchW bs)).map fun i => imgNum bs (0x20 + 8 * pchM bs + 18 * i) 18
/-- ROM_ADDR of a match entry. -/
def matchRom (v : Nat) : Nat := v / 2 ^ 10 % 2 ^ 14

/-- Check 8 on the contents. -/
def pchOk (bs : List Byte) : Bool :=
  let ms := pchMatches bs
  let w := pchW bs
  (ms.all fun v => decide (2 ^ 63 ≤ v) && v / 2 ^ 24 % 2 ^ 39 = 0 && decide (v % 2 ^ 10 < w)) && (ms.map matchRom).Nodup
    && (pchWords bs).all fun v => v % 2 ^ 18 = 0 && v / 2 ^ 126 % 8 ≠ 7 && decide (v / 2 ^ 129 < 0x4000 + w)

/-- The reason with which a patch slot is rejected, 0 if it is accepted. -/
def pchReason (f : FlashSlot) : Nat :=
  let bs := f.bytes
  if bs.length < 0x20 || bs.take 4 ≠ [0x55, 0x43, 0x50, 0x54] then 1
  else if imgNum bs 4 2 ≠ 1 || !imgZero bs 0x0D 3 || !imgZero bs 0x14 12 then 2
  else if imgNum bs 6 2 ≠ 0x8100 || imgNum bs 8 1 ≠ 0x10 then 3
  else if 1 < imgNum bs 9 1 || Config.keyRevoked (imgNum bs 9 1) then 4
  else if 1024 < pchW bs || 64 < pchM bs then 5
  else if !f.sigOk then 6
  else if imgNum bs 0x10 4 < Config.patchMinRev then 7
  else if !pchOk bs then 8
  else 0

/-! ### Slots (16 R436, 19 R493) -/

/-- The first accepted slot of two and its image, the slots in the order of trial, with the reason of each slot: (slot, reason of A,
reason of B). -/
def pickSlot (reason : FlashSlot → Nat) (a b : FlashSlot) (firstB : Bool) : Option Bool × Nat × Nat :=
  let ra := reason a
  let rb := reason b
  if firstB then (if rb = 0 then (some true, 0, 0) else if ra = 0 then (some false, 0, rb) else (none, ra, rb))
  else (if ra = 0 then (some false, 0, 0) else if rb = 0 then (some true, ra, 0) else (none, ra, rb))

/-- Rejected slots are reported in the order of trial. -/
def State.reject (s : State) (src : Nat) (firstB : Bool) (ra rb : Nat) : State :=
  let one := fun (s : State) (slot r : Nat) => if r = 0 then s else s.raise { src := src, idA := slot, idB := r }
  if firstB then one (one s 1 rb) 0 ra else one (one s 0 ra) 1 rb

/-- Step 6: the firmware slots are checked; the Bool says whether one is accepted. -/
def State.fwCheck (s : State) (env : StartEnv) (other : Bool) : State × Bool :=
  let firstB := (s.kst.rest.fwSlot = 1) != other
  let (slot, ra, rb) := pickSlot fwReason env.fwA env.fwB firstB
  let s := s.reject 0x4DE firstB ra rb
  match slot with
  | none => (s.setReg aKstFw (w64 (rb * 2 ^ 8 + ra * 2 ^ 4)), false)
  | some b =>
    let f := if b then env.fwB else env.fwA
    let s := s.setReg aKstFw (w64 (imgNum f.bytes 0x10 4 * 2 ^ 32 + rb * 2 ^ 8 + ra * 2 ^ 4 + 2 * b2n b + imgNum f.bytes 9 1))
    ({ s with kst := { s.kst with rest := { s.kst.rest with fwSlot := b2n b } } }, true)

/-- The accepted firmware image. -/
def State.fwBytes (s : State) (env : StartEnv) : List Byte := if s.flag aKstFw 1 then env.fwB.bytes else env.fwA.bytes

/-- Step 7: the patch slots are checked, and the accepted image is copied (16 R436). -/
def State.patchLoad (s : State) (env : StartEnv) (other : Bool) : State × Bool :=
  let firstB := (s.kst.rest.patchSlot = 1) != other
  let (slot, ra, rb) := pickSlot pchReason env.patchA env.patchB firstB
  let s := s.reject 0x4D3 firstB ra rb
  match slot with
  | none => (s.setReg aHubUcStatus (w64 (rb * 2 ^ 28 + ra * 2 ^ 24)), false)
  | some b =>
    let bs := if b then env.patchB.bytes else env.patchA.bytes
    let s := s.setReg aHubUcStatus (w64 (imgNum bs 0x10 4 * 2 ^ 32 + rb * 2 ^ 28 + ra * 2 ^ 24 + pchM bs * 2 ^ 16 + pchW bs * 2 ^ 5
      + 4 * b2n b + 2 * imgNum bs 9 1 + 1))
    ({ s with kst := { s.kst with patch := { words := pchWords bs, matches_ := pchMatches bs }
                                  rest := { s.kst.rest with patchSlot := b2n b } } }, true)

end Sys2Proof.Machine
end

