-- ==== Sys2Proof/Machine/WarmReturn.lean ====
section
/-! DEFINITION. The warm return (10 R277, 11 R315, R532, R533, 13 R374, 14 R403, 19 R495, R496): the check of the image, and what is
restored from the save area. Only memory itself is read, since every cache is empty. -/

namespace Sys2Proof.Machine
open Sys2Proof

/-- Doubleword of main memory. -/
def State.mem64 (s : State) (a : Nat) : Word := w64 (leNat (memBytes s.mem a 8))
/-- Doublewords of main memory. -/
def State.memWords (s : State) (a k : Nat) : List Word := (List.range k).map fun i => s.mem64 (a + 8 * i)

/-! ### The check (10 R277, 19 R495) -/

/-- The path that the header and the load area allow: 2 warm with the full image, 3 with persistent increments only, none for cold. -/
def State.warmCheck (s : State) : Option Nat :=
  let b := s.saveBase
  let hdr := memBytes s.mem b 4096
  let st := (s.mem64 (b + 8)).toNat
  let good := s.mem64 b = w64 hdrMagic && s.mem64 (b + 0xFF8) = w64 (crc32c (hdr.take 0xFF8)) && (st = 2 || st = 3)
    && bits (s.mem64 (b + 0x38)) 15 0 = 0 && s.mem64 (b + 0x30) = s.reg aMemMap
  if good && digest (memBytes s.mem s.kst.rest.load s.kst.rest.size) = s.kst.rest.digest then some (if st = 2 then 3 else 2) else none

/-- CAUSE, STATE, LOST_LINKS and DURATION of a header that can be read go to MEM_SAVE_STATUS (19 R495). -/
def State.headerCopy (s : State) : State :=
  let b := s.saveBase
  if s.mem64 b = w64 hdrMagic ∧ s.mem64 (b + 0xFF8) = w64 (crc32c (memBytes s.mem b 0xFF8)) then
    let a := aMemSaveStatus
    let s := (s.setFld a 55 48 (bits (s.mem64 (b + 0x18)) 7 0)).setFld a 47 46 (bits (s.mem64 (b + 8)) 1 0)
    (s.setFld a 39 24 (bits (s.mem64 (b + 0x38)) 15 0)).setFld a 23 0 (min ((s.mem64 (b + 0x50)).toNat / 256) 0xFFFFFF)
  else s

/-! ### Step 14: logical processors (19 R496) -/

/-- A formed triad's context from its slot. -/
def State.lpRestore (s : State) (n : Tri) : State :=
  if s.mode n = 0 then s
  else
    let b := s.saveBase + 0x10000 + 0x2000 * n.val
    let flags := s.mem64 (b + 0x1038)
    let a := { archOfItems (fun i => s.mem64 (b + 8 * i)) with escLocked := bit flags 3 }
    let s := s.updLp n fun l => { l with arch := a, voted := a, vsShadow := none, waiting := bit flags 2 }
    let s := (s.setReg (aTrdAseStatus n) (s.mem64 (b + 0x1008))).setReg (aTrdL2Lock n) (s.mem64 (b + 0x1010))
    let s := (List.range 4).foldl (fun s k => s.setReg (aTrdIntPend n k) (s.mem64 (b + 0x1018 + 8 * k))) s
    if bit flags 1 then (s.setMode n 5).setFld (aTrdExcStatus n) 2 2 1 else s

/-! ### Step 17: rings, sessions, journal (11 R315, R532, R533) -/

/-- Slots of an array of entries in which some byte of memory is not zero. -/
def State.usedSlots (s : State) (a size n : Nat) : List Nat :=
  (s.mem.filterMap fun c => if a ≤ c.1 ∧ c.1 < a + size * n then some ((c.1 - a) / size) else none).foldl
    (fun acc i => if acc.head? = some i then acc else i :: acc) [] |>.reverse

/-- A ring from its entry. -/
def State.ringBack (s : State) (persOnly : Bool) (r : Nat) : State :=
  let b := s.memWords (s.saveBase + 0x110000 + 64 * r) 8
  if bits (subW b 4) 50 48 = 0 then s
  else
    let noPers := smGet (fun _ => false) s.kst.rest.ringNoPers r
    let q := ringRestore b (!noPers)
    s.setRing r (some (if persOnly && noPers then { q with state := 2 } else q))

/-- A session from its entry, with the acknowledged sequence numbers that its journal entries show (12 R333). -/
def State.sessBack (s : State) (i : Nat) : State :=
  let b := s.memWords (s.saveBase + 0x210000 + 256 * i) 32
  let w := subW b 1
  let st := bits w 19 16
  if st = 0 then s
  else
    let x : Session :=
      { name := subW b 0, epoch := bits w 63 32, rev := bits w 27 24, sstate := if st = 4 then 4 else 3, part := bits w 13 8
        revMask := bits w 7 0, nextSeq := (subW b 2).toNat, ackMark := (subW b 3).toNat, ackedAbove := []
        paths := (pathsOf b).map fun p => if p.valid then { p with pstate := 3 } else p
        loggedIn := true, wait := none, noPathTicks := bits (subW b 12) 15 0
        resume := if st = 4 then none else some (Ival.start (if s.fld aCssCfg 63 32 = 0 then 50000 else s.fld aCssCfg 63 32)) }
    s.setSession i (some x)

/-- The journal scan of partition p: entries found are held by the accelerator again. -/
def State.scanJrnl (s : State) (p : Nat) : State :=
  if !s.flag (aCssJrnl p) 63 then s
  else
    let n := 2 ^ s.fld (aCssJrnl p) 4 0
    (s.usedSlots (s.jrnlAddr p 0) 128 n).foldl (fun s k =>
      let j := jentOf (s.memWords (s.jrnlAddr p k) 16)
      if 1 ≤ j.state ∧ j.state ≤ 3 then s.setJent p k j else s) s

/-- Sequence numbers above ACK_MARK that no longer wait for an answer. -/
def State.ackedBack (s : State) (i : Nat) (x : Session) : List Nat :=
  let open_ := (s.jents.filter fun e => e.2.2.session = i && e.2.2.epoch = x.epoch && e.2.2.state = 2).map fun e => e.2.2.seq
  if open_.isEmpty then [] else
    ((List.range (x.nextSeq - x.ackMark - 1)).map fun k => x.ackMark + 1 + k).filter fun q => !open_.contains q

/-- A watch is placed again on the recorded line, and the line is read (11 R532). -/
def State.watchBack (s : State) (e : Nat × Nat) : State :=
  let s := { s with css := { s.css with watch := smSet (fun _ => none) s.css.watch e.1 (some { line := e.2 - 1, stale := false }) } }
  s.rereadLine e.1

/-- Step 17 of a warm return. -/
def State.cssBack (s : State) (persOnly : Bool) : State :=
  let b := s.saveBase
  let s := (s.usedSlots (b + 0x110000) 64 16384).foldl (fun s r => s.ringBack persOnly r) s
  let s := s.kst.rest.dblLine.foldl (fun s e => s.watchBack e) s
  let s := (s.usedSlots (b + 0x210000) 256 4096).foldl (fun s i => s.sessBack i) s
  let s := allParts.foldl (fun s p => s.scanJrnl p) s
  let s := s.sessionList.foldl (fun s e => s.setSession e.1 (some { e.2 with ackedAbove := s.ackedBack e.1 e.2 })) s
  let s := { s with css := { s.css with deferred := 2 ^ 33 - 2 } }
  s.setFld aCssStatus 48 48 1

/-! ### Step 18: key store and engines (13 R374, 14 R403, 10 R275) -/

/-- The key of slot k from its token. -/
def State.keyBack (s : State) (k : Nat) : State :=
  let bs := memBytes s.mem (s.saveBase + 0x90000 + 64 * k) 64
  match tokenOpen 1 (s.slotOwner k) saveRks bs with
  | some x => s.setKeySlot k (some x)
  | none => s

/-- What the journal kept of a resident request (log entry 21). -/
def State.engKept (s : State) (unit k : Nat) : List Word := smGet (fun _ => []) s.kst.rest.engSubs (8 * unit + k)

/-- The request that an entry's first doubleword names. -/
def engReqOf (w : Word) (sub : List Word) (rt : Bool) : EngReq :=
  { ring := bits w 29 16, part := bits w 13 8, rt := rt, tag := bits w 63 32, sub := sub, warm := true }

/-- Is a ring real-time? -/
def State.ringRt (s : State) (r : Nat) : Bool := match s.ring r with | some q => q.rt | none => false

/-- A resident of a compression engine from entry k of slot e. -/
def State.cmpEntry (s : State) (e k : Nat) : CmpReq :=
  let a := s.saveBase + 0x50000 + 0x4000 * e + 0x40 + 0x600 * k
  let w := s.mem64 a
  let kept := s.engKept e k
  let sub := kept.take 8
  let used := (subW kept 8).toNat
  let blank : CmpReq := { req := engReqOf w sub (s.ringRt (bits w 29 16)), blk := [], codec := none, ctl := 0, limit := 0, src := 0
                          srcLen := subLen sub, dst := 0, dstLen := 0, wrote := 0, used := 0, needHist := 0 }
  if bit w 0 then blank
  else
    let blk := s.memWords (a + 0x40) 8
    let ctx := memBytes s.mem (a + 0x200) 1024
    let cw := wordsOf 128 ctx
    { blank with blk := blk, codec := some (codecOf ctx []), ctl := subW cw 1, limit := (subW cw 2).toNat, src := (subW blk 1).toNat
                 srcLen := subLen sub - used, dst := (subW blk 2).toNat, dstLen := (subW blk 3).toNat, used := used
                 wrote := (subW kept 9).toNat, needHist := if subW blk 6 = 0 then 0 else min 32768 (subW cw 10).toNat }

/-- It goes to its engine, or to another available one; without one it stays, to be ended after release (19 R496). -/
def State.cmpBack1 (s : State) (e k : Nat) : State :=
  let q := s.cmpEntry e k
  let room := (List.range 8).filter fun e => s.cmpAvail e && decide ((s.cmpRes e).length < 8)
  let u := if s.cmpAvail e then e else (leastLoaded (fun e => (s.cmpRes e).length) room).getD e
  s.setCmpRes u (s.cmpRes u ++ [q])

/-- A message from entry k of pipeline slot e, and whether it was suspended; none for one that starts again. -/
def State.cphEntry (s : State) (e k : Nat) : EngReq × Bool × Option Msg :=
  let a := s.saveBase + 0x50000 + 0x4000 * (8 + e) + 0x40 + 0x200 * k
  let w := s.mem64 a
  let kept := s.engKept (8 + e) k
  let sub := kept.take 8
  let r := engReqOf w sub (s.ringRt (bits w 29 16))
  let used := (subW kept 8).toNat
  let wrote := (subW kept 9).toNat
  let blk := s.memWords (a + 0x40) 12
  let m := Msg.fresh blk r.part ((subW blk 1).toNat + used) (subLen sub - used) ((subW blk 2).toNat + wrote) ((subW blk 3).toNat - wrote)
  let m := { m with used := used, wrote := wrote, iv := (subW kept 10).toNat + 2 ^ 64 * (subW kept 11).toNat
                    status := (subW kept 12).toNat }
  (r, bit w 1, if bit w 0 then none else
    some ((m.resumeWith Config.saveKey true (memBytes s.mem (a + 0x100) 256)).getD (m.over 0x7F 0x40)))

/-- It goes to its pipeline, or to another available one; without one it is over, to be reported after release. One that starts again
is placed anew, ahead of the queued requests. -/
def State.cphBack1 (s : State) (e k : Nat) : State :=
  let (r, suspended, msg) := s.cphEntry e k
  match msg with
  | none => { s with cph := { s.cph with queue := s.cph.queue ++ [r] } }
  | some m =>
    let q := fun (m : Msg) => some ({ req := r, cls := b2n (r.rt || bit (subW m.blk 0) 39), msg := some m } : CphReq)
    let at_ := fun (s : State) (u : Nat) (susp : Bool) (m : Msg) =>
      s.setPipe u (if susp then { s.pipe u with susp := q m } else { s.pipe u with active := q m })
    if s.cphAvail e then at_ s e suspended m
    else match (List.range 8).find? fun u => s.cphAvail u && (s.pipe u).active.isNone with
      | some u => at_ s u false m
      | none => match (List.range 8).find? fun u => s.cphAvail u && (s.pipe u).susp.isNone with
        | some u => at_ s u true m
        | none => at_ s e suspended (m.over 0x7F 0x40)

/-- A half of the queued-request region. -/
def State.queueBack (s : State) (first : Nat) : List EngReq :=
  (s.usedSlots (s.saveBase + 0x310000 + 128 * first) 128 4096).filterMap fun i =>
    let a := s.saveBase + 0x310000 + 128 * (first + i)
    let w := s.mem64 a
    if bit w 0 then some (engReqOf w (s.memWords (a + 0x40) 8) (bit w 1)) else none

/-- Step 18 of a warm return: units that have failed are marked already. -/
def State.enginesBack (s : State) : State :=
  let b := s.saveBase
  let s := (s.usedSlots (b + 0x90000) 64 8192).foldl (fun s k => s.keyBack k) s
  let cnt := fun (s : State) (u : Nat) (m : Nat) => (s.mem64 (b + 0x50000 + 0x4000 * u)).toNat % (m + 1)
  let s := (List.range 8).foldl (fun s e => (List.range (cnt s e 15)).foldl (fun s k => s.cmpBack1 e k) s) s
  let s := (List.range 8).foldl (fun s e => (List.range (cnt s (8 + e) 3)).foldl (fun s k => s.cphBack1 e k) s) s
  { s with cmp := { s.cmp with queue := s.queueBack 0 }, cph := { s.cph with queue := s.cph.queue ++ s.queueBack 4096 } }

end Sys2Proof.Machine
end

