-- ==== Sys2Proof/Machine/Keystone.lean ====
section
/-! DEFINITION. Keystone (19 R482 to R498): the twenty steps of a start, failed steps, and the release. A start is one command: what the
environment brings to it is the command's operand, and no TOD passes in it. -/

namespace Sys2Proof.Machine
open Sys2Proof

/-- How a step ends (19 R482, R484). -/
inductive StepEnd where
  | pass | excluded | failed
  deriving DecidableEq, Repr

/-- Passed, or passed with units excluded. -/
def endOf (excl : Bool) : StepEnd := if excl then .excluded else .pass

/-- A unit that a step excludes is reported (19 R484). -/
def State.exclude (s : State) (step unit : Nat) : State := s.raise { src := 0x4DC, idA := step, idB := unit }

/-- Bit mask of a list of units. -/
def unitMask (l : List Nat) : Nat := l.foldl (fun m u => m ||| 2 ^ u) 0

/-- The journal besides its register fields, changed. -/
def State.updRest (s : State) (f : Jrnl → Jrnl) : State := { s with kst := { s.kst with rest := f s.kst.rest } }

/-! ### Steps 4 to 11 -/

/-- Step 4 (18 R459, R460): the reference, and the PLLs. A triad's PLL excludes the triad; any other one fails the step. -/
def State.step4 (s : State) (env : StartEnv) (alt : Bool) : State × StepEnd :=
  let s := if alt then s.setFld aClkStatus 2 0 2
    else if s.refState ≠ 0 then s
    else if s.flag aClkStatus 3 then s.setFld aClkStatus 2 0 1
    else (s.setFld aClkStatus 2 0 2).raise { src := 0x4D4 }
  let s := s.pllCount 0 1
  let bad := env.badPlls.filter fun i => decide (i < 32)
  let s := bad.foldl (fun s n => s.raise { src := 0x4DC, idA := 4, unit := n }) s
  (s, if env.badPlls.any fun i => decide (32 ≤ i) && decide (i < 49) then .failed else endOf (!bad.isEmpty))

/-- Step 8: dies whose link does not train are excluded. -/
def State.step8 (s : State) (env : StartEnv) : State × StepEnd :=
  let bad := (List.range 4).filter env.badDies.contains
  let s := bad.foldl (fun s d => s.raise { src := 0x4DC, idA := 8, unit := d }) s
  let s := s.updRest fun j => { j with exclDies := unitMask bad }
  (s, if bad.length = 4 then .failed else endOf (!bad.isEmpty))

/-- Core c of die d is excluded by the journal. -/
def State.coreOut (s : State) (d c : Nat) : Bool := s.kst.rest.exclCores.testBit (32 * d + c)

/-- Step 9: core self-tests; cores that failed before stay excluded. -/
def State.step9 (s : State) (env : StartEnv) : State × StepEnd :=
  let dies := (List.range 4).filter fun d => !s.kst.rest.exclDies.testBit d
  let new := (dies.flatMap fun d => ((List.range 26).map fun c => 32 * d + c)).filter fun u =>
    env.badCores.contains u && !s.kst.rest.exclCores.testBit u
  let s := new.foldl (fun s u => s.raise { src := 0x4DC, idA := 9, unit := u }) s
  let s := s.updRest fun j => { j with exclCores := j.exclCores ||| unitMask new }
  let good := dies.any fun d => (List.range 26).any fun c => !s.coreOut d c
  (s, if good then endOf (s.kst.rest.exclCores ≠ 0) else .failed)

/-- Working cores of the triads of die d in formation order, spares filling the gaps, the lower first (06 R143, R166, 19 R482): the
cores of each triad, and the spares used. -/
def formDie (out : Nat → Bool) (skip : Nat → Bool) : List (List Nat) × List Nat :=
  (List.range 8).foldl (fun (acc : List (List Nat) × List Nat) k =>
    if skip k then (acc.1 ++ [[]], acc.2)
    else
      let own := [3 * k, 3 * k + 1, 3 * k + 2].filter fun c => !out c
      let free := [24, 25].filter fun c => !out c && !acc.2.contains c
      let used := free.take (3 - own.length)
      (acc.1 ++ [own ++ used], acc.2 ++ used)) ([], [])

/-- A triad formed from its cores: MODE 0x1, 0x4 or 0x0. -/
def State.formTriad (s : State) (n : Tri) (cs : List Nat) : State :=
  let c := fun i => cs.getD i 0x1F
  let s := (s.setCores n (c 0) (c 1) (c 2)).setFld (aTrdState n) 28 24 0x1F
  s.setMode n (if cs.length = 3 then 1 else if cs.length = 2 then 4 else 0)

/-- Triads of the four dies are formed. -/
def State.formAll (s : State) (env : StartEnv) : State :=
  (List.finRange 4).foldl (fun s d =>
    let dieOut := s.kst.rest.exclDies.testBit d.val
    let (ts, used) := formDie (s.coreOut d.val) fun k => dieOut || env.badPlls.contains (8 * d.val + k)
    let s := (dieTri d).foldl (fun s n => s.formTriad n (ts.getD (n.val % 8) [])) s
    let n0 := triOf (8 * d.val)
    [0, 1].foldl (fun s sp =>
      let bad := dieOut || s.coreOut d.val (24 + sp)
      let s := if used.contains (24 + sp) then
          let t := ((List.range 8).find? fun k => (ts.getD k []).contains (24 + sp)).getD 0
          s.setSpare (triOf (8 * d.val + t)) sp 2
        else s.setSpare n0 sp (if bad then 3 else 0)
      s.spareOn n0 sp (used.contains (24 + sp))) s) s

/-- The boot triad: the lowest triad in MODE 0x1, else in MODE 0x4, whose domain is ON (19 R494). -/
def State.bootPick (s : State) (ok : Tri → Bool) : Option Tri :=
  let can := fun (m : Nat) (n : Tri) => s.mode n = m && s.domState n.val ≠ 3 && ok n
  match allTri.find? (can 1) with
  | some n => some n
  | none => allTri.find? (can 4)

/-- BOOT_TRIAD. -/
def State.boot (s : State) : Tri := triOf (s.fld aKstStatus 23 19)

/-- The boot triad is chosen among those allowed. -/
def State.chooseBoot (s : State) (ok : Tri → Bool) (e : StepEnd) : State × StepEnd :=
  match s.bootPick ok with
  | none => (s, .failed)
  | some n => (s.setFld aKstStatus 23 19 n.val, e)

/-- Step 10. -/
def State.step10 (s : State) (env : StartEnv) : State × StepEnd :=
  let s := s.formAll env
  let s := (List.finRange 4).foldl (fun s d => s.vddSet d) s
  s.chooseBoot (fun _ => true) .pass

/-! ### Step 12: memory links and map (10 R258, R260) -/

/-- Link m trains. -/
def State.trainLink (s : State) (m : Nat) (e : LinkEnv) (alt : Bool) : State :=
  let a := aMemLinkStatus m
  if e.sized = false ∨ s.domState (52 + m / 4) = 3 then s.setReg a 0
  else if e.version ≠ 2 ∧ e.version ≠ 3 then ((s.setReg a 0).setFld a 2 0 4).raise { src := srcLink m 4, idA := m }
  else if e.width < 4 then (s.setReg a 0).raise { src := srcLink m 4, idA := m }
  else
    let saved := s.kst.rest.memTrain.testBit m && !alt && e.saved
    let w := if 8 ≤ e.width then 8 else 4
    let s := s.setReg a (w64 ((if saved then 1 else 2) * 2 ^ 24 + e.cap % 256 * 2 ^ 16 + w * 2 ^ 8 + e.version * 2 ^ 4 + (if w = 8 then 2 else 3)))
    s.updRest fun j => { j with memTrain := j.memTrain ||| 2 ^ m }

/-- The map: for each capacity the longest power of two of its lowest links; the longest of those, the set that differs at a lower
link first on a tie. -/
def mapPick (cap : Nat → Nat) : List Nat :=
  let sets := (List.range 16).map fun m =>
    if cap m = 0 ∨ (List.range m).any fun k => cap k = cap m then []
    else
      let l := (List.range 16).filter fun k => cap k = cap m
      l.take (if 16 ≤ l.length then 16 else if 8 ≤ l.length then 8 else if 4 ≤ l.length then 4 else if 2 ≤ l.length then 2 else 1)
  -- the first link of each set is where it differs from every other one, so the first set of the greatest length is chosen
  sets.foldl (fun b l => if b.length < l.length then l else b) []

/-- log2 of a map's size. -/
def log2Of (n : Nat) : Nat := if n = 16 then 4 else if n = 8 then 3 else if n = 4 then 2 else if n = 2 then 1 else 0

/-- Step 12. -/
def State.step12 (s : State) (env : StartEnv) (alt : Bool) : State × StepEnd :=
  let le := fun m => env.links.getD m { cap := 0, version := 0, width := 0, saved := false, kept := false }
  let s := (List.range 16).foldl (fun s m => s.trainLink m (le m) alt) s
  let cap := fun m => if s.linkUsable m then s.fld (aMemLinkStatus m) 23 16 else 0
  let set := mapPick cap
  let fitted := (List.range 16).filter fun m => (le m).cap ≠ 0
  let out := fitted.filter fun m => !set.contains m
  let s := out.foldl (fun s m => (if s.linkUsable m then s.setFld (aMemLinkStatus m) 2 0 0 else s).exclude 12 m) s
  let s := s.updRest fun j => { j with exclLinks := unitMask out }
  if set.isEmpty then (s, .failed)
  else
    let s := s.setReg aMemMap (w64 (2 ^ 63 + cap (set.headD 0) * 2 ^ 40 + log2Of set.length * 2 ^ 32 + unitMask set * 2 ^ 16))
    (s, endOf (!out.isEmpty))

/-! ### Steps 13 and 14: the path (19 R495, 10 R277) -/

/-- Is the path warm? -/
def State.warmPath (s : State) : Bool := decide (2 ≤ s.fld aKstStatus 13 12)

/-- The path is cold. -/
def State.goCold (s : State) : State :=
  let s := (s.setFld aKstStatus 13 12 1).coldFields
  { s with kst := { s.kst with dram := 0 } }

/-- Step 13: warm where the save area is valid and every buffer of the map holds its DRAM and reports that it kept it. A buffer that the
save did not command enters self-refresh by itself, so its report alone counts (18 R462, 19 R480; DESIGN CHOICE, log entry 38). -/
def State.step13 (s : State) (env : StartEnv) : State × StepEnd :=
  let kept := s.mapLinks.all fun m => s.kst.dram.testBit m && (match env.links[m]? with | some e => e.kept | none => false)
  (if s.saveArea && kept then s else s.goCold, .pass)

/-- The cold memory test (19 R483): memory is zero, and failing granules are poisoned. -/
def State.memTest (s : State) (env : StartEnv) : State :=
  env.badGranules.foldl (fun s g => s.memUe (32 * g)) { s with mem := [], poison := [], kst := { s.kst with dram := unitMask s.mapLinks } }

/-- Step 14. COLD_FALLBACK says that this start is cold, by the header or by R495; PERS_ONLY that STATE was 2. -/
def State.step14 (s : State) (env : StartEnv) : State × StepEnd :=
  let s := (s.setFld aMemSaveStatus 45 45 0).setFld aMemSaveStatus 44 44 0
  if s.fld aKstStatus 13 12 = 1 then
    ((s.setFld aMemSaveStatus 44 44 1).memTest env, .pass)
  else
    let s := s.headerCopy
    match s.warmCheck with
    | none =>
      let b := s.saveBase
      let s := s.raise { src := 0x4DF, idA := (s.mem64 (b + 8)).toNat, idB := (s.mem64 (b + 0x18)).toNat }
      ((s.setFld aMemSaveStatus 44 44 1).goCold.memTest env, .pass)
    | some path =>
      let s := (s.setFld aKstStatus 13 12 path).setFld aMemSaveStatus 45 45 (b2n (path = 3))
      let s := allTri.foldl (fun s n => s.lpRestore n) s
      s.chooseBoot (fun n => !s.checkstopped n) .pass

/-! ### Steps 15, 16, 18: optional units -/

/-- Step 15: Span ports. Nothing is sent before release. -/
def State.step15 (s : State) (env : StartEnv) : State × StepEnd :=
  let st := fun (s : State) p => if s.domState (48 + p / 8) = 3 then 0 else env.ports.getD p 0
  let s' := (List.range 32).foldl (fun s p =>
    let x := st s p
    if x = 2 ∨ x = 3 then s.setFld (aSpnPortStatus p) 2 0 x
    else if x = 4 then ((s.setFld (aSpnPortStatus p) 2 0 4).raise { src := srcSpan p 2, idA := p }).exclude 15 p
    else s) s
  let up := (List.range 32).filter fun p => st s p = 2 || st s p = 3
  let bad := (List.range 32).filter fun p => st s p = 4
  let s' := s'.updRest fun j => { j with spnTrain := j.spnTrain ||| unitMask up, exclPorts := unitMask bad }
  (s', endOf (!bad.isEmpty))

/-- Step 16: PCIe links, in the division that PCI_PORT_CFG gives now (12 R336). -/
def State.step16 (s : State) (env : StartEnv) : State × StepEnd :=
  let s := (List.range 4).foldl (fun s n =>
    { s with pci := { s.pci with division := smSet (fun _ => 0) s.pci.division n (s.fld (aPciPortCfg n) 1 0) } }) s
  let st := fun k => if s.domState (56 + k / 4) = 3 || !s.rootOk (k / 4) (k % 4) then 0 else env.roots.getD k 0
  let up := (List.range 16).filter fun k => st k = 1
  let bad := (List.range 16).filter fun k => st k = 2
  let s := bad.foldl (fun s k => s.exclude 16 k) { s with pci := { s.pci with up := unitMask up } }
  (s.updRest fun j => { j with exclRoots := unitMask bad }, endOf (!bad.isEmpty))

/-- Step 17. -/
def State.step17 (s : State) : State × StepEnd :=
  if s.warmPath then (s.cssBack (s.fld aKstStatus 13 12 = 3), .pass) else (s, .pass)

/-- Step 18: engines, pipelines, random source; on a warm path their work. -/
def State.step18 (s : State) (env : StartEnv) : State × StepEnd :=
  let es := (List.range 8).filter env.badEngines.contains
  let ps := (List.range 8).filter env.badPipes.contains
  let s := (s.setFld aCmpStatus 15 8 (unitMask es)).setFld aCphStatus 15 8 (unitMask ps)
  let s := es.foldl (fun s e => (s.raise { src := srcCmp e 3, idA := e }).exclude 18 e) s
  let s := ps.foldl (fun s p => (s.raise { src := srcCph p 3, idA := p }).exclude 18 (8 + p)) s
  let s := s.updRest fun j => { j with exclEngines := unitMask es, exclPipes := unitMask ps }
  let s := if s.domState 61 = 3 then s else if env.rngOk then s.drbgInit else s.rngFail 3
  (if s.warmPath then s.enginesBack else s, endOf (!(es.isEmpty && ps.isEmpty)))

/-! ### Steps 19 and 20 (19 R493, R494, R497) -/

/-- Step 19. -/
def State.step19 (s : State) (env : StartEnv) : State × StepEnd :=
  if s.warmPath then (s, .pass)
  else
    let bs := s.fwBytes env
    let lo := imgNum bs 0x18 8
    let hi := lo + fwSize bs
    let clash := s.saveArea && decide (lo < s.saveBase + 2 ^ 24) && decide (s.saveBase < hi)
    if lo % 2 ^ 21 ≠ 0 || decide (s.memSize < hi) || clash then (s, .failed)
    else
      let s := s.putDirect lo (fwBody bs)
      (s, if digest (memBytes s.mem lo (fwSize bs)) = digest (fwBody bs) then .pass else .failed)

/-- STATE of the header becomes 0: there is no image (10 R278). -/
def State.headerClear (s : State) : State :=
  if !s.saveArea then s
  else
    let b := s.saveBase
    let old := if s.mem64 b = w64 hdrMagic then memBytes s.mem b 0xFF8 else leBytes 8 hdrMagic ++ List.replicate 0xFF0 0
    let bs := old.take 8 ++ List.replicate 8 0 ++ old.drop 16
    s.putDirect b (bs ++ leBytes 8 (crc32c bs))

/-- What every formed triad is at release: held in MODE 0x6, or 0x4 held stopped; a checkstopped one stays. -/
def State.holdTriad (s : State) (n : Tri) : State :=
  if s.mode n = 1 then s.setMode n 6
  else if s.mode n = 4 then s.setFld (aTrdState n) 30 30 1
  else s

/-- The boot LP starts at an address at level M with PART.ID 0; its other registers as they stand (19 R494, R497). -/
def State.bootStart (s : State) (pc : Word) : State :=
  let pc := putBits pc 3 0 0
  let n := s.boot
  let a := { (s.lp n).voted with
    pc := pc, npc := pc + 16, delay := false, psw := Arch.reset.psw, part := 0, shadows := [], progress := 0, nmtIs := false, escIs := false
    handlerFirst := false }
  let s := (s.setMode n (if s.mode n = 6 then 1 else s.mode n)).setFld (aTrdState n) 30 30 0
  s.updLp n fun l => { l with arch := a, voted := a, waiting := false, released := true }

/-- A ring restored while DRAINING keeps the command busy (11 R533). -/
def State.drainBusy (s : State) : State :=
  if s.ringList.any fun e => e.2.state = 3 then s.setFld aCssRcmdStatus 63 63 1 else s

/-- Step 20. The partition settings of the journal are in force: tick boundaries have passed since step 3 (DEDUCED, log entry 33). -/
def State.step20 (s : State) (env : StartEnv) : State :=
  let warm := s.warmPath
  let bs := s.fwBytes env
  let s := (s.headerClear.partApply).overcommit
  let zero := archOfItems fun _ => 0
  let s := allTri.foldl (fun s n =>
    let s := s.holdTriad n
    if warm then s else s.updLp n fun l => { l with arch := zero, voted := zero }) s
  let s := if warm then s.bootStart (w64 (s.kst.rest.load + s.kst.rest.warm))
    else (s.updLp s.boot fun l => { l with arch := Arch.reset, voted := Arch.reset }).bootStart
      (w64 (imgNum bs 0x18 8 + imgNum bs 0x20 8))
  let s := if warm then s else s.updRest fun j => { j with
    digest := digest (fwBody bs), load := imgNum bs 0x18 8, size := fwSize bs, warm := imgNum bs 0x28 8 }
  let s := (s.updRest fun j => { j with retryOpt := false }).clearAttempts
  let s := (s.setFld aKstStatus 8 8 1).flashWrite
  let s := { s with kst := { s.kst with phase := .released }, fcu := { s.fcu with errHold := false } }
  let s := (List.range 32).foldl (fun s p => if s.portOk p then
      let st := s.portState p
      (s.setFld (aSpnPortStatus p) 2 0 1).portUp p st
    else s) s
  s.drainBusy

/-! ### A start -/

/-- Is a step optional? -/
def stepOptional (n : Nat) : Bool := n = 15 || n = 16 || n = 18

/-- Is the alternative of a step used at this start (19 R482)? -/
def State.stepAlt (s : State) (n : Nat) : Bool :=
  if n = 9 then s.kst.rest.exclCores ≠ 0
  else if n = 15 then s.kst.rest.exclPorts ≠ 0
  else if n = 16 then s.kst.rest.exclRoots ≠ 0
  else n ∈ [3, 4, 5, 6, 7, 8, 12, 19] && decide (0 < s.attempts n)

/-- What a step does. -/
def State.kstStep (s : State) (env : StartEnv) (n : Nat) (alt : Bool) : State × StepEnd :=
  match n with
  | 1 => (s, .pass)
  | 2 =>
    -- HUB_TICK_LAST_TOD is the TOD at which tick 0 begins: DESIGN CHOICE (log entry 33)
    let s := s.xtalStable
    (s.setReg aHubTickLastTod (w64 s.tod) |> fun s => { s with tick := { Tick.reset with running := true } }, .pass)
  | 3 => (s.journalLoad, .pass)
  | 4 => s.step4 env alt
  | 5 => (s, .pass)
  | 6 => let (s, ok) := s.fwCheck env (decide (0 < s.attempts 19)); (s, if ok then .pass else .failed)
  | 7 => let (s, ok) := s.patchLoad env alt; (s, if ok then .pass else .failed)
  | 8 => s.step8 env
  | 9 => s.step9 env
  | 10 => s.step10 env
  | 11 => (s, .pass)
  | 12 => s.step12 env alt
  | 13 => s.step13 env
  | 14 => s.step14 env
  | 15 => s.step15 env
  | 16 => s.step16 env
  | 17 => s.step17
  | 18 => s.step18 env
  | 19 => s.step19 env
  | _ => (s.step20 env, .pass)

/-- Power domains of an optional step's units (19 R486). -/
def stepDoms (n : Nat) : List Nat := if n = 15 then [48, 49, 50, 51] else if n = 16 then [56, 57, 58, 59] else [44, 45, 46, 47, 61]

/-- RESULT, ALT and TIME of a step. -/
def State.stepRecord (s : State) (n result time : Nat) (alt : Bool) : State :=
  let a := aKstStep n
  ((s.setFld a 4 2 result).setFld a 5 5 (b2n alt)).setFld a 63 32 (min time 0xFFFFFFFF)

/-- An optional step is left out: its units are disabled and their domains off (19 R486). -/
def State.stepSkip (s : State) (n : Nat) : State :=
  (stepDoms n).foldl (fun s d =>
    ({ s with pwr := { s.pwr with absent := smSet (fun _ => false) s.pwr.absent d true } }).setDom d 3) s

/-- An optional step fails. -/
def State.optFailed (s : State) (n : Nat) : State :=
  let c := smGet (fun _ => 0) s.kst.rest.optFail n + 1
  let s := s.updRest fun j => { j with optFail := smSet (fun _ => 0) j.optFail n c }
  (s.stepSkip n).raise { src := 0x4DB, idA := n, idB := c }

/-- One step of a start; `limit` is a step that exceeds its limit. The Bool says whether the start goes on. -/
def State.kstOne (s : State) (env : StartEnv) (limit : Option Nat) (n : Nat) : State × Bool :=
  let s := s.setFld aKstStatus 4 0 n
  let alt := s.stepAlt n
  let time := env.times.getD (n - 1) 0
  if stepOptional n && decide (3 ≤ smGet (fun _ => 0) s.kst.rest.optFail n) && !s.kst.rest.retryOpt then
    ((s.stepSkip n).stepRecord n 4 0 false, true)
  else
    let s0 := if n = 20 then s.stepRecord 20 1 time alt else s
    let (s', e) := if limit = some n then (s, .failed) else s0.kstStep env n alt
    match e with
    | .failed =>
      if stepOptional n then ((s'.optFailed n).stepRecord n 4 time alt, true) else ((s'.stepRecord n 3 time alt).stepFail n, false)
    | _ =>
      let s' := if n = 20 then s' else s'.stepRecord n (if e = .excluded then 2 else 1) time alt
      let s' := if stepOptional n then s'.updRest fun j => { j with optFail := smSet (fun _ => 0) j.optFail n 0 } else s'
      (if 5 ≤ n ∧ n ≠ 20 then s'.logHeld else s', true)

/-- Steps from n on, k of them. -/
def State.kstRun (s : State) (env : StartEnv) (limit : Option Nat) : Nat → Nat → State
  | 0, _ => s
  | k + 1, n =>
    match s.kstOne env limit n with
    | (s, true) => s.kstRun env limit k (n + 1)
    | (s, false) => s

/-- A start that is due runs, RESET_N, PWROK and PF_WARN_N being inactive. In clock hold the steps wait (19 R499). -/
def State.startRun (s : State) (env : StartEnv) (limit : Option Nat) : State :=
  match s.kst.phase with
  | .due first =>
    if s.refState = 4 || s.therm.stopped then s
    else State.kstRun { s with kst := { s.kst with pwrok := true, resetN := true, pfWarn := false } } env limit (21 - first) first
  | _ => s

end Sys2Proof.Machine
end

