-- ==== Sys2Proof/Machine/IntInsn.lean ====
section
/-! DEFINITION. What each instruction of the integer group does in its slot: INT-R, the I and U formats, the field and checksum
groups (02 R57 to R63, 03 R74 to R80). -/

namespace Sys2Proof.Machine
open Sys2Proof

/-- Destination g rd; writes to g0 are exempt from 02 R47. -/
def dG (rd : Reg) : List Dst := if rd.toNat = 0 then [] else [.g rd.toNat]

/-- Operand g r of a slot. -/
def SlotCtx.g (c : SlotCtx) (r : Reg) : Word := c.arch.rdG r.toNat

/-- An instruction that writes v to g rd. -/
def effG (t : Nat) (rd : Reg) (srcs : List Reg) (v : Word) : SlotEff :=
  { slot := 0, time := t, dests := dG rd, reads := srcs.map fun r => .g r.toNat, gw := [(rd.toNat, v)] }

/-- Format R with result f ra rb and execute time t (03 R74). -/
def effR (f : Word → Word → Word) (t : Nat) (rd ra rb : Reg) (c : SlotCtx) : SlotEff := effG t rd [ra, rb] (f (c.g ra) (c.g rb))

/-- Format R with one source. -/
def effR1 (f : Word → Word) (rd ra : Reg) (c : SlotCtx) : SlotEff := effG 1 rd [ra] (f (c.g ra))

/-- An instruction whose encoding is unassigned (02 R58). -/
def effReserved (g : Group) : SlotEff := { slot := 0, group := g, reserved := true }

/-! ### INT-R -/

/-- `add`; the word 0x0000_0000 is NOP (02 R44). -/
def effAdd (rd ra rb : Reg) (c : SlotCtx) : SlotEff :=
  { effR (fun a b => a + b) 1 rd ra rb c with nop := rd.toNat = 0 && ra.toNat = 0 && rb.toNat = 0 }
/-- `sub`. -/
def effSub : Reg → Reg → Reg → SlotCtx → SlotEff := effR (fun a b => a - b) 1
/-- `and`. -/
def effAnd : Reg → Reg → Reg → SlotCtx → SlotEff := effR (fun a b => a &&& b) 1
/-- `or`. -/
def effOr : Reg → Reg → Reg → SlotCtx → SlotEff := effR (fun a b => a ||| b) 1
/-- `xor`. -/
def effXor : Reg → Reg → Reg → SlotCtx → SlotEff := effR (fun a b => a ^^^ b) 1
/-- `andn`. -/
def effAndn : Reg → Reg → Reg → SlotCtx → SlotEff := effR (fun a b => a &&& ~~~b) 1
/-- `sll`. -/
def effSll : Reg → Reg → Reg → SlotCtx → SlotEff := effR (fun a b => a <<< shAmt b) 1
/-- `srl`. -/
def effSrl : Reg → Reg → Reg → SlotCtx → SlotEff := effR (fun a b => a >>> shAmt b) 1
/-- `sra`. -/
def effSra : Reg → Reg → Reg → SlotCtx → SlotEff := effR (fun a b => a.sshiftRight (shAmt b)) 1
/-- `rol`. -/
def effRol : Reg → Reg → Reg → SlotCtx → SlotEff := effR (fun a b => rol a (shAmt b)) 1
/-- `slt`. -/
def effSlt : Reg → Reg → Reg → SlotCtx → SlotEff := effR (fun a b => boolW (sLt a b)) 1
/-- `sltu`. -/
def effSltu : Reg → Reg → Reg → SlotCtx → SlotEff := effR (fun a b => boolW (uLt a b)) 1
/-- `min`. -/
def effMin : Reg → Reg → Reg → SlotCtx → SlotEff := effR (fun a b => if sLt a b then a else b) 1
/-- `max`. -/
def effMax : Reg → Reg → Reg → SlotCtx → SlotEff := effR (fun a b => if sLt a b then b else a) 1
/-- `minu`. -/
def effMinu : Reg → Reg → Reg → SlotCtx → SlotEff := effR (fun a b => if uLt a b then a else b) 1
/-- `maxu`. -/
def effMaxu : Reg → Reg → Reg → SlotCtx → SlotEff := effR (fun a b => if uLt a b then b else a) 1

/-- A conditional move: rd is written only when the condition on rb holds, and counts as written for 02 R47 either way (04
R104). -/
def effCmov (cond : Word → Bool) (rd ra rb : Reg) (c : SlotCtx) : SlotEff :=
  if cond (c.g rb) then effR (fun a _ => a) 1 rd ra rb c else { effR (fun a _ => a) 1 rd ra rb c with gw := [] }
/-- `cmov.z`. -/
def effCmovZ : Reg → Reg → Reg → SlotCtx → SlotEff := effCmov fun b => b = 0
/-- `cmov.nz`. -/
def effCmovNz : Reg → Reg → Reg → SlotCtx → SlotEff := effCmov fun b => b ≠ 0
/-- `sel.z`. -/
def effSelZ : Reg → Reg → Reg → SlotCtx → SlotEff := effR (fun a b => if b = 0 then a else 0) 1
/-- `sel.nz`. -/
def effSelNz : Reg → Reg → Reg → SlotCtx → SlotEff := effR (fun a b => if b = 0 then 0 else a) 1

/-- `mul`. -/
def effMul : Reg → Reg → Reg → SlotCtx → SlotEff := effR (fun a b => a * b) 3
/-- `mulh`. -/
def effMulh : Reg → Reg → Reg → SlotCtx → SlotEff := effR mulh 3
/-- `mulhu`. -/
def effMulhu : Reg → Reg → Reg → SlotCtx → SlotEff := effR mulhu 3

/-- An integer divide: its time adds to that of the bundle's other divides (03 R75, R79, R80); a zero divisor sets PSW.DZ or,
with DZT, raises Divide by Zero (03 R78). -/
def effDivide (f : Word → Word → Word) (signed : Bool) (rd ra rb : Reg) (c : SlotCtx) : SlotEff :=
  let psw := c.arch.pswEff c.sealed
  let zero := c.g rb = 0
  { effR f 1 rd ra rb c with
    divTime := divTime (bit psw 9) signed (c.g ra) (c.g rb)
    dzSet := zero
    fault := if zero && bit psw 17 then some { vec := 5, detail := 0, faddr := c.arch.pc } else none }
/-- `div`. -/
def effDiv : Reg → Reg → Reg → SlotCtx → SlotEff := effDivide divS true
/-- `divu`. -/
def effDivu : Reg → Reg → Reg → SlotCtx → SlotEff := effDivide divU false
/-- `rem`. -/
def effRem : Reg → Reg → Reg → SlotCtx → SlotEff := effDivide remS true
/-- `remu`. -/
def effRemu : Reg → Reg → Reg → SlotCtx → SlotEff := effDivide remU false

/-! ### Formats I and U -/

/-- `addi`. -/
def effAddi (rd ra : Reg) (imm : BitVec 14) : SlotCtx → SlotEff := effR1 (fun a => a + sext14 imm) rd ra
/-- `andi`. -/
def effAndi (rd ra : Reg) (imm : BitVec 14) : SlotCtx → SlotEff := effR1 (fun a => a &&& zext14 imm) rd ra
/-- `ori`. -/
def effOri (rd ra : Reg) (imm : BitVec 14) : SlotCtx → SlotEff := effR1 (fun a => a ||| zext14 imm) rd ra
/-- `xori`. -/
def effXori (rd ra : Reg) (imm : BitVec 14) : SlotCtx → SlotEff := effR1 (fun a => a ^^^ zext14 imm) rd ra
/-- `slti`. -/
def effSlti (rd ra : Reg) (imm : BitVec 14) : SlotCtx → SlotEff := effR1 (fun a => boolW (sLt a (sext14 imm))) rd ra
/-- `sh.i`: imm14[7:6] selects `sll`, `srl`, `sra`; 0b11 and imm14[13:8] other than 0 are unassigned (02 R57). -/
def effShI (rd ra : Reg) (imm : BitVec 14) (c : SlotCtx) : SlotEff :=
  let n := imm.toNat % 64
  let k := imm.toNat / 64
  if k = 0 then effR1 (fun a => a <<< n) rd ra c
  else if k = 1 then effR1 (fun a => a >>> n) rd ra c
  else if k = 2 then effR1 (fun a => a.sshiftRight n) rd ra c
  else effReserved .integer
/-- `ldi`. -/
def effLdi (rd : Reg) (imm : BitVec 20) (_ : SlotCtx) : SlotEff := effG 1 rd [] (sext20 imm)
/-- `ldi.sh`. -/
def effLdiSh (rd : Reg) (imm : BitVec 20) (c : SlotCtx) : SlotEff := effG 1 rd [rd] (c.g rd <<< 20 ||| imm.zeroExtend 64)

/-! ### Field group -/

/-- `bf.ext` with the field len − 1 of format F. -/
def effBfExt (rd ra : Reg) (pos len1 : BitVec 6) : SlotCtx → SlotEff :=
  effR1 (fun a => bfExt a pos.toNat (len1.toNat + 1)) rd ra
/-- `bf.exts`. -/
def effBfExts (rd ra : Reg) (pos len1 : BitVec 6) : SlotCtx → SlotEff :=
  effR1 (fun a => bfExts a pos.toNat (len1.toNat + 1)) rd ra
/-- `bf.ins`: rd is read as a source (02 R60). -/
def effBfIns (rd ra : Reg) (pos len1 : BitVec 6) (c : SlotCtx) : SlotEff :=
  effG 1 rd [rd, ra] (bfIns (c.g rd) (c.g ra) pos.toNat (len1.toNat + 1))
/-- `clz`. -/
def effClz : Reg → Reg → SlotCtx → SlotEff := effR1 fun a => w64 (clz a)
/-- `ctz`. -/
def effCtz : Reg → Reg → SlotCtx → SlotEff := effR1 fun a => w64 (ctz a)
/-- `popc`. -/
def effPopc : Reg → Reg → SlotCtx → SlotEff := effR1 fun a => w64 (popc a)
/-- `perm.b`. -/
def effPermB : Reg → Reg → Reg → SlotCtx → SlotEff := effR permB 1

/-! ### Checksum group -/

/-- `crc.step.32`. -/
def effCrcStep32 : Reg → Reg → Reg → SlotCtx → SlotEff := effR (crcStep32 poly32) 1
/-- `crc.step.32c`. -/
def effCrcStep32c : Reg → Reg → Reg → SlotCtx → SlotEff := effR (crcStep32 poly32c) 1
/-- `crc.step.64`. -/
def effCrcStep64 : Reg → Reg → Reg → SlotCtx → SlotEff := effR crcStep64 1
/-- `par.d`. -/
def effParD : Reg → Reg → SlotCtx → SlotEff := effR1 parD
/-- `par.b`. -/
def effParB : Reg → Reg → SlotCtx → SlotEff := effR1 parB
/-- `brev.d`. -/
def effBrevD : Reg → Reg → SlotCtx → SlotEff := effR1 brevD
/-- `brev.b`. -/
def effBrevB : Reg → Reg → SlotCtx → SlotEff := effR1 brevB

end Sys2Proof.Machine
end

