-- ==== Sys2Proof/Machine/FloatInsn.lean ====
section
/-! DEFINITION. What each floating-point instruction does in its slot (02 R59, 03 R90 to R95). `d` is minor bit 7: binary64. -/

namespace Sys2Proof.Machine
open Sys2Proof

/-- FCSR.RM. -/
def SlotCtx.frm (c : SlotCtx) : Nat := bits c.arch.fcsr 10 8
/-- Operand f r of a slot. -/
def SlotCtx.f (c : SlotCtx) (r : Reg) : Word := c.arch.rdF r.toNat

/-- An instruction that writes f fd; `fs` are its f register fields, which must hold 0 to 31 (03 R90). -/
def effF (t : Nat) (fd : Reg) (fs gs : List Reg) (v : Word × FFlags) : SlotEff :=
  if (fd :: fs).all fun r => decide (r.toNat < 32) then
    { slot := 0, group := .float, time := t, dests := [.f fd.toNat],
      reads := fs.map (fun r => .f r.toNat) ++ gs.map (fun r => .g r.toNat), fw := [(fd.toNat, v.1)], fflags := v.2 }
  else effReserved .float
/-- An instruction that writes g rd from f registers. -/
def effFG (t : Nat) (rd : Reg) (fs : List Reg) (v : Word × FFlags) : SlotEff :=
  if fs.all fun r => decide (r.toNat < 32) then
    { slot := 0, group := .float, time := t, dests := dG rd, reads := fs.map fun r => .f r.toNat,
      gw := [(rd.toNat, v.1)], fflags := v.2 }
  else effReserved .float

/-- Time of `fdiv` and `fsqrt` (03 R74). -/
def fSlow (d : Bool) : Nat := if d then 20 else 12

/-- `fadd`. -/
def effFadd (d : Bool) (fd fa fb : Reg) (c : SlotCtx) : SlotEff := effF 4 fd [fa, fb] [] (fAdd d c.frm false (c.f fa) (c.f fb))
/-- `fsub`. -/
def effFsub (d : Bool) (fd fa fb : Reg) (c : SlotCtx) : SlotEff := effF 4 fd [fa, fb] [] (fAdd d c.frm true (c.f fa) (c.f fb))
/-- `fmul`. -/
def effFmul (d : Bool) (fd fa fb : Reg) (c : SlotCtx) : SlotEff := effF 4 fd [fa, fb] [] (fMul d c.frm (c.f fa) (c.f fb))
/-- `fdiv`. -/
def effFdiv (d : Bool) (fd fa fb : Reg) (c : SlotCtx) : SlotEff := effF (fSlow d) fd [fa, fb] [] (fDiv d c.frm (c.f fa) (c.f fb))
/-- `fmin`. -/
def effFmin (d : Bool) (fd fa fb : Reg) (c : SlotCtx) : SlotEff := effF 4 fd [fa, fb] [] (fMinMax d false (c.f fa) (c.f fb))
/-- `fmax`. -/
def effFmax (d : Bool) (fd fa fb : Reg) (c : SlotCtx) : SlotEff := effF 4 fd [fa, fb] [] (fMinMax d true (c.f fa) (c.f fb))
/-- `fsqrt`. -/
def effFsqrt (d : Bool) (fd fa : Reg) (c : SlotCtx) : SlotEff := effF (fSlow d) fd [fa] [] (fSqrt d c.frm (c.f fa))
/-- `fcmp.eq`. -/
def effFcmpEq (d : Bool) (rd fa fb : Reg) (c : SlotCtx) : SlotEff := effFG 4 rd [fa, fb] (fCmp d .eq (c.f fa) (c.f fb))
/-- `fcmp.lt`. -/
def effFcmpLt (d : Bool) (rd fa fb : Reg) (c : SlotCtx) : SlotEff := effFG 4 rd [fa, fb] (fCmp d .lt (c.f fa) (c.f fb))
/-- `fcmp.le`. -/
def effFcmpLe (d : Bool) (rd fa fb : Reg) (c : SlotCtx) : SlotEff := effFG 4 rd [fa, fb] (fCmp d .le (c.f fa) (c.f fb))
/-- `fclass`. -/
def effFclass (d : Bool) (rd fa : Reg) (c : SlotCtx) : SlotEff := effFG 4 rd [fa] (fClass d (c.f fa), 0)
/-- `fcvt.l`. -/
def effFcvtL (d : Bool) (rd fa : Reg) (c : SlotCtx) : SlotEff := effFG 4 rd [fa] (fToInt d c.frm true (c.f fa))
/-- `fcvt.lu`. -/
def effFcvtLu (d : Bool) (rd fa : Reg) (c : SlotCtx) : SlotEff := effFG 4 rd [fa] (fToInt d c.frm false (c.f fa))
/-- `fcvt.fl`. -/
def effFcvtFl (d : Bool) (fd ra : Reg) (c : SlotCtx) : SlotEff := effF 4 fd [] [ra] (fFromInt d c.frm true (c.g ra))
/-- `fcvt.flu`. -/
def effFcvtFlu (d : Bool) (fd ra : Reg) (c : SlotCtx) : SlotEff := effF 4 fd [] [ra] (fFromInt d c.frm false (c.g ra))
/-- `fcvt.p`. -/
def effFcvtP (d : Bool) (fd fa : Reg) (c : SlotCtx) : SlotEff := effF 4 fd [fa] [] (fCvtP d c.frm (c.f fa))
/-- `fmv.gf`. -/
def effFmvGf (d : Bool) (fd ra : Reg) (c : SlotCtx) : SlotEff := effF 1 fd [] [ra] (fTrim d (c.g ra), 0)
/-- `fmv.fg`. -/
def effFmvFg (d : Bool) (rd fa : Reg) (c : SlotCtx) : SlotEff := effFG 1 rd [fa] (fTrim d (c.f fa), 0)

/-- Format F4: the 5-bit fields name f registers only (03 R90). -/
def effFma4 (np nc d : Bool) (fd fa fb fc : BitVec 5) (c : SlotCtx) : SlotEff :=
  let r := fun (x : BitVec 5) => (x.zeroExtend 6 : Reg)
  effF 4 (r fd) [r fa, r fb, r fc] [] (fFma d c.frm np nc (c.f (r fa)) (c.f (r fb)) (c.f (r fc)))
/-- `fma`. -/
def effFma : Bool → BitVec 5 → BitVec 5 → BitVec 5 → BitVec 5 → SlotCtx → SlotEff := effFma4 false false
/-- `fms`. -/
def effFms : Bool → BitVec 5 → BitVec 5 → BitVec 5 → BitVec 5 → SlotCtx → SlotEff := effFma4 false true
/-- `fnma`. -/
def effFnma : Bool → BitVec 5 → BitVec 5 → BitVec 5 → BitVec 5 → SlotCtx → SlotEff := effFma4 true true
/-- `fnms`. -/
def effFnms : Bool → BitVec 5 → BitVec 5 → BitVec 5 → BitVec 5 → SlotCtx → SlotEff := effFma4 true false

end Sys2Proof.Machine
end

