-- ==== Sys2Proof/Machine/FracInsn.lean ====
section
/-! DEFINITION. What each fraction instruction does in its slot (02 R59, 03 R81 to R88). An accumulator field holds 0 to 3. -/

namespace Sys2Proof.Machine
open Sys2Proof

/-- An instruction that writes accumulator `acc`. -/
def effAcc (t : Nat) (acc : Reg) (old : Bool) (srcs : List Reg) (v : Acc) (aov : Bool) : SlotEff :=
  if acc.toNat < 4 then
    { slot := 0, group := .fraction, time := t, dests := [.acc acc.toNat],
      reads := (if old then [.acc acc.toNat] else []) ++ srcs.map fun r => .g r.toNat, aw := some (acc.toNat, v), aov := aov }
  else effReserved .fraction
/-- An instruction that writes g rd from accumulator `acc`. -/
def effAccG (t : Nat) (rd acc : Reg) (v : Word) (sat : Bool) : SlotEff :=
  if acc.toNat < 4 then
    { slot := 0, group := .fraction, time := t, dests := dG rd, reads := [.acc acc.toNat], gw := [(rd.toNat, v)], sat := sat }
  else effReserved .fraction

/-- `mac.*`, `msu.*` (03 R83, R86). -/
def effMac (q : QFmt) (sub : Bool) (acc ra rb : Reg) (c : SlotCtx) : SlotEff :=
  let p := qProd q (c.g ra) (c.g rb)
  let r := accSet ((c.arch.rdAcc acc.toNat).toInt + if sub then -p else p)
  effAcc 3 acc true [ra, rb] r.1 r.2

/-- `mac.q15`. -/
def effMacQ15 : Reg → Reg → Reg → SlotCtx → SlotEff := effMac .q15 false
/-- `mac.q31`. -/
def effMacQ31 : Reg → Reg → Reg → SlotCtx → SlotEff := effMac .q31 false
/-- `mac.q63`. -/
def effMacQ63 : Reg → Reg → Reg → SlotCtx → SlotEff := effMac .q63 false
/-- `msu.q15`. -/
def effMsuQ15 : Reg → Reg → Reg → SlotCtx → SlotEff := effMac .q15 true
/-- `msu.q31`. -/
def effMsuQ31 : Reg → Reg → Reg → SlotCtx → SlotEff := effMac .q31 true
/-- `msu.q63`. -/
def effMsuQ63 : Reg → Reg → Reg → SlotCtx → SlotEff := effMac .q63 true
/-- `acc.clr`. -/
def effAccClr (acc : Reg) (_ : SlotCtx) : SlotEff := effAcc 1 acc false [] 0 false
/-- `acc.add` (03 R84, R86). -/
def effAccAdd (acc ra rb : Reg) (c : SlotCtx) : SlotEff :=
  let r := accSet ((c.arch.rdAcc acc.toNat).toInt + accAddend (c.g ra) (c.g rb))
  effAcc 1 acc true [ra, rb] r.1 r.2
/-- `ext.*` (03 R87). -/
def effExt (q : QFmt) (rd acc : Reg) (c : SlotCtx) : SlotEff :=
  let r := qExt q (bits c.arch.fxcsr 1 0) (c.arch.rdAcc acc.toNat)
  effAccG 2 rd acc r.1 r.2
/-- `ext.q15`. -/
def effExtQ15 : Reg → Reg → SlotCtx → SlotEff := effExt .q15
/-- `ext.q31`. -/
def effExtQ31 : Reg → Reg → SlotCtx → SlotEff := effExt .q31
/-- `ext.q63`. -/
def effExtQ63 : Reg → Reg → SlotCtx → SlotEff := effExt .q63
/-- `acc.rdl`. -/
def effAccRdL (rd acc : Reg) (c : SlotCtx) : SlotEff := effAccG 1 rd acc (accRead (c.arch.rdAcc acc.toNat) 0) false
/-- `acc.rdm`. -/
def effAccRdM (rd acc : Reg) (c : SlotCtx) : SlotEff := effAccG 1 rd acc (accRead (c.arch.rdAcc acc.toNat) 1) false
/-- `acc.rdh`. -/
def effAccRdH (rd acc : Reg) (c : SlotCtx) : SlotEff := effAccG 1 rd acc (accRead (c.arch.rdAcc acc.toNat) 2) false
/-- `acc.wrl`. -/
def effAccWrL (acc ra : Reg) (c : SlotCtx) : SlotEff :=
  effAcc 1 acc true [ra] (accWrite (c.arch.rdAcc acc.toNat) 0 (c.g ra)) false
/-- `acc.wrm`. -/
def effAccWrM (acc ra : Reg) (c : SlotCtx) : SlotEff :=
  effAcc 1 acc true [ra] (accWrite (c.arch.rdAcc acc.toNat) 1 (c.g ra)) false
/-- `acc.wrh`. -/
def effAccWrH (acc ra : Reg) (c : SlotCtx) : SlotEff :=
  effAcc 1 acc true [ra] (accWrite (c.arch.rdAcc acc.toNat) 2 (c.g ra)) false

end Sys2Proof.Machine
end

