-- ==== Sys2Proof/Machine/MemInsn.lean ====
section
/-! DEFINITION. What each instruction of the memory group does in its slot: loads, stores, indexed and non-temporal forms, atomics
and barriers (02 R57, R59, 09 R240 to R247). -/

namespace Sys2Proof.Machine
open Sys2Proof

/-- A memory instruction with its operation. -/
def effM (dests : List Dst) (reads : List Reg) (op : MemOp) : SlotEff :=
  { slot := 0, group := .memory, dests := dests, reads := reads.map fun r => .g r.toNat, mem := some op }

/-- Address base + disp14 (02 R56). -/
def SlotCtx.ea (c : SlotCtx) (base : Reg) (disp : BitVec 14) : Word := c.g base + sext14 disp

/-- A load of `size` bytes at base + disp into g rt. -/
def effLd (size : Nat) (e : Ext) (rt base : Reg) (disp : BitVec 14) (c : SlotCtx) : SlotEff :=
  effM (dG rt) [base] (.load (.g rt.toNat) (c.ea base disp) size e false)
/-- A load into f rt; a register field above 31 is unassigned (03 R90). -/
def effLdF (size : Nat) (rt base : Reg) (disp : BitVec 14) (c : SlotCtx) : SlotEff :=
  if rt.toNat < 32 then effM [.f rt.toNat] [base] (.load (.f rt.toNat) (c.ea base disp) size .zero false) else effReserved .memory
/-- An indexed load at ra + rb. -/
def effLdX (size : Nat) (e : Ext) (nt : Bool) (rd ra rb : Reg) (c : SlotCtx) : SlotEff :=
  effM (dG rd) [ra, rb] (.load (.g rd.toNat) (c.g ra + c.g rb) size e nt)
/-- A store of g rt at base + disp. -/
def effSt (size : Nat) (rt base : Reg) (disp : BitVec 14) (c : SlotCtx) : SlotEff :=
  effM [] [rt, base] (.store (c.ea base disp) size (c.g rt) false)
/-- A store of f rt. -/
def effStF (size : Nat) (rt base : Reg) (disp : BitVec 14) (c : SlotCtx) : SlotEff :=
  if rt.toNat < 32 then
    { effM [] [base] (.store (c.ea base disp) size (c.arch.rdF rt.toNat) false) with reads := [.f rt.toNat, .g base.toNat] }
  else effReserved .memory
/-- An indexed store of g rd at ra + rb. -/
def effStX (size : Nat) (nt : Bool) (rd ra rb : Reg) (c : SlotCtx) : SlotEff :=
  effM [] [rd, ra, rb] (.store (c.g ra + c.g rb) size (c.g rd) nt)
/-- An `amo`: address ra, operand rb, old value to rd (09 R243). -/
def effAmo (op : AmoOp) (rd ra rb : Reg) (c : SlotCtx) : SlotEff :=
  effM (dG rd) [ra, rb] (.amo op (.g rd.toNat) (c.g ra) (c.g rb))
/-- A barrier takes g0 in rd, ra and rb (09 R247). -/
def effBar (full : Bool) (rd ra rb : Reg) (_ : SlotCtx) : SlotEff :=
  if rd.toNat = 0 ∧ ra.toNat = 0 ∧ rb.toNat = 0 then effM [] [] (.bar full) else effReserved .memory

/-- `ld.b`. -/
def effLdB : Reg → Reg → BitVec 14 → SlotCtx → SlotEff := effLd 1 .zero
/-- `ld.bs`. -/
def effLdBs : Reg → Reg → BitVec 14 → SlotCtx → SlotEff := effLd 1 .sign
/-- `ld.h`. -/
def effLdH : Reg → Reg → BitVec 14 → SlotCtx → SlotEff := effLd 2 .zero
/-- `ld.hs`. -/
def effLdHs : Reg → Reg → BitVec 14 → SlotCtx → SlotEff := effLd 2 .sign
/-- `ld.w`. -/
def effLdW : Reg → Reg → BitVec 14 → SlotCtx → SlotEff := effLd 4 .zero
/-- `ld.ws`. -/
def effLdWs : Reg → Reg → BitVec 14 → SlotCtx → SlotEff := effLd 4 .sign
/-- `ld.d`. -/
def effLdD : Reg → Reg → BitVec 14 → SlotCtx → SlotEff := effLd 8 .zero
/-- `ld.fd`. -/
def effLdFd : Reg → Reg → BitVec 14 → SlotCtx → SlotEff := effLdF 8
/-- `ld.fs`. -/
def effLdFs : Reg → Reg → BitVec 14 → SlotCtx → SlotEff := effLdF 4
/-- `ldx.b`. -/
def effLdxB : Reg → Reg → Reg → SlotCtx → SlotEff := effLdX 1 .zero false
/-- `ldx.bs`. -/
def effLdxBs : Reg → Reg → Reg → SlotCtx → SlotEff := effLdX 1 .sign false
/-- `ldx.h`. -/
def effLdxH : Reg → Reg → Reg → SlotCtx → SlotEff := effLdX 2 .zero false
/-- `ldx.hs`. -/
def effLdxHs : Reg → Reg → Reg → SlotCtx → SlotEff := effLdX 2 .sign false
/-- `ldx.w`. -/
def effLdxW : Reg → Reg → Reg → SlotCtx → SlotEff := effLdX 4 .zero false
/-- `ldx.ws`. -/
def effLdxWs : Reg → Reg → Reg → SlotCtx → SlotEff := effLdX 4 .sign false
/-- `ldx.d`. -/
def effLdxD : Reg → Reg → Reg → SlotCtx → SlotEff := effLdX 8 .zero false
/-- `st.b`. -/
def effStB : Reg → Reg → BitVec 14 → SlotCtx → SlotEff := effSt 1
/-- `st.h`. -/
def effStH : Reg → Reg → BitVec 14 → SlotCtx → SlotEff := effSt 2
/-- `st.w`. -/
def effStW : Reg → Reg → BitVec 14 → SlotCtx → SlotEff := effSt 4
/-- `st.d`. -/
def effStD : Reg → Reg → BitVec 14 → SlotCtx → SlotEff := effSt 8
/-- `st.fs`. -/
def effStFs : Reg → Reg → BitVec 14 → SlotCtx → SlotEff := effStF 4
/-- `st.fd`. -/
def effStFd : Reg → Reg → BitVec 14 → SlotCtx → SlotEff := effStF 8
/-- `stx.b`. -/
def effStxB : Reg → Reg → Reg → SlotCtx → SlotEff := effStX 1 false
/-- `stx.h`. -/
def effStxH : Reg → Reg → Reg → SlotCtx → SlotEff := effStX 2 false
/-- `stx.w`. -/
def effStxW : Reg → Reg → Reg → SlotCtx → SlotEff := effStX 4 false
/-- `stx.d`. -/
def effStxD : Reg → Reg → Reg → SlotCtx → SlotEff := effStX 8 false
/-- `ld.nt.d`. -/
def effLdNtD : Reg → Reg → Reg → SlotCtx → SlotEff := effLdX 8 .zero true
/-- `st.nt.d`. -/
def effStNtD : Reg → Reg → Reg → SlotCtx → SlotEff := effStX 8 true
/-- `cas.d`: compare in rd, new in rb. -/
def effCasD (rd ra rb : Reg) (c : SlotCtx) : SlotEff :=
  effM (dG rd) [rd, ra, rb] (.casD (.g rd.toNat) (c.g ra) (c.g rd) (c.g rb))
/-- `cas.q`: pairs start at an even register (02 R56). -/
def effCasQ (rd ra rb : Reg) (c : SlotCtx) : SlotEff :=
  if rd.toNat % 2 = 0 ∧ rb.toNat % 2 = 0 then
    effM (dG rd ++ [.g (rd.toNat + 1)]) [rd, rd + 1, ra, rb, rb + 1]
      (.casQ rd.toNat (c.g ra) (c.g rd) (c.g (rd + 1)) (c.g rb) (c.g (rb + 1)))
  else effReserved .memory
/-- `amo.swap.d`. -/
def effAmoSwapD : Reg → Reg → Reg → SlotCtx → SlotEff := effAmo .swap
/-- `amo.add.d`. -/
def effAmoAddD : Reg → Reg → Reg → SlotCtx → SlotEff := effAmo .add
/-- `amo.and.d`. -/
def effAmoAndD : Reg → Reg → Reg → SlotCtx → SlotEff := effAmo .and
/-- `amo.or.d`. -/
def effAmoOrD : Reg → Reg → Reg → SlotCtx → SlotEff := effAmo .or
/-- `bar.full`. -/
def effBarFull : Reg → Reg → Reg → SlotCtx → SlotEff := effBar true
/-- `bar.st`. -/
def effBarSt : Reg → Reg → Reg → SlotCtx → SlotEff := effBar false

end Sys2Proof.Machine
end

