-- ==== Sys2Proof/Machine/SysInsn.lean ====
section
/-! DEFINITION. What each branch, system, cache-maintenance, TLB and long instruction does in its slot (02 R57, R59, R66, 04 R99,
R106, 05 R139, R142, 07 R200, 08 R227). -/

namespace Sys2Proof.Machine
open Sys2Proof

/-! ### Branches and loops -/

/-- Target of a displacement in bundles (02 R56). -/
def SlotCtx.target (c : SlotCtx) (disp : BitVec 20) : Word := c.arch.pc + 16 * sext20 disp

/-- A conditional branch on ra: the outcome is the target or the bundle after the delay bundle (04 R99, R100). -/
def effB (cond : Word → Bool) (ra : Reg) (disp : BitVec 20) (c : SlotCtx) : SlotEff :=
  let taken := cond (c.g ra)
  { slot := 0, group := .branch, reads := [.g ra.toNat],
    branch := some (.cond taken (c.target disp), if taken then c.target disp else c.arch.pc + 32) }
/-- `b.z`. -/
def effBZ : Reg → BitVec 20 → SlotCtx → SlotEff := effB fun a => a = 0
/-- `b.nz`. -/
def effBNz : Reg → BitVec 20 → SlotCtx → SlotEff := effB fun a => a ≠ 0
/-- `b.lt`. -/
def effBLt : Reg → BitVec 20 → SlotCtx → SlotEff := effB fun a => bit a 63
/-- `b.ge`. -/
def effBGe : Reg → BitVec 20 → SlotCtx → SlotEff := effB fun a => !bit a 63

/-- The link write of `jmp` and `jr`: none to g0. -/
def SlotCtx.link (c : SlotCtx) (rd : Reg) : List (Nat × Word) := if rd.toNat = 0 then [] else [(rd.toNat, c.arch.pc + 32)]
/-- `jmp`. -/
def effJmp (rd : Reg) (disp : BitVec 20) (c : SlotCtx) : SlotEff :=
  { slot := 0, group := .branch, dests := dG rd, gw := c.link rd, branch := some (.jmp (rd.toNat ≠ 0), c.target disp) }
/-- `jr`: a target with bits 3:0 nonzero raises Instruction Alignment (02 R56). -/
def effJr (rd ra : Reg) (c : SlotCtx) : SlotEff :=
  let t := c.g ra
  { slot := 0, group := .branch, dests := dG rd, reads := [.g ra.toNat], gw := c.link rd,
    branch := some (.jr (rd.toNat ≠ 0) (ra.toNat = 62), t),
    fault := if bits t 3 0 = 0 then none else some { vec := 3, detail := 0, faddr := t } }
/-- `lp.set`: level 0 to 2, end offset at least 1 (02 R56, 04 R106). -/
def effLpSet (level : BitVec 2) (ra : Reg) (endOff : BitVec 18) (c : SlotCtx) : SlotEff :=
  if level.toNat = 3 ∨ endOff.toNat = 0 then effReserved .branch
  else { slot := 0, group := .branch, reads := [.g ra.toNat],
         lpset := some (level.toNat, c.g ra, c.arch.pc + 16, c.arch.pc + w64 (16 * endOff.toNat)) }

/-! ### Control registers -/

/-- `mfcr` (02 R42). The stack pointer of the level is g63 and shows its load shadow (02 R37, R51). -/
def effMfcr (rd : Reg) (n : BitVec 9) (c : SlotCtx) : SlotEff :=
  if !crAssigned n.toNat then effReserved .system
  else
    let d := crDst c.arch.pl n.toNat
    { slot := 0, group := .system, dests := dG rd, reads := d, fault := mfcrFault c.arch n.toNat
      gw := [(rd.toNat, if d = [] then c.arch.cr c.sealed n.toNat else c.arch.rdG 63)] }
/-- `mtcr` (02 R40, R42, R43). -/
def effMtcr (n : BitVec 9) (ra : Reg) (c : SlotCtx) : SlotEff :=
  if !crAssigned n.toNat || crReadOnly n.toNat then effReserved .system
  else { slot := 0, group := .system, dests := crDst c.arch.pl n.toNat, reads := [.g ra.toNat], modeChg := crMode n.toNat,
         cr := some (n.toNat, c.g ra), fault := mtcrFault c.arch c.escLocked n.toNat (c.g ra) }

/-! ### System -/

/-- Privileged Instruction below a level. -/
def SlotCtx.need (c : SlotCtx) (pl : Nat) : Option Flt :=
  if c.arch.pl < pl then some { vec := 2, detail := 0, faddr := c.arch.pc } else none
/-- A system operation with its lowest level. -/
def effSys (pl : Nat) (reads : List Reg) (op : SysOp) (c : SlotCtx) : SlotEff :=
  { slot := 0, group := .system, reads := reads.map fun r => .g r.toNat, sys := op, fault := c.need pl }
/-- `sys.call`. -/
def effSysCall : SlotCtx → SlotEff := effSys plU [] .call
/-- `sys.brk`. -/
def effSysBrk : SlotCtx → SlotEff := effSys plU [] .brk
/-- `eret`: mode-changing (05 R139). -/
def effEret (c : SlotCtx) : SlotEff := { effSys plS [] .eret c with modeChg := true }
/-- `wait` (05 R142). -/
def effWait : SlotCtx → SlotEff := effSys plS [] .wait
/-- `dz.clr` (03 R78). -/
def effDzClr (c : SlotCtx) : SlotEff := { effSys plU [] .none c with dzClr := true }

/-! ### Cache maintenance (07 R200) -/

/-- One line: rd and rb hold g0. -/
def effCm (pl : Nat) (op : Word → SysOp) (rd ra rb : Reg) (c : SlotCtx) : SlotEff :=
  if rd.toNat = 0 ∧ rb.toNat = 0 then effSys pl [ra] (op (c.g ra)) c else effReserved .system
/-- A range: the stop address goes to rd (07 R203). -/
def effCmR (pl : Nat) (op : Nat → Word → Word → SysOp) (rd ra rb : Reg) (c : SlotCtx) : SlotEff :=
  { effSys pl [ra, rb] (op rd.toNat (c.g ra) (c.g rb)) c with dests := dG rd }
/-- `cm.cl`. -/
def effCmCl : Reg → Reg → Reg → SlotCtx → SlotEff := effCm plS (.cmLine .clean)
/-- `cm.inv`. -/
def effCmInv : Reg → Reg → Reg → SlotCtx → SlotEff := effCm plS (.cmLine .inv)
/-- `cm.cli`. -/
def effCmCli : Reg → Reg → Reg → SlotCtx → SlotEff := effCm plS (.cmLine .cleanInv)
/-- `cm.cl.r`. -/
def effCmClR : Reg → Reg → Reg → SlotCtx → SlotEff := effCmR plS (.cmRange .clean)
/-- `cm.inv.r`. -/
def effCmInvR : Reg → Reg → Reg → SlotCtx → SlotEff := effCmR plS (.cmRange .inv)
/-- `cm.cli.r`. -/
def effCmCliR : Reg → Reg → Reg → SlotCtx → SlotEff := effCmR plS (.cmRange .cleanInv)
/-- `cm.cl.sw`. -/
def effCmClSw : Reg → Reg → Reg → SlotCtx → SlotEff := effCm plM (.cmSw .clean)
/-- `cm.inv.sw`. -/
def effCmInvSw : Reg → Reg → Reg → SlotCtx → SlotEff := effCm plM (.cmSw .inv)
/-- `cm.cli.sw`. -/
def effCmCliSw : Reg → Reg → Reg → SlotCtx → SlotEff := effCm plM (.cmSw .cleanInv)
/-- `cm.isync`: all fields hold g0. -/
def effCmIsync (rd ra rb : Reg) (c : SlotCtx) : SlotEff :=
  if rd.toNat = 0 ∧ ra.toNat = 0 ∧ rb.toNat = 0 then effSys plU [] .isync c else effReserved .system
/-- `cm.lkfill`: level S if TRD_L2_LOCK.S_FILL = 1, otherwise M. -/
def effCmLkfill (rd ra rb : Reg) (c : SlotCtx) : SlotEff := effCmR (if c.sFill then plS else plM) .lkfill rd ra rb c

/-! ### TLB operations (08 R227) -/

/-- A TLB operation; the fields named by `zero` hold g0. -/
def effTlb (pl : Nat) (op : TlbOp) (zero : List Reg) (ra rb : Reg) (c : SlotCtx) : SlotEff :=
  if zero.all fun r => r.toNat = 0 then effSys pl [ra, rb] (.tlb op (c.g ra) (c.g rb)) c else effReserved .system
/-- `tlb.inv.va`. -/
def effTlbInvVa (rd ra rb : Reg) : SlotCtx → SlotEff := effTlb plS .va [rd] ra rb
/-- `tlb.inv.asid`. -/
def effTlbInvAsid (rd ra rb : Reg) : SlotCtx → SlotEff := effTlb plS .asid [rd, rb] ra rb
/-- `tlb.inv.all`. -/
def effTlbInvAll (rd ra rb : Reg) : SlotCtx → SlotEff := effTlb plS .all [rd, ra, rb] ra rb
/-- `tlb.inv.pra`. -/
def effTlbInvPra (rd ra rb : Reg) : SlotCtx → SlotEff := effTlb plM .pra [rd] ra rb
/-- `tlb.inv.part`. -/
def effTlbInvPart (rd ra rb : Reg) : SlotCtx → SlotEff := effTlb plM .part [rd, rb] ra rb

/-! ### Long instructions (02 R66) -/

/-- The same register other than g0 in two fields (02 R66). -/
def twice (l : List Nat) : Bool := !(l.filter (· ≠ 0)).Nodup
/-- The four registers of a block. -/
def blockRegNos (rd : Reg) : List Nat := (List.range 4).map (rd.toNat + ·)
/-- A block instruction on a memory operand; `budget` units run before the environment's next event is looked for. -/
def effLong (k : LongKind) (rd ra rb : Reg) (budget : Nat) (_ : SlotCtx) : SlotEff :=
  let rs := [rd.toNat, ra.toNat, rb.toNat]
  if twice rs then effReserved .long
  else { slot := 1, group := .long, dests := [rd, ra, rb].flatMap dG, reads := rs.map .g,
         long := some { kind := k, rd := rd.toNat, ra := ra.toNat, rb := rb.toNat, budget := budget } }
/-- `cmpx`, `cphx`: rd is a multiple of 4; ra and rb lie outside the block. -/
def effEngine (k : LongKind) (rd ra rb : Reg) (budget : Nat) (_ : SlotCtx) : SlotEff :=
  let bs := blockRegNos rd
  if rd.toNat % 4 ≠ 0 || bs.contains ra.toNat || bs.contains rb.toNat || twice [ra.toNat, rb.toNat] then effReserved .long
  else { slot := 1, group := .long, dests := ((bs.filter (· ≠ 0)).map .g) ++ dG rb, reads := bs.map .g ++ [.g ra.toNat],
         long := some { kind := k, rd := rd.toNat, ra := ra.toNat, rb := rb.toNat, budget := budget } }
/-- `blk.mv`. -/
def effBlkMv : Reg → Reg → Reg → Nat → SlotCtx → SlotEff := effLong .mv
/-- `blk.cmp`. -/
def effBlkCmp : Reg → Reg → Reg → Nat → SlotCtx → SlotEff := effLong .cmp
/-- `blk.crc.32`. -/
def effBlkCrc32 : Reg → Reg → Reg → Nat → SlotCtx → SlotEff := effLong (.crc poly32 false)
/-- `blk.crc.32c`. -/
def effBlkCrc32c : Reg → Reg → Reg → Nat → SlotCtx → SlotEff := effLong (.crc poly32c false)
/-- `blk.crc.64`. -/
def effBlkCrc64 : Reg → Reg → Reg → Nat → SlotCtx → SlotEff := effLong (.crc poly64 true)
/-- `cmpx`. -/
def effCmpx : Reg → Reg → Reg → Nat → SlotCtx → SlotEff := effEngine .cmpx
/-- `cphx`. -/
def effCphx : Reg → Reg → Reg → Nat → SlotCtx → SlotEff := effEngine .cphx

end Sys2Proof.Machine
end

