-- ==== Sys2Proof/Machine/WordDecode.lean ====
section
/-! DEFINITION. The encoding of instruction words (02 R55 to R59, R66, 07 R200, 08 R227): what a fetched word does in its slot. A
STEP of the debug port executes a bundle as it stands in memory (06 R179). -/

namespace Sys2Proof.Machine
open Sys2Proof

/-- Bits [h:l] of an instruction word. -/
def wf (w h l : Nat) : Nat := (w / 2 ^ l) % 2 ^ (h + 1 - l)
/-- A 6-bit register field with its lowest bit l. -/
def wreg (w l : Nat) : Reg := BitVec.ofNat 6 (w / 2 ^ l)

/-- INT-R minors (02 R59). -/
def decIntR (m : Nat) : Option (Reg → Reg → Reg → SlotCtx → SlotEff) :=
  match m with
  | 0x00 => some effAdd | 0x01 => some effSub | 0x02 => some effAnd | 0x03 => some effOr
  | 0x04 => some effXor | 0x05 => some effAndn | 0x08 => some effSll | 0x09 => some effSrl
  | 0x0A => some effSra | 0x0B => some effRol | 0x10 => some effSlt | 0x11 => some effSltu
  | 0x12 => some effMin | 0x13 => some effMax | 0x14 => some effMinu | 0x15 => some effMaxu
  | 0x18 => some effCmovZ | 0x19 => some effCmovNz | 0x1A => some effSelZ | 0x1B => some effSelNz
  | 0x20 => some effMul | 0x21 => some effMulh | 0x22 => some effMulhu
  | 0x24 => some effDiv | 0x25 => some effDivu | 0x26 => some effRem | 0x27 => some effRemu
  | _ => none

/-- FIELD-R and CHECK minors. -/
def decField (check : Bool) (m : Nat) : Option (Reg → Reg → Reg → SlotCtx → SlotEff) :=
  let one := fun (f : Reg → Reg → SlotCtx → SlotEff) => some fun rd ra (_ : Reg) => f rd ra
  match check, m with
  | false, 0x00 => one effClz | false, 0x01 => one effCtz | false, 0x02 => one effPopc | false, 0x08 => some effPermB
  | true, 0x00 => some effCrcStep32 | true, 0x01 => some effCrcStep32c | true, 0x02 => some effCrcStep64
  | true, 0x08 => one effParD | true, 0x09 => one effParB | true, 0x0A => one effBrevD | true, 0x0B => one effBrevB
  | _, _ => none

/-- Majors of format M, 0x10 to 0x1E (02 R57). -/
def decM (m : Nat) : Option (Reg → Reg → BitVec 14 → SlotCtx → SlotEff) :=
  match m with
  | 0x10 => some effLdB | 0x11 => some effLdBs | 0x12 => some effLdH | 0x13 => some effLdHs
  | 0x14 => some effLdW | 0x15 => some effLdWs | 0x16 => some effLdD | 0x17 => some effLdFd | 0x18 => some effLdFs
  | 0x19 => some effStB | 0x1A => some effStH | 0x1B => some effStW | 0x1C => some effStD | 0x1D => some effStFs
  | 0x1E => some effStFd
  | _ => none

/-- MEM-X minors. -/
def decMemX (m : Nat) : Option (Reg → Reg → Reg → SlotCtx → SlotEff) :=
  match m with
  | 0x00 => some effLdxB | 0x01 => some effLdxBs | 0x02 => some effLdxH | 0x03 => some effLdxHs
  | 0x04 => some effLdxW | 0x05 => some effLdxWs | 0x06 => some effLdxD
  | 0x08 => some effStxB | 0x09 => some effStxH | 0x0A => some effStxW | 0x0B => some effStxD
  | 0x10 => some effLdNtD | 0x11 => some effStNtD | 0x18 => some effCasD | 0x19 => some effCasQ
  | 0x1A => some effAmoSwapD | 0x1B => some effAmoAddD | 0x1C => some effAmoAndD | 0x1D => some effAmoOrD
  | 0x20 => some effBarFull | 0x21 => some effBarSt
  | _ => none

/-- FP-R minors; bit 7 selects binary64. -/
def decFp (m : Nat) : Option (Reg → Reg → Reg → SlotCtx → SlotEff) :=
  let d := m / 128 = 1
  let one := fun (f : Bool → Reg → Reg → SlotCtx → SlotEff) => some fun rd ra (_ : Reg) => f d rd ra
  match m % 128 with
  | 0x00 => some (effFadd d) | 0x01 => some (effFsub d) | 0x02 => some (effFmul d) | 0x03 => some (effFdiv d)
  | 0x04 => one effFsqrt | 0x05 => some (effFmin d) | 0x06 => some (effFmax d)
  | 0x08 => some (effFcmpEq d) | 0x09 => some (effFcmpLt d) | 0x0A => some (effFcmpLe d) | 0x0B => one effFclass
  | 0x10 => one effFcvtL | 0x11 => one effFcvtLu | 0x12 => one effFcvtFl | 0x13 => one effFcvtFlu | 0x14 => one effFcvtP
  | 0x18 => one effFmvGf | 0x19 => one effFmvFg
  | _ => none

/-- FRAC-R minors; the fields 03 R85 and R87 make Reserved must be zero. -/
def decFrac (m : Nat) (rd ra rb : Reg) : Option (SlotCtx → SlotEff) :=
  let z := fun (r : Reg) (f : SlotCtx → SlotEff) => if r.toNat = 0 then some f else none
  match m with
  | 0x00 => some (effMacQ15 rd ra rb) | 0x01 => some (effMacQ31 rd ra rb) | 0x02 => some (effMacQ63 rd ra rb)
  | 0x04 => some (effMsuQ15 rd ra rb) | 0x05 => some (effMsuQ31 rd ra rb) | 0x06 => some (effMsuQ63 rd ra rb)
  | 0x08 => z ra (effAccClr rd) | 0x0A => some (effAccAdd rd ra rb)
  | 0x10 => z rb (effExtQ15 rd ra) | 0x11 => z rb (effExtQ31 rd ra) | 0x12 => z rb (effExtQ63 rd ra)
  | 0x14 => z rb (effAccRdL rd ra) | 0x15 => z rb (effAccRdM rd ra) | 0x16 => z rb (effAccRdH rd ra)
  | 0x18 => z rb (effAccWrL rd ra) | 0x19 => z rb (effAccWrM rd ra) | 0x1A => z rb (effAccWrH rd ra)
  | _ => none

/-- SYS-R minors. -/
def decSys (m : Nat) (rd ra rb : Reg) : Option (SlotCtx → SlotEff) :=
  match m with
  | 0x00 => some effSysCall | 0x01 => some effSysBrk | 0x08 => some effEret | 0x09 => some effWait | 0x10 => some effDzClr
  | 0x20 => some (effCmCl rd ra rb) | 0x21 => some (effCmInv rd ra rb) | 0x22 => some (effCmCli rd ra rb)
  | 0x24 => some (effCmClR rd ra rb) | 0x25 => some (effCmInvR rd ra rb) | 0x26 => some (effCmCliR rd ra rb)
  | 0x28 => some (effCmClSw rd ra rb) | 0x29 => some (effCmInvSw rd ra rb) | 0x2A => some (effCmCliSw rd ra rb)
  | 0x2C => some (effCmIsync rd ra rb) | 0x2E => some (effCmLkfill rd ra rb)
  | 0x30 => some (effTlbInvVa rd ra rb) | 0x31 => some (effTlbInvAsid rd ra rb) | 0x32 => some (effTlbInvAll rd ra rb)
  | 0x34 => some (effTlbInvPra rd ra rb) | 0x35 => some (effTlbInvPart rd ra rb)
  | _ => none

/-- LONG minors (02 R66). -/
def decLong (m budget : Nat) (rd ra rb : Reg) : Option (SlotCtx → SlotEff) :=
  match m with
  | 0x00 => some (effBlkMv rd ra rb budget) | 0x01 => some (effBlkCmp rd ra rb budget)
  | 0x02 => some (effBlkCrc32 rd ra rb budget) | 0x03 => some (effBlkCrc32c rd ra rb budget)
  | 0x04 => some (effBlkCrc64 rd ra rb budget) | 0x10 => some (effCmpx rd ra rb budget) | 0x11 => some (effCphx rd ra rb budget)
  | _ => none

/-- What a word does, if its encoding is assigned (02 R57, R58). -/
def decWord (budget w : Nat) : Option (SlotCtx → SlotEff) :=
  let mj := wf w 31 26
  let rd := wreg w 20
  let ra := wreg w 14
  let rb := wreg w 8
  let mi := wf w 7 0
  let i14 : BitVec 14 := BitVec.ofNat 14 w
  let i20 : BitVec 20 := BitVec.ofNat 20 w
  let r := fun (o : Option (Reg → Reg → Reg → SlotCtx → SlotEff)) => o.map fun f => f rd ra rb
  let f4 := fun (f : Bool → BitVec 5 → BitVec 5 → BitVec 5 → BitVec 5 → SlotCtx → SlotEff) =>
    if wf w 5 3 = 0 then
      some (f (w % 2 = 1) (BitVec.ofNat 5 (w / 2 ^ 21)) (BitVec.ofNat 5 (w / 2 ^ 16)) (BitVec.ofNat 5 (w / 2 ^ 11))
        (BitVec.ofNat 5 (w / 2 ^ 6)))
    else none
  if mj = 0x00 then r (decIntR mi)
  else if mj = 0x01 then some (effAddi rd ra i14)
  else if mj = 0x02 then some (effAndi rd ra i14)
  else if mj = 0x03 then some (effOri rd ra i14)
  else if mj = 0x04 then some (effXori rd ra i14)
  else if mj = 0x05 then some (effSlti rd ra i14)
  else if mj = 0x06 then some (effShI rd ra i14)
  else if mj = 0x07 then some (effLdi rd i20)
  else if mj = 0x08 then some (effLdiSh rd i20)
  else if mj = 0x09 then
    let len1 : BitVec 6 := BitVec.ofNat 6 (w / 4)
    if w % 4 = 0 then some (effBfExt rd ra rb len1)
    else if w % 4 = 1 then some (effBfExts rd ra rb len1)
    else if w % 4 = 2 then some (effBfIns rd ra rb len1)
    else none
  else if mj = 0x0A then r (decField false mi)
  else if mj = 0x0B then r (decField true mi)
  else if 0x10 ≤ mj ∧ mj ≤ 0x1E then (decM mj).map fun f => f rd ra i14
  else if mj = 0x1F then r (decMemX mi)
  else if mj = 0x20 then r (decFp mi)
  else if mj = 0x21 then
    let op := wf w 2 1
    if op = 0 then f4 effFma else if op = 1 then f4 effFms else if op = 2 then f4 effFnma else f4 effFnms
  else if mj = 0x22 then decFrac mi rd ra rb
  else if mj = 0x30 then some (effBZ rd i20)
  else if mj = 0x31 then some (effBNz rd i20)
  else if mj = 0x32 then some (effBLt rd i20)
  else if mj = 0x33 then some (effBGe rd i20)
  else if mj = 0x34 then some (effJmp rd i20)
  else if mj = 0x35 then (if mi = 0 then some (effJr rd ra) else none)
  else if mj = 0x36 then some (effLpSet (BitVec.ofNat 2 (w / 2 ^ 24)) (wreg w 18) (BitVec.ofNat 18 w))
  else if mj = 0x38 then (if wf w 13 9 = 0 ∧ ra.toNat = 0 then some (effMfcr rd (BitVec.ofNat 9 w)) else none)
  else if mj = 0x39 then (if wf w 13 9 = 0 ∧ rd.toNat = 0 then some (effMtcr (BitVec.ofNat 9 w) ra) else none)
  else if mj = 0x3A then decSys mi rd ra rb
  else if mj = 0x3B then decLong mi budget rd ra rb
  else none

/-- The effect of the word w in slot k (02 R58). Its major opcode gives the group of an unassigned word no matter. -/
def effWord (budget w k : Nat) (c : SlotCtx) : SlotEff :=
  let e := match decWord budget w with | some f => f c | none => effReserved .integer
  { e with slot := k }

end Sys2Proof.Machine
end

