-- ==== Sys2Proof/Machine/Debug.lean ====
section
/-! DEFINITION. The debug port (20 R506 to R510, 06 R177 to R179): requests with their replies, halt, resume, single step. -/

namespace Sys2Proof.Machine
open Sys2Proof

/-! ### Requests and replies (20 R506, R507) -/

/-- The reply to a request. -/
def State.dbgReply (s : State) (op : Nat) (q : DbgReq) (status : Nat) (addr data : Word) : State :=
  { s with dbg := some { op := op, tag := q.tag.toNat, status := status, addr := addr.toNat, data := data.toNat } }

/-- Number of a path as the fault sources record it, in the order of 20 R506. -/
def dbgPathNum : DbgPath → Nat
  | .jtag => 0
  | .service => 1

/-- May DBG_CTL.LOCK let a read of this address through: the windows of counters, fault collection and start-up (20 R508)? -/
def dbgOpenRead (a : Nat) : Bool := (decide (winBase 2 ≤ a) && decide (a < winBase 5))

/-- Does a request reach the debug port? One from JTAG wakes the debug domain as any use of it does (18 R475). -/
def State.dbgHears (s : State) (q : DbgReq) : Bool :=
  s.refState ≠ 4 && !s.therm.stopped && s.gateRuns 32 && s.domUsable 60
    && (q.path = .jtag || s.flag aDbgStatus 0)

/-- A request is performed by f, or answered with status 0x04 while it is locked out. -/
def State.dbgDo (s : State) (op : Nat) (q : DbgReq) (f : State → State) : State :=
  if !s.dbgHears q then s
  else
    let s := s.wakeDom 60
    let s := if q.path = .jtag then s.setFld aDbgStatus 1 1 1 else s
    if s.flag aDbgCtl 0 && !(op = 1 && dbgOpenRead q.addr.toNat) then s.dbgReply op q 4 q.addr q.data else f s

/-- The triad of a request. -/
def dbgTri (q : DbgReq) : Tri := triOf q.triad.toNat
/-- Is it a triad that is formed and halted? -/
def State.dbgHalted (s : State) (q : DbgReq) : Bool := decide (q.triad.toNat < 32) && s.halted (dbgTri q)

/-- A request to the halted lead, or status 0x03. -/
def State.dbgLead (s : State) (op : Nat) (q : DbgReq) (f : State → Tri → State) : State :=
  s.dbgDo op q fun s => if s.dbgHalted q then f s (dbgTri q) else s.dbgReply op q 3 q.addr q.data

/-- DBG_WRITE (20 R510). -/
def State.dbgWrote (s : State) (addr : Word) (unit : Nat) : State := s.raise { src := 0x4E2, info0 := addr.toNat, unit := unit }

/-! ### Absolute addresses -/

/-- Does an absolute address answer the hub (01 R18): aligned doubleword of a control register, or memory? -/
def State.absOk (s : State) (a : Nat) : Bool :=
  if isCtl a then a % 8 = 0 && (regDesc a).isSome else (List.range 8).all fun i => s.memOk (a + i)

/-- RD_ABS. -/
def State.rdAbs (s : State) (q : DbgReq) : State :=
  s.dbgDo 1 q fun s =>
    let a := q.addr.toNat
    if !s.absOk a then s.dbgReply 1 q 1 q.addr 0
    else if isCtl a then let (v, s) := s.ctlRead a; s.dbgReply 1 q 0 q.addr v
    else if (List.range 8).any fun i => s.badByte (a + i) then s.dbgReply 1 q 1 q.addr 0
    else
      let v := w64 (s.num a 8)
      ([a / 128, (a + 7) / 128].eraseDups.foldl (fun s line => s.hubShare line) s).dbgReply 1 q 0 q.addr v

/-- WR_ABS. -/
def State.wrAbs (s : State) (q : DbgReq) : State :=
  s.dbgDo 2 q fun s =>
    let a := q.addr.toNat
    if !s.absOk a then s.dbgReply 2 q 1 q.addr q.data
    else
      let s := if isCtl a then s.ctlWrite a q.data else s.hubPut a (leBytes 8 q.data.toNat)
      (s.dbgWrote q.addr 0x7F).dbgReply 2 q 0 q.addr q.data

/-! ### Halt, resume, step -/

/-- HALT: an auto power state is left first; the halt takes effect at the first boundary with every record released. -/
def State.dbgHalt (s : State) (q : DbgReq) : State :=
  s.dbgDo 0x10 q fun s =>
    let n := dbgTri q
    if !decide (q.triad.toNat < 32) || s.mode n = 0 || s.mode n = 5 || s.mode n = 6 || s.checkstopped n then
      s.dbgReply 0x10 q 3 q.addr q.data
    else if s.halted n then s.dbgReply 0x10 q 0 q.addr q.data
    else
      let s := (s.wakeDom n.val).updLp n fun l => { l with haltReq := true }
      (s.haltCheck n).dbgReply 0x10 q 0 q.addr q.data

/-- A halted LP goes on; the replay log is empty before a core issues (06 R178). -/
def State.unhalt (s : State) (n : Tri) : State := (s.setFld (aTrdState n) 33 33 0).updLp n fun l => { l with replay := [] }

/-- RESUME. -/
def State.dbgResume (s : State) (q : DbgReq) : State :=
  s.dbgLead 0x11 q fun s n => (s.unhalt n).dbgReply 0x11 q 0 q.addr q.data

/-- The bundle in memory at PC as the lead fetches it: four words (02 R43). -/
def State.fetchWords (s : State) (n : Tri) : List Nat :=
  match s.fetchFault n with
  | .error _ => []
  | .ok fa => (List.range 4).map fun k => leNat (((fa.addrs.drop (4 * k)).take 4).map s.byte)

/-- STEP: the event that is due is taken, or else the bundle at PC executes, under voting; the LP halts at the next boundary. -/
def State.stepBundle (s : State) (n : Tri) (budget : Nat) : State :=
  let s := s.boundary n
  let (s, taken) := s.checkEvents n
  if taken || (s.lp n).waiting then s
  else
    let c := s.slotCtx n
    let ws := s.fetchWords n
    let effs := ((List.range ws.length).zip ws).map fun e => effWord budget e.2 e.1 c
    s.attempt n { effs := effs }

/-- STEP. -/
def State.dbgStep (s : State) (q : DbgReq) (budget : Nat) : State :=
  s.dbgLead 0x12 q fun s n =>
    let s := ((s.unhalt n).updLp n fun l => { l with haltReq := true, stepping := true }).stepBundle n budget
    (s.haltCheck n).dbgReply 0x12 q 0 q.addr q.data

/-! ### Registers and memory of the halted lead -/

/-- RD_REG. -/
def State.rdReg (s : State) (q : DbgReq) : State :=
  s.dbgLead 0x20 q fun s n =>
    if q.addr.toNat < 0x200 then s.dbgReply 0x20 q 0 q.addr ((s.lp n).vsGet q.addr.toNat) else s.dbgReply 0x20 q 1 q.addr 0

/-- A write joins the replay log, whose oldest entry drains when it is full (06 R178). -/
def Lp.logWrite (l : Lp) (r : Replay) : Lp := { l with replay := (if 32 ≤ l.replay.length then l.replay.drop 1 else l.replay) ++ [r] }

/-- A register of the halted lead and of the voted state written. -/
def Lp.leadSet (l : Lp) (i : Nat) (v : Word) : Lp :=
  let l := l.vsSet i v
  { l with arch := match l.vsShadow with | some ws => { l.voted with shadows := armWords ws } | none => l.voted }

/-- WR_REG. -/
def State.wrReg (s : State) (q : DbgReq) : State :=
  s.dbgLead 0x21 q fun s n =>
    if 0x200 ≤ q.addr.toNat then s.dbgReply 0x21 q 1 q.addr q.data
    else
      let p := s.partOf n
      let s := s.updLp n fun l => (l.leadSet q.addr.toNat q.data).logWrite (.reg q.addr.toNat q.data)
      -- a write that changes the partition identifier flushes the predictors (04 R117)
      let s := if s.partOf n = p then s else s.flushPred n true true
      (s.dbgWrote q.addr n.val).dbgReply 0x21 q 0 q.addr q.data

/-- An 8-byte access of the lead under its PSW. -/
def State.leadAccess (s : State) (n : Tri) (k : AccKind) (va : Word) : Except Flt Access :=
  s.access n (s.lp n).arch.pl { kind := k, va := va, size := 8 }

/-- RD_VMEM. What a device would answer to the lead's load is not the module's (log entry 4). -/
def State.rdVmem (s : State) (q : DbgReq) : State :=
  s.dbgLead 0x22 q fun s n =>
    match s.leadAccess n .load q.addr with
    | .error f => s.dbgReply 0x22 q 2 (w64 f.detail) (w64 f.vec)
    | .ok ac =>
      let s := s.applyFills n ac false
      match ac.region with
      | .mem =>
        if s.consumesPoison n [] ac.addrs then s.dbgReply 0x22 q 2 0 15
        else s.dbgReply 0x22 q 0 q.addr (w64 (leNat (s.ownBytes n [] ac.addrs)))
      | .ctl =>
        if s.reqPart n ≠ 0 then (s.regWrite (s.reqPart n) (ac.addrs.headD 0) 8 0).dbgReply 0x22 q 2 0 13
        else let (v, s) := s.ctlRead (ac.addrs.headD 0); s.dbgReply 0x22 q 0 q.addr v
      | _ => let (k, s) := s.draw; s.dbgReply 0x22 q 0 q.addr (Config.freeWord k)

/-- WR_VMEM: the write leaves the triad once, as a released store. It waits while the store buffer has no room. -/
def State.wrVmem (s : State) (q : DbgReq) : State :=
  s.dbgLead 0x23 q fun s n =>
    match s.leadAccess n .store q.addr with
    | .error f => s.dbgReply 0x23 q 2 (w64 f.detail) (w64 f.vec)
    | .ok ac =>
      if ac.region = .ctl && s.reqPart n ≠ 0 then (s.regWrite (s.reqPart n) (ac.addrs.headD 0) 8 0).dbgReply 0x23 q 2 0 13
      else if 32 ≤ (s.lp n).storeBuf.length then s
      else
        let s := s.applyFills n ac false
        let sts := (storeOf (s.reqPart n) { slot := 0, op := .store q.addr 8 q.data false, acc := ac }).toList
        let s := s.updLp n fun l => { l with storeBuf := l.storeBuf ++ sts }.logWrite (.mem q.addr 8 q.data)
        (s.dbgWrote q.addr n.val).dbgReply 0x23 q 0 q.addr q.data

/-- RD_CS: control store and match registers of the lead (20 R507, 16 R431). -/
def State.rdCs (s : State) (q : DbgReq) : State :=
  s.dbgLead 0x24 q fun s n =>
    let _ := n
    let a := q.addr.toNat
    let k := a / 0x10000
    let i := a % 0x10000
    let word := fun (i : Nat) => if i < 0x4000 then Config.microWord i else s.patchWord (i - 0x4000)
    if k ≤ 2 ∧ i < 0x4400 then
      let w := word i % 2 ^ 144
      let c := if i < 0x4000 then Config.microWord i / 2 ^ 144 else Config.microCheck w
      s.dbgReply 0x24 q 0 q.addr (microPart w c k)
    else if 0x8000 ≤ a ∧ a < 0x8040 then s.dbgReply 0x24 q 0 q.addr (w64 (s.kst.patch.matches_.getD (a - 0x8000) 0))
    else s.dbgReply 0x24 q 1 q.addr 0

/-! ### Session and errors -/

/-- SERVICE_PORT_CONNECT. -/
def State.dbgConnect (s : State) : State :=
  if !s.domUsable 60 || s.refState = 4 || s.flag aDbgStatus 0 then s
  else ((s.wakeDom 60).setFld aDbgStatus 0 0 1).raise { src := 0x4E0, idA := dbgPathNum .service }

/-- SERVICE_PORT_CONNECTION_CLOSE. -/
def State.dbgClose (s : State) : State := s.setFld aDbgStatus 0 0 0

/-- DEBUG_REQUEST_CRC_ERROR. -/
def State.dbgCrc (s : State) (op : Nat) (q : DbgReq) : State :=
  if !s.dbgHears q then s
  else
    let s := (s.wakeDom 60).setFld aDbgStatus 2 2 1
    let s := if q.path = .jtag then s.setFld aDbgStatus 1 1 1 else s
    (s.raise { src := 0x4E3, idA := dbgPathNum q.path }).dbgReply op q 5 q.addr q.data

/-- LOCK. -/
def State.dbgLock (s : State) : State := s.ctlWrite aDbgCtl 1

end Sys2Proof.Machine
end

