-- ==== Sys2Proof/Machine/Collector.lean ====
section
/-! DEFINITION. The reactions of the fault collector (17 R442 to R445), and what settles at the end of every command: raised events, pending
frequency and power changes, the ends of saves and of clock hold. Also PF_WARN_N and the thermal trip (10 R263, R272, 21 R525, R526). -/

namespace Sys2Proof.Machine
open Sys2Proof

/-! ### Chip reset with its save (10 R263, 17 R445) -/

/-- Is every link of the map UP or DEGRADED, so that a fault-ordered reset is saved? -/
def State.canSave (s : State) : Bool := s.flag aMemMap 63 && s.mapLinks.all s.linkUsable

/-- ERR_OUT_N is held until release. -/
def State.holdErr (s : State) : State := { s with fcu := { s.fcu with errHold := true } }

/-- A chip reset ordered by class k. -/
def State.faultReset (s : State) (k : Nat) : State :=
  if s.canSave then (s.saveStart 2 k false false).holdErr else (s.chipReset 3 2).holdErr

/-! ### Block resets (17 R444) -/

/-- A triad's block reset. -/
def State.triadReset (s : State) (n : Tri) : State :=
  if s.mode n = 0 then s
  else
    let (s, bad) := s.drawFailed (s.candidates n)
    ((s.reform n bad).cntRestart n.val).cntRestart (0x20 + n.val)

/-- A control-store block reset: the triad that holds the core recorded, or an unused spare, which fails. -/
def State.coreReset (s : State) (d : Fin 4) (unit : Nat) : State :=
  let c := unit % 32
  match s.coreTri d c with
  | some n => s.triadReset n
  | none => if 24 ≤ c ∧ c < 26 then (s.setSpare (triOf (8 * d.val)) (c - 24) 3).spareOn (triOf (8 * d.val)) (c - 24) false else s

/-- A memory link trains again in full; how many lanes train is the environment's (log entry 10). -/
def State.linkReset (s : State) (m : Nat) : State :=
  if !s.linkUsable m then s
  else
    let (k, s) := s.draw
    let (k', s) := s.draw
    let s := (s.cntRestart (0x180 + m)).setFld (aMemLinkStatus m) 25 24 2
    if Config.selfTest k then (s.setFld (aMemLinkStatus m) 2 0 2).setFld (aMemLinkStatus m) 11 8 8
    else if Config.selfTest k' then (s.setFld (aMemLinkStatus m) 2 0 3).setFld (aMemLinkStatus m) 11 8 4
    else s.linkFail m

/-- A root port's block reset. -/
def State.rootReset (s : State) (n r : Nat) : State :=
  if !s.rootOk n r then s else ((s.linkDown n r).rootTrain n r).cntRestart (0x1B0 + 4 * n + r)

/-- The block that owns a source is reset. -/
def State.blockReset (s : State) (f : FaultInfo) (k : Nat) : State :=
  let i := f.src
  let s := { s with fcu := { s.fcu with resetting := blockBase i :: s.fcu.resetting } }
  if i < 0x200 then s.triadReset (triOf (i / 16))
  else if i < 0x240 then
    let d : Fin 4 := ⟨(i - 0x200) / 16 % 4, Nat.mod_lt _ (by decide)⟩
    if i % 16 < 4 then s.faultReset k else s.coreReset d f.unit
  else if i < 0x2C0 then s.linkReset ((i - 0x240) / 8)
  else if i < 0x3C0 then
    let p := (i - 0x2C0) / 8
    if s.portState p = 0 then s else (s.portDown p 1).cntRestart (0x190 + p)
  else if i < 0x440 then let q := (i - 0x3C0) / 8; s.rootReset (q / 4) (q % 4)
  else if i < 0x480 then let e := (i - 0x440) / 8; (s.engineReset e).cntRestart (0x1C0 + e)
  else if i < 0x4C0 then let e := (i - 0x480) / 8; (s.cphReset e).cntRestart (0x1C8 + e)
  else s.faultReset k

/-! ### Reactions (17 R442, R443) -/

/-- The reaction of an accepted event of class k at a level. -/
def State.react (s : State) (f : FaultInfo) (k lvl : Nat) : State :=
  let t := match s.fcuTarget k with | some n => n | none => s.fcuTargetLp k
  if lvl = 0 then s.post t (s.fld (aFcuClassCfg k) 39 32)
  else if lvl = 1 then s.post t 33
  else if lvl = 2 then s.blockReset f k
  else s.faultReset k

/-- Raised events are accepted one after the other; a reaction may raise more. A further raise of a source accepted already is merged: what
one command does lies within one TOD unit, which is less than 8 hub cycles (17 R441; log entry 17). The first argument bounds their
number. -/
def State.collect : Nat → List Nat → State → State
  | 0, _, s => s
  | k + 1, seen, s =>
    match s.raised with
    | [] => s
    | f :: rest =>
      let s := { s with raised := rest }
      if seen.contains f.src then State.collect k seen (s.fcuMerge f)
      else
        let (s, r) := State.fcuAccept s f
        match r with
        | none => State.collect k (f.src :: seen) s
        | some (c, lvl) => State.collect k (f.src :: seen) (s.react f c lvl)

/-! ### The end of a command -/

/-- What waited for the end of clock hold (18 R465): the power-fail boundary, or a chip reset. -/
def State.holdOver (s : State) : State :=
  if s.refState = 4 then s
  else if s.pwr.holdPf then State.saveStart { s with pwr := { s.pwr with holdPf := false } } 1 0 true false
  else s

/-- A save that is over is followed by the chip reset of a fault-ordered one (10 R263). -/
def State.saveOver (s : State) : State :=
  if s.save.phase = .ended && !s.save.stay then (s.chipReset 3 2).holdErr else s

/-- Is a block still being reset: a Span port that trains again (17 R444)? -/
def State.portResetting (s : State) (b : Nat) : Bool := decide (0x2C0 ≤ b) && decide (b < 0x3C0) && s.portState ((b - 0x2C0) / 8) = 1

/-- What settles at the end of every command. In clock hold, and once every clock has stopped, the collector only keeps the events. -/
def State.settle (s : State) : State :=
  if s.refState = 4 || s.therm.stopped then
    { s with fcu := { s.fcu with late := s.fcu.late ++ s.raised }, raised := [] }
  else
    let s := ((s.freqSettle.domSettle).saveSettle).holdOver
    let s := State.collect 4096 [] s
    -- more events than the bound, which no command comes near, are kept
    let s := { s with raised := [], fcu := { s.fcu with resetting := s.fcu.resetting.filter s.portResetting, late := s.fcu.late ++ s.raised } }
    s.saveOver

/-! ### PF_WARN_N (10 R263, R272, R278, 18 R465) -/

/-- Before release a running tick generator issues the power-fail boundary too (01 R33). -/
def State.pfStart (s : State) : State := if s.tick.running && s.refState ≠ 4 then s.pfBoundary else s

/-- PF_WARN_N_ASSERT: the assertion has passed the filter. -/
def State.pfAssert (s : State) : State :=
  let s := { s with kst := { s.kst with pfWarn := true } }
  if s.therm.stopped then s
  else match s.kst.phase with
    | .due _ => s.pfStart.startAbandon
    | .halted => s.pfStart
    | .released =>
      if s.saving then { s with save := { s.save with stay := true } }
      else if s.save.phase = .ended then s
      else if s.refState = 4 then { s with pwr := { s.pwr with holdPf := true } }
      else s.saveStart 1 0 true false
    | _ => s

/-- PF_WARN_N_QUIET: it has stayed deasserted for 1 ms. -/
def State.pfQuiet (s : State) : State :=
  let s := { s with kst := { s.kst with pfWarn := false } }
  if s.therm.stopped || s.therm.trip then s
  else if s.save.phase = .ended && !s.save.thermal then s.chipReset 4 2
  else match s.kst.phase with
    | .abandoned => s.chipReset 4 2
    | _ => s

/-- A port's new training ends (12 R320). -/
def State.portTrained (s : State) (p : Nat) (ok : Bool) : State :=
  if (s.portState p ≠ 1 ∧ s.portState p ≠ 4) ∨ !s.gateRuns (20 + p / 8) then s
  else if ok then s.portUp p 2
  else if s.portState p = 1 then (s.raise { src := srcSpan p 2, idA := p }).setPortState p 4
  else s

/-- AER_ERROR_REPORTED: a fatal uncorrectable error takes the link down (12 R337). -/
def State.aerError (s : State) (n r rid : Nat) (uncorr fatal : Bool) : State :=
  if !s.rootUp n r || !s.gateRuns (28 + n) then s
  else
    let s := s.raise { src := srcRoot n r (if uncorr then 2 else 1), idA := 4 * n + r, idB := rid }
    if uncorr && fatal then s.linkDown n r else s

/-! ### Events of the hardware (07 R207, 17 R446, R454) -/

/-- A core's L1s remove a line and take it from the L2 again. -/
def CoreArr.refill (c : CoreArr) (line free : Nat) : CoreArr :=
  { c.drop line with l1i := if c.has true line then l1Fill (c.drop line).l1i line free else c.l1i
                     l1d := if c.has false line then l1Fill (c.drop line).l1d line free else c.l1d }

/-- L1_PARITY of core c of triad n: no other core is affected. -/
def State.l1Parity (s : State) (n : Tri) (c line : Nat) : State :=
  let (k, s) := s.draw
  let on := fun r (a : CoreArr) => if s.coreOf n r = c then a.refill line k else a
  (s.updLp n fun l => { l with lead := on .lead l.lead, second := on .second l.second, third := on .third l.third }).count
    (0x40 + 26 * (dieOf n).val + c) 4 1

/-- A double-bit error in a line that an L2 holds clean: it is removed and filled again. -/
def State.l2Refetch (s : State) (n : Tri) (line : Nat) : State :=
  if (s.lp n).l2St line = .i ∨ (s.lp n).l2St line = .m then s
  else (s.updLp n fun l => l.dropLine line).fillLine n (MissReg.of line)

/-- The same in an L3. -/
def State.l3Refetch (s : State) (d : Fin 4) (line : Nat) : State :=
  let st := s.l3St d line
  if st = .i ∨ st = .m then s else (s.updL3 d fun c => c.drop l3Sets line).l3Fill d 0 line st false true

/-- An uncorrectable error in modified data of an L2's line, or in its tag: the line goes to memory poisoned and leaves the array. -/
def State.l2Lost (s : State) (n : Tri) (line : Nat) (tag : Bool) : State :=
  match (s.lp n).l2Find line with
  | none => s
  | some k =>
    let e := (s.lp n).l2.pos k
    if e.st = .m then ((s.memPutLine line e.data 15).l3Clean (dieOf n) line).updLp n fun l => l.dropLine line
    else if tag then s.updLp n fun l => l.dropLine line
    else s

/-- The same in an L3. -/
def State.l3Lost (s : State) (d : Fin 4) (line : Nat) (tag : Bool) : State :=
  match (s.l3Of d).find l3Sets line with
  | none => s
  | some k =>
    let e := (s.l3Of d).pos k
    if e.st = .m then (s.updL3 d fun c => c.put k { e with poison := 15 }).l3Evict d k
    else if tag then s.l3Evict d k
    else s

/-- What an array error does to its array: L1_PARITY records the core, every one its line (07 R207). A correction changes nothing. -/
def State.arrayError (s : State) (f : FaultInfo) : State :=
  let line := f.info0 / 128
  if f.src < 0x200 then
    let n := triOf (f.src / 16)
    let i := f.src % 16
    if i = 8 then s.l1Parity n (f.unit % 32) line
    else if i = 10 then s.l2Refetch n line
    else if i = 11 ∨ i = 12 then s.l2Lost n line (i = 12)
    else s
  else if f.src < 0x240 then
    let d : Fin 4 := ⟨(f.src - 0x200) / 16 % 4, Nat.mod_lt _ (by decide)⟩
    let i := f.src % 16
    if i = 1 then s.l3Refetch d line
    else if i = 2 ∨ i = 3 then s.l3Lost d line (i = 3)
    else if i = 4 ∨ i = 5 then s.count (0x40 + 26 * d.val + f.unit % 32) 5 1
    else s
  else s

/-- COLLECTOR_UE: an uncorrectable error in the state of class k. A reset is not performed again during a save or a start (17 R445,
R454). -/
def State.collectorUe (s : State) (k : Nat) : State :=
  let s := (s.setFld (aFcuClassStat k) 0 0 1).setFld (aFcuClassStat k) 4 3 3
  if s.fcuHeld 0x4C0 then s else s.faultReset k

/-- Events that are no source's, numbered from 0x600 (the model's numbers, log entry 34): 0x600 + k an uncorrectable error in the state
of class k, 0x610 a corrected one of the collector, 0x620 + n a tree-bit parity error in set info0 of the L2 of triad n, 0x640 + d one of
the L3 of die d (07 R207, 17 R454). -/
def State.unitEvent (s : State) (f : FaultInfo) : State :=
  if f.src < 0x610 then s.collectorUe (f.src - 0x600)
  else if f.src = 0x610 then s.addSat aFcuStatus 63 48 1
  else if 0x620 ≤ f.src ∧ f.src < 0x640 then
    s.updLp (triOf f.src) fun l => { l with l2 := { l.l2 with tree := smSet (fun _ => 0) l.l2.tree (f.info0 % l2Sets) 0 } }
  else if 0x640 ≤ f.src ∧ f.src < 0x644 then
    s.updL3 ⟨f.src % 4, Nat.mod_lt _ (by decide)⟩ fun c => { c with tree := smSet (fun _ => 0) c.tree (f.info0 % l3Sets) 0 }
  else s

/-- What HUB_TRS_WORST shows after TRS_BOUND_EXCEEDED of class k: more than its bound (01 R25). -/
def State.trsExceeded (s : State) (k : Nat) : State :=
  let (j, s) := s.draw
  s.setFld (aHubTrsWorst k) 15 0 (max (s.fld (aHubTrsWorst k) 15 0) (max (trsBound k + 1) (min (Config.trsWorst j) 0xFFFF)))

/-- Is it a source of a root port that the division in force does not form (17 R439)? -/
def State.rootAbsent (s : State) (src : Nat) : Bool :=
  decide (0x3C0 ≤ src) && decide (src < 0x440) && !s.rootOk ((src - 0x3C0) / 32) ((src - 0x3C0) / 8 % 4)

/-- A fault event of a unit, with what it records. -/
def State.faultEvent (s : State) (f : FaultInfo) : State :=
  if s.refState = 4 ∨ s.therm.stopped then (if (srcClass f.src).isNone then s else s.raise f)
  else if 0x600 ≤ f.src then s.unitEvent f
  else if (srcClass f.src).isNone || s.rootAbsent f.src then s
  else if f.src = 0x4C1 then (s.trsExceeded (f.idA % 3)).raise f
  else (s.arrayError f).raise f

/-! ### Temperatures (21 R522 to R526) -/

/-- A thermal trip at a sensor. -/
def State.thermTrip (s : State) (d i : Nat) (b : Byte) : State :=
  let s := { s with therm := { s.therm with trip := true } }
  let s := s.raise { src := 0x4E6, idA := i, idB := b.toNat, unit := d }
  if s.kst.phase ≠ .released then
    { s.startAbandon with therm := { s.therm with stopped := true } }
  else if s.save.phase ≠ .none then { s with save := { s.save with stay := true, thermal := true } }
  else if s.canSave && s.refState ≠ 4 then s.saveStart 2 9 true true
  else { s with therm := { s.therm with stopped := true } }

/-- SENSOR_READ: 36 readings. -/
def State.thermRead (s : State) (rs : List Byte) : State :=
  if s.therm.stopped then s
  else
    let s := s.sensorRead rs
    let s := if s.therm.trip then s
      else match s.overTemp rs 115 with
        | some (d, i, b) => s.thermTrip d i b
        | none => s
    if s.saving && (s.overTemp rs 125).isSome then { s with therm := { s.therm with stopped := true } } else s

end Sys2Proof.Machine
end

