-- ==== Sys2Proof/Machine/Answer.lean ====
section
/-! DEFINITION. What every command's meaning shares: how it answers, when units take part, and access to a register by its own command. -/

namespace Sys2Proof.Machine
open Sys2Proof

/-- What a command answers. -/
abbrev Answer := Host.Outcome State Fault Refusal

/-- The command's effect, settled. -/
def State.done (s : State) : Answer := .next s.settle

/-- Do the clocks run (18 R462, 21 R525)? -/
def State.clocked (s : State) : Bool := s.refState ≠ 4 && !s.therm.stopped
/-- Is the module released and its save, if any, not over? -/
def State.alive (s : State) : Bool := s.clocked && s.kst.phase = .released && s.save.phase ≠ .ended

/-- A command of a unit that takes part only between release and a save. -/
def State.atUnits (s : State) (f : State → State) : Answer := State.done (if s.running then f s else s)
/-- A command that a save under way does not stop. -/
def State.atAlive (s : State) (f : State → State) : Answer := State.done (if s.alive then f s else s)
/-- A TOD comparator, in always-on logic, fires in HOLD too; the posting waits for the triad's clock (18 R462, R477). -/
def State.atTod (s : State) (f : State → State) : Answer :=
  State.done (if s.running || (s.refState = 4 && s.kst.phase = .released && s.save.phase ≠ .ended && !s.therm.stopped) then f s else s)
/-- A command that needs only running clocks. -/
def State.atClocks (s : State) (f : State → State) : Answer := State.done (if s.clocked then f s else s)

/-- A command that stands for a write of the register at a: the access is counted, and dropped where the block's gate is closed or its
domain OFF (01 R18, 18 R469). -/
def State.viaWindow (s : State) (a : Nat) (f : State → State) : State :=
  let s := s.count 0x1D4 1 1
  if s.winShut a then s.count 0x1D4 2 1 else f s

/-- Does a write of the register at a reach it: after release any, before it those of the start-up and debug windows (19 R487)? -/
def State.writable (s : State) (a : Nat) : Bool :=
  s.running || (s.clocked && (decide (winBase 3 ≤ a) && decide (a < winBase 4) || decide (winBase 0x40 ≤ a)))

/-- A write of the register at a as a command. -/
def State.wrReg1 (s : State) (a : Nat) (v : Word) : Answer := State.done (if s.writable a then s.ctlWrite a v else s)

/-- A write of TRD_PRED_CTL as a command: one made in clock hold is kept for the first boundary after it (04 R118). -/
def State.wrHeld (s : State) (a : Nat) (v : Word) : Answer :=
  State.done (if s.writable a || (s.refState = 4 && s.kst.phase = .released) then s.ctlWrite a v else s)

/-- The bundle boundary of an LP looks for events (05 R127). -/
def State.eventCheck (s : State) (n : Tri) : State :=
  if s.issues n && !(s.lp n).retried then ((s.boundary n).checkEvents n).1 else s

/-- STORE_PERFORMED, COMBINING_BUFFER_DRAIN, answers: what waited for them goes on. -/
def State.goOn (s : State) : State := s.reattemptAll

/-- A slice of the engine's served request ends with an upset, or with its end. -/
def State.engineEnd (s : State) (e : Nat) (upset : Option Bool) : State :=
  match upset with
  | none => s.engineCompletion e
  | some verify => s.engineUpset e verify

/-- The random source fails a continuous or start-up test, unless its clock is stopped. -/
def State.rngUpset (s : State) (cause : Nat) : State :=
  if s.domState 61 = 3 || !s.gateRuns 16 || s.rngFailed then s else s.rngFail cause

/-- RNG_DATA, TRD_VS_DATA: the value read is left in `bus`. -/
def State.busRead (s : State) (a : Nat) : State := let (v, s) := s.ctlRead a; { s with bus := v }

/-- TRD_VS_DATA read, or written. -/
def State.vsAccess (s : State) (n : Tri) (wr : Option Word) : State :=
  match wr with
  | none => s.busRead (aTrdVsData n.val)
  | some v => s.ctlWrite (aTrdVsData n.val) v

/-- The miss that a line waits for is filled; one that finds no memory slot of its partition waits (15 R417). -/
def State.cacheFill (s : State) (n : Tri) (line : Nat) : State :=
  match (s.lp n).missOf line with
  | some r => if s.fillWaits n line then s else s.fill n r
  | none => s

/-- The command of an idle block: time passes (log entry 14). -/
def idleStep (s : State) : Answer := s.idle.done

end Sys2Proof.Machine
end

