-- ==== Sys2Proof/Machine/ExecBranch.lean ====
section
/-! DEFINITION. Meanings of commands. Branches and `lp.set` (04 R99 to R107). -/

namespace Sys2Proof.Machine
open Sys2Proof

/-- B_Z: `b.z ra, disp` (R99). -/
def execBZ (at_ : Issue) (ra : Reg) (disp : BitVec 20) (s : State) : Answer := State.done (s.stage at_ (effBZ ra disp))

/-- B_NZ: `b.nz ra, disp` (R99). -/
def execBNz (at_ : Issue) (ra : Reg) (disp : BitVec 20) (s : State) : Answer := State.done (s.stage at_ (effBNz ra disp))

/-- B_LT: `b.lt ra, disp` (R99). -/
def execBLt (at_ : Issue) (ra : Reg) (disp : BitVec 20) (s : State) : Answer := State.done (s.stage at_ (effBLt ra disp))

/-- B_GE: `b.ge ra, disp` (R99). -/
def execBGe (at_ : Issue) (ra : Reg) (disp : BitVec 20) (s : State) : Answer := State.done (s.stage at_ (effBGe ra disp))

/-- JMP: `jmp rd, disp` (R99). -/
def execJmp (at_ : Issue) (rd : Reg) (disp : BitVec 20) (s : State) : Answer := State.done (s.stage at_ (effJmp rd disp))

/-- JR: `jr rd, ra` (R99). -/
def execJr (at_ : Issue) (rd ra : Reg) (s : State) : Answer := State.done (s.stage at_ (effJr rd ra))

/-- LP_SET: `lp.set level, ra, end` (R106). -/
def execLpSet (at_ : Issue) (level : BitVec 2) (ra : Reg) (endOff : BitVec 18) (s : State) : Answer :=
  State.done (s.stage at_ (effLpSet level ra endOff))

end Sys2Proof.Machine
end

