-- ==== Sys2Proof/Machine/ExecCss.lean ====
section
/-! DEFINITION. Meanings of commands. The channel subsystem (11). -/

namespace Sys2Proof.Machine
open Sys2Proof

/-- CSS_DBL_WRITE: CSS_DBL_n (11 R283). -/
def execCssDblWrite (line : Fin 1024) (v : Word) (s : State) : Answer := s.wrReg1 (aCssDbl line.val) v

/-- DOORBELL_REREAD: The subsystem reads a watched line again (11 R284). -/
def execDoorbellReread (line : Fin 1024) (s : State) : Answer := s.atUnits fun s => s.rereadLine line.val

/-- CREATE: CREATE of a ring (11 R288 to R291). -/
def execCreateRing (ring : BitVec 14) (s : State) : Answer := s.atUnits fun s => s.viaWindow aCssRcmd fun s => s.cmdCreate ring.toNat

/-- DESTROY: DESTROY of a ring (11 R292). -/
def execDestroyRing (ring : BitVec 14) (s : State) : Answer := s.atUnits fun s => s.viaWindow aCssRcmd fun s => s.cmdDestroy ring.toNat

/-- DESTROY_END: The last operation of a draining ring has completed (11 R292). -/
def execDestroyEnd (ring : BitVec 14) (s : State) : Answer := s.atUnits fun s => s.destroyEnd ring.toNat

/-- RETARGET: RETARGET of a ring (11 R292). -/
def execRetargetRing (ring : BitVec 14) (s : State) : Answer := s.atUnits fun s => s.viaWindow aCssRcmd fun s => s.cmdRetarget ring.toNat

/-- RESUME: RESUME of a ring (11 R292). -/
def execResumeRing (ring : BitVec 14) (s : State) : Answer := s.atUnits fun s => s.viaWindow aCssRcmd fun s => s.cmdResume ring.toNat

/-- QUERY: QUERY of a ring (11 R292, R316). -/
def execQueryRing (ring : BitVec 14) (s : State) : Answer := s.atUnits fun s => s.viaWindow aCssRcmd fun s => s.cmdQuery ring.toNat

/-- CSS_JRNL_WRITE: CSS_JRNL of partition p + 1 (11 R306). -/
def execCssJrnlWrite (p : Fin 32) (v : Word) (s : State) : Answer := s.wrReg1 (aCssJrnl (p.val + 1)) v

/-- ENTRY_ADMISSION: The next submission entry of a ring is admitted (11 R295 to R301). -/
def execEntryAdmission (ring : BitVec 14) (s : State) : Answer := s.atUnits fun s => s.admitEntry ring.toNat none

/-- NOP: The next submission entry of a ring, if it is a NOP, is admitted (11 R295). -/
def execOpNop (ring : BitVec 14) (s : State) : Answer := s.atUnits fun s => s.admitEntry ring.toNat (some 0x00)

/-- READ: The next submission entry of a ring, if it is a READ, is admitted (11 R295). -/
def execOpRead (ring : BitVec 14) (s : State) : Answer := s.atUnits fun s => s.admitEntry ring.toNat (some 0x01)

/-- WRITE: The next submission entry of a ring, if it is a WRITE, is admitted (11 R295). -/
def execOpWrite (ring : BitVec 14) (s : State) : Answer := s.atUnits fun s => s.admitEntry ring.toNat (some 0x02)

/-- CONTROL: The next submission entry of a ring, if it is a CONTROL, is admitted (11 R295). -/
def execOpControl (ring : BitVec 14) (s : State) : Answer := s.atUnits fun s => s.admitEntry ring.toNat (some 0x03)

/-- COMPRESS: The next submission entry of a ring, if it is a COMPRESS, is admitted (11 R295). -/
def execOpCompress (ring : BitVec 14) (s : State) : Answer := s.atUnits fun s => s.admitEntry ring.toNat (some 0x10)

/-- DECOMPRESS: The next submission entry of a ring, if it is a DECOMPRESS, is admitted (11 R295). -/
def execOpDecompress (ring : BitVec 14) (s : State) : Answer := s.atUnits fun s => s.admitEntry ring.toNat (some 0x11)

/-- CIPHER: The next submission entry of a ring, if it is a CIPHER, is admitted (11 R295). -/
def execOpCipher (ring : BitVec 14) (s : State) : Answer := s.atUnits fun s => s.admitEntry ring.toNat (some 0x18)

/-- OPERATION_ISSUE: A PREPARED operation of partition p + 1 is issued (11 R308). -/
def execOperationIssue (p : Fin 32) (slot : BitVec 16) (s : State) : Answer := s.atUnits fun s => s.issueOp (p.val + 1) slot.toNat

/-- PATH_FAILED: A path of a session has failed (11 R311). -/
def execPathFailed (session : BitVec 12) (path : Fin 8) (s : State) : Answer := s.atUnits fun s => s.pathFail session.toNat path.val

/-- PATH_WAIT_EXPIRY: PATH_WAIT of a session ends (11 R312). -/
def execPathWaitExpiry (session : BitVec 12) (s : State) : Answer := s.atUnits fun s => s.expireAt (.pathWait session.toNat)

/-- RESUME_TICKS_EXPIRY: RESUME_TICKS of a session ends (11 R533). -/
def execResumeTicksExpiry (session : BitVec 12) (s : State) : Answer := s.atUnits fun s => s.expireAt (.resume session.toNat)

/-- HUB_PMT_WRITE_RESUME: HUB_PMT of partition p + 1 (11 R532). -/
def execHubPmtWriteResume (p : Fin 32) (v : Word) (s : State) : Answer := s.wrReg1 (aHubPmt (p.val + 1)) v

/-- JOURNAL_WRITEBACK: A journal entry of partition p + 1 is written back (11 R309). -/
def execJournalWriteback (p : Fin 32) (slot : BitVec 16) (s : State) : Answer := s.atUnits fun s => s.jrnlWriteback (p.val + 1) slot.toNat

end Sys2Proof.Machine
end

