-- ==== Sys2Proof/Machine/ExecDebug.lean ====
section
/-! DEFINITION. Meanings of commands. The debug port (20). -/

namespace Sys2Proof.Machine
open Sys2Proof

/-- HALT: Debug request HALT (20 R507 to R509). -/
def execHalt (q : DbgReq) (s : State) : Answer := State.done (s.dbgHalt q)

/-- DBG_RESUME: Debug request DBG_RESUME (20 R507 to R509). -/
def execDbgResume (q : DbgReq) (s : State) : Answer := State.done (s.dbgResume q)

/-- STEP: Debug request STEP; `budget` bounds the units of a long instruction (06 R179). -/
def execStep (q : DbgReq) (budget : Nat) (s : State) : Answer := State.done (s.dbgStep q budget)

/-- RD_ABS: Debug request RD_ABS (20 R507 to R509). -/
def execRdAbs (q : DbgReq) (s : State) : Answer := State.done (s.rdAbs q)

/-- WR_ABS: Debug request WR_ABS (20 R507 to R509). -/
def execWrAbs (q : DbgReq) (s : State) : Answer := State.done (s.wrAbs q)

/-- RD_REG: Debug request RD_REG (20 R507 to R509). -/
def execRdReg (q : DbgReq) (s : State) : Answer := State.done (s.rdReg q)

/-- WR_REG: Debug request WR_REG (20 R507 to R509). -/
def execWrReg (q : DbgReq) (s : State) : Answer := State.done (s.wrReg q)

/-- RD_VMEM: Debug request RD_VMEM (20 R507 to R509). -/
def execRdVmem (q : DbgReq) (s : State) : Answer := State.done (s.rdVmem q)

/-- WR_VMEM: Debug request WR_VMEM (20 R507 to R509). -/
def execWrVmem (q : DbgReq) (s : State) : Answer := State.done (s.wrVmem q)

/-- RD_CS: Debug request RD_CS (20 R507 to R509). -/
def execRdCs (q : DbgReq) (s : State) : Answer := State.done (s.rdCs q)

/-- LOCK: DBG_CTL.LOCK (20 R508). -/
def execLock (s : State) : Answer := s.wrReg1 (aDbgCtl) 1

/-- SERVICE_PORT_CONNECT: A service-port connection opens (20 R506). -/
def execServicePortConnect (s : State) : Answer := s.atClocks fun s => s.dbgConnect

/-- SERVICE_PORT_CONNECTION_CLOSE: The service-port connection closes (20 R506). -/
def execServicePortConnectionClose (s : State) : Answer := State.done (s.dbgClose)

/-- DEBUG_REQUEST_CRC_ERROR: A debug request fails its CRC (20 R507). -/
def execDebugRequestCrcError (q : DbgReq) (op : BitVec 8) (s : State) : Answer := State.done (s.dbgCrc op.toNat q)

end Sys2Proof.Machine
end

