-- ==== Sys2Proof/Machine/ExecEngine.lean ====
section
/-! DEFINITION. Meanings of commands. Compression engines, cipher pipelines, key store, random source (13, 14). -/

namespace Sys2Proof.Machine
open Sys2Proof

/-- ENGINE_REQUEST_PLACEMENT: The first queued compression request is placed (13 R344). -/
def execEngineRequestPlacement (s : State) : Answer := s.atUnits fun s => s.cmpPlace

/-- SLICE_BOUNDARY: An engine has done a slice of 64 KiB (13 R344). -/
def execSliceBoundary (e : Fin 8) (s : State) : Answer := s.atUnits fun s => s.sliceBoundary e.val

/-- ENGINE_COMPLETION: The served request ends: in its slice, or by the verifier (true) or the staging (false) failing (13 R345, R350,
R375). -/
def execEngineCompletion (e : Fin 8) (upset : Option Bool) (s : State) : Answer := s.atUnits fun s => s.engineEnd e.val upset

/-- CIPHER_REQUEST_PLACEMENT: The first queued cipher request that has a place is placed (14 R391). -/
def execCipherRequestPlacement (s : State) : Answer := s.atUnits fun s => s.cphPlace

/-- CLASS_0_RESUME: The suspended class-0 message resumes (14 R392). -/
def execClass0Resume (e : Fin 8) (s : State) : Answer := s.atUnits fun s => s.cphResume e.val

/-- ENCRYPT: Pipeline e works on its message, if it is ENCRYPT, for up to `blocks` blocks (14 R378). -/
def execEncrypt (e : Fin 8) (blocks : Nat) (s : State) : Answer := s.atUnits fun s => s.cphOp e.val blocks 0x01

/-- DECRYPT: Pipeline e works on its message, if it is DECRYPT, for up to `blocks` blocks (14 R378). -/
def execDecrypt (e : Fin 8) (blocks : Nat) (s : State) : Answer := s.atUnits fun s => s.cphOp e.val blocks 0x02

/-- MAC_GEN: Pipeline e works on its message, if it is MAC_GEN, for up to `blocks` blocks (14 R378). -/
def execMacGen (e : Fin 8) (blocks : Nat) (s : State) : Answer := s.atUnits fun s => s.cphOp e.val blocks 0x03

/-- MAC_VERIFY: Pipeline e works on its message, if it is MAC_VERIFY, for up to `blocks` blocks (14 R378). -/
def execMacVerify (e : Fin 8) (blocks : Nat) (s : State) : Answer := s.atUnits fun s => s.cphOp e.val blocks 0x04

/-- KEY_LOAD: Pipeline e works on its message, if it is KEY_LOAD, for up to `blocks` blocks (14 R378). -/
def execKeyLoad (e : Fin 8) (blocks : Nat) (s : State) : Answer := s.atUnits fun s => s.cphOp e.val blocks 0x10

/-- KEY_GEN: Pipeline e works on its message, if it is KEY_GEN, for up to `blocks` blocks (14 R378). -/
def execKeyGen (e : Fin 8) (blocks : Nat) (s : State) : Answer := s.atUnits fun s => s.cphOp e.val blocks 0x11

/-- KEY_EXPORT: Pipeline e works on its message, if it is KEY_EXPORT, for up to `blocks` blocks (14 R378). -/
def execKeyExport (e : Fin 8) (blocks : Nat) (s : State) : Answer := s.atUnits fun s => s.cphOp e.val blocks 0x12

/-- KEY_CLEAR: Pipeline e works on its message, if it is KEY_CLEAR, for up to `blocks` blocks (14 R378). -/
def execKeyClear (e : Fin 8) (blocks : Nat) (s : State) : Answer := s.atUnits fun s => s.cphOp e.val blocks 0x13

/-- RANDOM: Pipeline e works on its message, if it is RANDOM, for up to `blocks` blocks (14 R378). -/
def execRandom (e : Fin 8) (blocks : Nat) (s : State) : Answer := s.atUnits fun s => s.cphOp e.val blocks 0x20

/-- CIPHER_COMPLETION: The message of pipeline e reports (14 R389), or its staging fails (R409). -/
def execCipherCompletion (e : Fin 8) (upset : Bool) (s : State) : Answer :=
  s.atUnits fun s => if upset then s.cphUpset e.val else s.cphCompletion e.val

/-- AUTH_FAIL_ZEROING: A stretch of zeroing (14 R395). -/
def execAuthFailZeroing (e : Fin 8) (blocks : Nat) (s : State) : Answer := s.atUnits fun s => s.cphZeroing e.val blocks

/-- SEAL_GEN: CPH_KCMD SEAL_GEN of a slot (14 R384). -/
def execSealGen (slot : BitVec 13) (s : State) : Answer := s.atUnits fun s => s.viaWindow aCphKcmd fun s => s.sealGen slot.toNat

/-- SEAL_LOAD: CPH_KCMD SEAL_LOAD of a slot (14 R384). -/
def execSealLoad (slot : BitVec 13) (s : State) : Answer := s.atUnits fun s => s.viaWindow aCphKcmd fun s => s.sealLoad slot.toNat

/-- IMPORT: CPH_KCMD IMPORT of a slot (14 R384). -/
def execKeyImport (slot : BitVec 13) (s : State) : Answer := s.atUnits fun s => s.viaWindow aCphKcmd fun s => s.keyImport slot.toNat

/-- CLEAR: CPH_KCMD CLEAR of a slot (14 R384). -/
def execClearKey (slot : BitVec 13) (s : State) : Answer := s.atUnits fun s => s.viaWindow aCphKcmd fun s => s.keyClear slot.toNat

/-- KEY_QUERY: CPH_KCMD QUERY of a slot (14 R384). -/
def execKeyQuery (slot : BitVec 13) (s : State) : Answer := s.atUnits fun s => s.viaWindow aCphKcmd fun s => s.keyQuery slot.toNat

/-- CPH_KRANGE_WRITE: CPH_KRANGE of partition p + 1 (14 R380). -/
def execCphKrangeWrite (p : Fin 32) (v : Word) (s : State) : Answer := s.wrReg1 (aCphKrange (p.val + 1)) v

/-- RNG_DATA_READ: A read of RNG_DATA (14 R407). -/
def execRngDataRead (s : State) : Answer := s.atUnits fun s => s.busRead aRngData

/-- RETEST: RNG_CTL.RETEST (14 R408). -/
def execRetest (s : State) : Answer := s.wrReg1 (aRngCtl) 1

/-- RNG_HEALTH_FAIL: A health test of the source fails (14 R408). -/
def execRngHealthFail (cause : Fin 4) (s : State) : Answer := s.atUnits fun s => s.rngUpset cause.val

end Sys2Proof.Machine
end

