-- ==== Sys2Proof/Machine/ExecFloat.lean ====
section
/-! DEFINITION. Meanings of commands. Floating-point instructions (03 R90 to R97). -/

namespace Sys2Proof.Machine
open Sys2Proof

/-- FADD: `fadd` of binary64 (d) or binary32 (R93). -/
def execFadd (at_ : Issue) (d : Bool) (fd fa fb : Reg) (s : State) : Answer := State.done (s.stage at_ (effFadd d fd fa fb))

/-- FSUB: `fsub` of binary64 (d) or binary32 (R93). -/
def execFsub (at_ : Issue) (d : Bool) (fd fa fb : Reg) (s : State) : Answer := State.done (s.stage at_ (effFsub d fd fa fb))

/-- FMUL: `fmul` of binary64 (d) or binary32 (R93). -/
def execFmul (at_ : Issue) (d : Bool) (fd fa fb : Reg) (s : State) : Answer := State.done (s.stage at_ (effFmul d fd fa fb))

/-- FDIV: `fdiv` of binary64 (d) or binary32 (R93). -/
def execFdiv (at_ : Issue) (d : Bool) (fd fa fb : Reg) (s : State) : Answer := State.done (s.stage at_ (effFdiv d fd fa fb))

/-- FSQRT: `fsqrt` (R93). -/
def execFsqrt (at_ : Issue) (d : Bool) (fd fa : Reg) (s : State) : Answer := State.done (s.stage at_ (effFsqrt d fd fa))

/-- FMIN: `fmin` of binary64 (d) or binary32 (R93). -/
def execFmin (at_ : Issue) (d : Bool) (fd fa fb : Reg) (s : State) : Answer := State.done (s.stage at_ (effFmin d fd fa fb))

/-- FMAX: `fmax` of binary64 (d) or binary32 (R93). -/
def execFmax (at_ : Issue) (d : Bool) (fd fa fb : Reg) (s : State) : Answer := State.done (s.stage at_ (effFmax d fd fa fb))

/-- FCMP_EQ: `fcmp.eq` (R93). -/
def execFcmpEq (at_ : Issue) (d : Bool) (rd fa fb : Reg) (s : State) : Answer := State.done (s.stage at_ (effFcmpEq d rd fa fb))

/-- FCMP_LT: `fcmp.lt` (R93). -/
def execFcmpLt (at_ : Issue) (d : Bool) (rd fa fb : Reg) (s : State) : Answer := State.done (s.stage at_ (effFcmpLt d rd fa fb))

/-- FCMP_LE: `fcmp.le` (R93). -/
def execFcmpLe (at_ : Issue) (d : Bool) (rd fa fb : Reg) (s : State) : Answer := State.done (s.stage at_ (effFcmpLe d rd fa fb))

/-- FCLASS: `fclass` (R93). -/
def execFclass (at_ : Issue) (d : Bool) (rd fa : Reg) (s : State) : Answer := State.done (s.stage at_ (effFclass d rd fa))

/-- FCVT_L: `fcvt.l` (R94). -/
def execFcvtL (at_ : Issue) (d : Bool) (rd fa : Reg) (s : State) : Answer := State.done (s.stage at_ (effFcvtL d rd fa))

/-- FCVT_LU: `fcvt.lu` (R94). -/
def execFcvtLu (at_ : Issue) (d : Bool) (rd fa : Reg) (s : State) : Answer := State.done (s.stage at_ (effFcvtLu d rd fa))

/-- FCVT_FL: `fcvt.fl` (R93). -/
def execFcvtFl (at_ : Issue) (d : Bool) (fd ra : Reg) (s : State) : Answer := State.done (s.stage at_ (effFcvtFl d fd ra))

/-- FCVT_FLU: `fcvt.flu` (R93). -/
def execFcvtFlu (at_ : Issue) (d : Bool) (fd ra : Reg) (s : State) : Answer := State.done (s.stage at_ (effFcvtFlu d fd ra))

/-- FCVT_P: `fcvt.p` (R93). -/
def execFcvtP (at_ : Issue) (d : Bool) (fd fa : Reg) (s : State) : Answer := State.done (s.stage at_ (effFcvtP d fd fa))

/-- FMV_GF: `fmv.gf` (R93). -/
def execFmvGf (at_ : Issue) (d : Bool) (fd ra : Reg) (s : State) : Answer := State.done (s.stage at_ (effFmvGf d fd ra))

/-- FMV_FG: `fmv.fg` (R93). -/
def execFmvFg (at_ : Issue) (d : Bool) (rd fa : Reg) (s : State) : Answer := State.done (s.stage at_ (effFmvFg d rd fa))

/-- FMA: `fma` (R93). -/
def execFma (at_ : Issue) (d : Bool) (fd fa fb fc : BitVec 5) (s : State) : Answer := State.done (s.stage at_ (effFma d fd fa fb fc))

/-- FMS: `fms` (R93). -/
def execFms (at_ : Issue) (d : Bool) (fd fa fb fc : BitVec 5) (s : State) : Answer := State.done (s.stage at_ (effFms d fd fa fb fc))

/-- FNMA: `fnma` (R93). -/
def execFnma (at_ : Issue) (d : Bool) (fd fa fb fc : BitVec 5) (s : State) : Answer := State.done (s.stage at_ (effFnma d fd fa fb fc))

/-- FNMS: `fnms` (R93). -/
def execFnms (at_ : Issue) (d : Bool) (fd fa fb fc : BitVec 5) (s : State) : Answer := State.done (s.stage at_ (effFnms d fd fa fb fc))

end Sys2Proof.Machine
end

