-- ==== Sys2Proof/Machine/ExecFrac.lean ====
section
/-! DEFINITION. Meanings of commands. Fraction and accumulator instructions (03 R81 to R89). -/

namespace Sys2Proof.Machine
open Sys2Proof

/-- MAC_Q15: `mac.q15 acc, ra, rb` (R83). -/
def execMacQ15 (at_ : Issue) (acc ra rb : Reg) (s : State) : Answer := State.done (s.stage at_ (effMacQ15 acc ra rb))

/-- MAC_Q31: `mac.q31 acc, ra, rb` (R83). -/
def execMacQ31 (at_ : Issue) (acc ra rb : Reg) (s : State) : Answer := State.done (s.stage at_ (effMacQ31 acc ra rb))

/-- MAC_Q63: `mac.q63 acc, ra, rb` (R83). -/
def execMacQ63 (at_ : Issue) (acc ra rb : Reg) (s : State) : Answer := State.done (s.stage at_ (effMacQ63 acc ra rb))

/-- MSU_Q15: `msu.q15 acc, ra, rb` (R83). -/
def execMsuQ15 (at_ : Issue) (acc ra rb : Reg) (s : State) : Answer := State.done (s.stage at_ (effMsuQ15 acc ra rb))

/-- MSU_Q31: `msu.q31 acc, ra, rb` (R83). -/
def execMsuQ31 (at_ : Issue) (acc ra rb : Reg) (s : State) : Answer := State.done (s.stage at_ (effMsuQ31 acc ra rb))

/-- MSU_Q63: `msu.q63 acc, ra, rb` (R83). -/
def execMsuQ63 (at_ : Issue) (acc ra rb : Reg) (s : State) : Answer := State.done (s.stage at_ (effMsuQ63 acc ra rb))

/-- ACC_CLR: `acc.clr acc` (R85). -/
def execAccClr (at_ : Issue) (acc : Reg) (s : State) : Answer := State.done (s.stage at_ (effAccClr acc))

/-- ACC_ADD: `acc.add acc, ra, rb` (R84). -/
def execAccAdd (at_ : Issue) (acc ra rb : Reg) (s : State) : Answer := State.done (s.stage at_ (effAccAdd acc ra rb))

/-- EXT_Q15: `ext.q15 rd, acc` (R87). -/
def execExtQ15 (at_ : Issue) (rd acc : Reg) (s : State) : Answer := State.done (s.stage at_ (effExtQ15 rd acc))

/-- EXT_Q31: `ext.q31 rd, acc` (R87). -/
def execExtQ31 (at_ : Issue) (rd acc : Reg) (s : State) : Answer := State.done (s.stage at_ (effExtQ31 rd acc))

/-- EXT_Q63: `ext.q63 rd, acc` (R87). -/
def execExtQ63 (at_ : Issue) (rd acc : Reg) (s : State) : Answer := State.done (s.stage at_ (effExtQ63 rd acc))

/-- ACC_RDL: `acc.rdl rd, acc` (R85). -/
def execAccRdl (at_ : Issue) (rd acc : Reg) (s : State) : Answer := State.done (s.stage at_ (effAccRdL rd acc))

/-- ACC_RDM: `acc.rdm rd, acc` (R85). -/
def execAccRdm (at_ : Issue) (rd acc : Reg) (s : State) : Answer := State.done (s.stage at_ (effAccRdM rd acc))

/-- ACC_RDH: `acc.rdh rd, acc` (R85). -/
def execAccRdh (at_ : Issue) (rd acc : Reg) (s : State) : Answer := State.done (s.stage at_ (effAccRdH rd acc))

/-- ACC_WRL: `acc.wrl acc, ra` (R85). -/
def execAccWrl (at_ : Issue) (acc ra : Reg) (s : State) : Answer := State.done (s.stage at_ (effAccWrL acc ra))

/-- ACC_WRM: `acc.wrm acc, ra` (R85). -/
def execAccWrm (at_ : Issue) (acc ra : Reg) (s : State) : Answer := State.done (s.stage at_ (effAccWrM acc ra))

/-- ACC_WRH: `acc.wrh acc, ra` (R85). -/
def execAccWrh (at_ : Issue) (acc ra : Reg) (s : State) : Answer := State.done (s.stage at_ (effAccWrH acc ra))

end Sys2Proof.Machine
end

