-- ==== Sys2Proof/Machine/ExecInt.lean ====
section
/-! DEFINITION. Meanings of commands. Integer instructions (02 R45, 03). -/

namespace Sys2Proof.Machine
open Sys2Proof

/-- ADD: `add rd, ra, rb` (R76). -/
def execAdd (at_ : Issue) (rd ra rb : Reg) (s : State) : Answer := State.done (s.stage at_ (effAdd rd ra rb))

/-- SUB: `sub rd, ra, rb` (R76). -/
def execSub (at_ : Issue) (rd ra rb : Reg) (s : State) : Answer := State.done (s.stage at_ (effSub rd ra rb))

/-- AND: `and rd, ra, rb` (R59). -/
def execAnd (at_ : Issue) (rd ra rb : Reg) (s : State) : Answer := State.done (s.stage at_ (effAnd rd ra rb))

/-- OR: `or rd, ra, rb` (R59). -/
def execOr (at_ : Issue) (rd ra rb : Reg) (s : State) : Answer := State.done (s.stage at_ (effOr rd ra rb))

/-- XOR: `xor rd, ra, rb` (R59). -/
def execXor (at_ : Issue) (rd ra rb : Reg) (s : State) : Answer := State.done (s.stage at_ (effXor rd ra rb))

/-- ANDN: `andn rd, ra, rb` (R76). -/
def execAndn (at_ : Issue) (rd ra rb : Reg) (s : State) : Answer := State.done (s.stage at_ (effAndn rd ra rb))

/-- SLL: `sll rd, ra, rb` (R76). -/
def execSll (at_ : Issue) (rd ra rb : Reg) (s : State) : Answer := State.done (s.stage at_ (effSll rd ra rb))

/-- SRL: `srl rd, ra, rb` (R76). -/
def execSrl (at_ : Issue) (rd ra rb : Reg) (s : State) : Answer := State.done (s.stage at_ (effSrl rd ra rb))

/-- SRA: `sra rd, ra, rb` (R76). -/
def execSra (at_ : Issue) (rd ra rb : Reg) (s : State) : Answer := State.done (s.stage at_ (effSra rd ra rb))

/-- ROL: `rol rd, ra, rb` (R76). -/
def execRol (at_ : Issue) (rd ra rb : Reg) (s : State) : Answer := State.done (s.stage at_ (effRol rd ra rb))

/-- SLT: `slt rd, ra, rb` (R76). -/
def execSlt (at_ : Issue) (rd ra rb : Reg) (s : State) : Answer := State.done (s.stage at_ (effSlt rd ra rb))

/-- SLTU: `sltu rd, ra, rb` (R76). -/
def execSltu (at_ : Issue) (rd ra rb : Reg) (s : State) : Answer := State.done (s.stage at_ (effSltu rd ra rb))

/-- MIN: `min rd, ra, rb` (R76). -/
def execMin (at_ : Issue) (rd ra rb : Reg) (s : State) : Answer := State.done (s.stage at_ (effMin rd ra rb))

/-- MAX: `max rd, ra, rb` (R76). -/
def execMax (at_ : Issue) (rd ra rb : Reg) (s : State) : Answer := State.done (s.stage at_ (effMax rd ra rb))

/-- MINU: `minu rd, ra, rb` (R76). -/
def execMinu (at_ : Issue) (rd ra rb : Reg) (s : State) : Answer := State.done (s.stage at_ (effMinu rd ra rb))

/-- MAXU: `maxu rd, ra, rb` (R76). -/
def execMaxu (at_ : Issue) (rd ra rb : Reg) (s : State) : Answer := State.done (s.stage at_ (effMaxu rd ra rb))

/-- CMOV_Z: `cmov.z rd, ra, rb` (R103). -/
def execCmovZ (at_ : Issue) (rd ra rb : Reg) (s : State) : Answer := State.done (s.stage at_ (effCmovZ rd ra rb))

/-- CMOV_NZ: `cmov.nz rd, ra, rb` (R103). -/
def execCmovNz (at_ : Issue) (rd ra rb : Reg) (s : State) : Answer := State.done (s.stage at_ (effCmovNz rd ra rb))

/-- SEL_Z: `sel.z rd, ra, rb` (R103). -/
def execSelZ (at_ : Issue) (rd ra rb : Reg) (s : State) : Answer := State.done (s.stage at_ (effSelZ rd ra rb))

/-- SEL_NZ: `sel.nz rd, ra, rb` (R103). -/
def execSelNz (at_ : Issue) (rd ra rb : Reg) (s : State) : Answer := State.done (s.stage at_ (effSelNz rd ra rb))

/-- MUL: `mul rd, ra, rb` (R76). -/
def execMul (at_ : Issue) (rd ra rb : Reg) (s : State) : Answer := State.done (s.stage at_ (effMul rd ra rb))

/-- MULH: `mulh rd, ra, rb` (R76). -/
def execMulh (at_ : Issue) (rd ra rb : Reg) (s : State) : Answer := State.done (s.stage at_ (effMulh rd ra rb))

/-- MULHU: `mulhu rd, ra, rb` (R76). -/
def execMulhu (at_ : Issue) (rd ra rb : Reg) (s : State) : Answer := State.done (s.stage at_ (effMulhu rd ra rb))

/-- DIV: `div rd, ra, rb` (R77). -/
def execDiv (at_ : Issue) (rd ra rb : Reg) (s : State) : Answer := State.done (s.stage at_ (effDiv rd ra rb))

/-- DIVU: `divu rd, ra, rb` (R77). -/
def execDivu (at_ : Issue) (rd ra rb : Reg) (s : State) : Answer := State.done (s.stage at_ (effDivu rd ra rb))

/-- REM: `rem rd, ra, rb` (R77). -/
def execRem (at_ : Issue) (rd ra rb : Reg) (s : State) : Answer := State.done (s.stage at_ (effRem rd ra rb))

/-- REMU: `remu rd, ra, rb` (R77). -/
def execRemu (at_ : Issue) (rd ra rb : Reg) (s : State) : Answer := State.done (s.stage at_ (effRemu rd ra rb))

/-- ADDI: `addi rd, ra, imm` (R56). -/
def execAddi (at_ : Issue) (rd ra : Reg) (imm : BitVec 14) (s : State) : Answer := State.done (s.stage at_ (effAddi rd ra imm))

/-- ANDI: `andi rd, ra, imm` (R56). -/
def execAndi (at_ : Issue) (rd ra : Reg) (imm : BitVec 14) (s : State) : Answer := State.done (s.stage at_ (effAndi rd ra imm))

/-- ORI: `ori rd, ra, imm` (R56). -/
def execOri (at_ : Issue) (rd ra : Reg) (imm : BitVec 14) (s : State) : Answer := State.done (s.stage at_ (effOri rd ra imm))

/-- XORI: `xori rd, ra, imm` (R56). -/
def execXori (at_ : Issue) (rd ra : Reg) (imm : BitVec 14) (s : State) : Answer := State.done (s.stage at_ (effXori rd ra imm))

/-- SLTI: `slti rd, ra, imm` (R56). -/
def execSlti (at_ : Issue) (rd ra : Reg) (imm : BitVec 14) (s : State) : Answer := State.done (s.stage at_ (effSlti rd ra imm))

/-- SH_I: `sh.i rd, ra, imm` (R57). -/
def execShI (at_ : Issue) (rd ra : Reg) (imm : BitVec 14) (s : State) : Answer := State.done (s.stage at_ (effShI rd ra imm))

/-- LDI: `ldi rd, imm` (R57). -/
def execLdi (at_ : Issue) (rd : Reg) (imm : BitVec 20) (s : State) : Answer := State.done (s.stage at_ (effLdi rd imm))

/-- LDI_SH: `ldi.sh rd, imm` (R57). -/
def execLdiSh (at_ : Issue) (rd : Reg) (imm : BitVec 20) (s : State) : Answer := State.done (s.stage at_ (effLdiSh rd imm))

/-- BF_EXT: `bf.ext rd, ra, pos, len` (R60). -/
def execBfExt (at_ : Issue) (rd ra : Reg) (pos len1 : BitVec 6) (s : State) : Answer := State.done (s.stage at_ (effBfExt rd ra pos len1))

/-- BF_EXTS: `bf.exts rd, ra, pos, len` (R60). -/
def execBfExts (at_ : Issue) (rd ra : Reg) (pos len1 : BitVec 6) (s : State) : Answer := State.done (s.stage at_ (effBfExts rd ra pos len1))

/-- BF_INS: `bf.ins rd, ra, pos, len` (R60). -/
def execBfIns (at_ : Issue) (rd ra : Reg) (pos len1 : BitVec 6) (s : State) : Answer := State.done (s.stage at_ (effBfIns rd ra pos len1))

/-- CLZ: `clz rd, ra` (R61). -/
def execClz (at_ : Issue) (rd ra : Reg) (s : State) : Answer := State.done (s.stage at_ (effClz rd ra))

/-- CTZ: `ctz rd, ra` (R61). -/
def execCtz (at_ : Issue) (rd ra : Reg) (s : State) : Answer := State.done (s.stage at_ (effCtz rd ra))

/-- POPC: `popc rd, ra` (R61). -/
def execPopc (at_ : Issue) (rd ra : Reg) (s : State) : Answer := State.done (s.stage at_ (effPopc rd ra))

/-- PERM_B: `perm.b rd, ra, rb` (R61). -/
def execPermB (at_ : Issue) (rd ra rb : Reg) (s : State) : Answer := State.done (s.stage at_ (effPermB rd ra rb))

/-- CRC_STEP_32: `crc.step.32 rd, ra, rb` (R62). -/
def execCrcStep32 (at_ : Issue) (rd ra rb : Reg) (s : State) : Answer := State.done (s.stage at_ (effCrcStep32 rd ra rb))

/-- CRC_STEP_32C: `crc.step.32c rd, ra, rb` (R62). -/
def execCrcStep32c (at_ : Issue) (rd ra rb : Reg) (s : State) : Answer := State.done (s.stage at_ (effCrcStep32c rd ra rb))

/-- CRC_STEP_64: `crc.step.64 rd, ra, rb` (R62). -/
def execCrcStep64 (at_ : Issue) (rd ra rb : Reg) (s : State) : Answer := State.done (s.stage at_ (effCrcStep64 rd ra rb))

/-- PAR_D: `par.d rd, ra` (R63). -/
def execParD (at_ : Issue) (rd ra : Reg) (s : State) : Answer := State.done (s.stage at_ (effParD rd ra))

/-- PAR_B: `par.b rd, ra` (R63). -/
def execParB (at_ : Issue) (rd ra : Reg) (s : State) : Answer := State.done (s.stage at_ (effParB rd ra))

/-- BREV_D: `brev.d rd, ra` (R63). -/
def execBrevD (at_ : Issue) (rd ra : Reg) (s : State) : Answer := State.done (s.stage at_ (effBrevD rd ra))

/-- BREV_B: `brev.b rd, ra` (R63). -/
def execBrevB (at_ : Issue) (rd ra : Reg) (s : State) : Answer := State.done (s.stage at_ (effBrevB rd ra))

end Sys2Proof.Machine
end

