-- ==== Sys2Proof/Machine/ExecLong.lean ====
section
/-! DEFINITION. Meanings of commands. Long instructions (02 R64 to R71). -/

namespace Sys2Proof.Machine
open Sys2Proof

/-- BLK_MV: `blk.mv rd, ra, rb`, run for at most `budget` units before the next event is looked for (R67). -/
def execBlkMv (at_ : Issue) (rd ra rb : Reg) (budget : Nat) (s : State) : Answer := State.done (s.stage at_ (effBlkMv rd ra rb budget))

/-- BLK_CMP: `blk.cmp rd, ra, rb`, run for at most `budget` units before the next event is looked for (R66). -/
def execBlkCmp (at_ : Issue) (rd ra rb : Reg) (budget : Nat) (s : State) : Answer := State.done (s.stage at_ (effBlkCmp rd ra rb budget))

/-- BLK_CRC_32: `blk.crc.32 rd, ra, rb`, run for at most `budget` units before the next event is looked for (R66). -/
def execBlkCrc32 (at_ : Issue) (rd ra rb : Reg) (budget : Nat) (s : State) : Answer :=
  State.done (s.stage at_ (effBlkCrc32 rd ra rb budget))

/-- BLK_CRC_32C: `blk.crc.32c rd, ra, rb`, run for at most `budget` units before the next event is looked for (R66). -/
def execBlkCrc32c (at_ : Issue) (rd ra rb : Reg) (budget : Nat) (s : State) : Answer :=
  State.done (s.stage at_ (effBlkCrc32c rd ra rb budget))

/-- BLK_CRC_64: `blk.crc.64 rd, ra, rb`, run for at most `budget` units before the next event is looked for (R66). -/
def execBlkCrc64 (at_ : Issue) (rd ra rb : Reg) (budget : Nat) (s : State) : Answer :=
  State.done (s.stage at_ (effBlkCrc64 rd ra rb budget))

/-- CMPX: `cmpx rd, ra, rb`, run for at most `budget` units before the next event is looked for (R373). -/
def execCmpx (at_ : Issue) (rd ra rb : Reg) (budget : Nat) (s : State) : Answer := State.done (s.stage at_ (effCmpx rd ra rb budget))

/-- CPHX: `cphx rd, ra, rb`, run for at most `budget` units before the next event is looked for (R402). -/
def execCphx (at_ : Issue) (rd ra rb : Reg) (budget : Nat) (s : State) : Answer := State.done (s.stage at_ (effCphx rd ra rb budget))

end Sys2Proof.Machine
end

