-- ==== Sys2Proof/Machine/ExecMem.lean ====
section
/-! DEFINITION. Meanings of commands. Loads, stores, atomics and barriers (09 R240 to R248). -/

namespace Sys2Proof.Machine
open Sys2Proof

/-- LD_B: `ld.b rt, disp(base)` (R51). -/
def execLdB (at_ : Issue) (rt base : Reg) (disp : BitVec 14) (s : State) : Answer := State.done (s.stage at_ (effLdB rt base disp))

/-- LD_BS: `ld.bs rt, disp(base)` (R51). -/
def execLdBs (at_ : Issue) (rt base : Reg) (disp : BitVec 14) (s : State) : Answer := State.done (s.stage at_ (effLdBs rt base disp))

/-- LD_H: `ld.h rt, disp(base)` (R51). -/
def execLdH (at_ : Issue) (rt base : Reg) (disp : BitVec 14) (s : State) : Answer := State.done (s.stage at_ (effLdH rt base disp))

/-- LD_HS: `ld.hs rt, disp(base)` (R51). -/
def execLdHs (at_ : Issue) (rt base : Reg) (disp : BitVec 14) (s : State) : Answer := State.done (s.stage at_ (effLdHs rt base disp))

/-- LD_W: `ld.w rt, disp(base)` (R51). -/
def execLdW (at_ : Issue) (rt base : Reg) (disp : BitVec 14) (s : State) : Answer := State.done (s.stage at_ (effLdW rt base disp))

/-- LD_WS: `ld.ws rt, disp(base)` (R51). -/
def execLdWs (at_ : Issue) (rt base : Reg) (disp : BitVec 14) (s : State) : Answer := State.done (s.stage at_ (effLdWs rt base disp))

/-- LD_D: `ld.d rt, disp(base)` (R51). -/
def execLdD (at_ : Issue) (rt base : Reg) (disp : BitVec 14) (s : State) : Answer := State.done (s.stage at_ (effLdD rt base disp))

/-- LD_FD: `ld.fd rt, disp(base)` (R57). -/
def execLdFd (at_ : Issue) (rt base : Reg) (disp : BitVec 14) (s : State) : Answer := State.done (s.stage at_ (effLdFd rt base disp))

/-- LD_FS: `ld.fs rt, disp(base)` (R57). -/
def execLdFs (at_ : Issue) (rt base : Reg) (disp : BitVec 14) (s : State) : Answer := State.done (s.stage at_ (effLdFs rt base disp))

/-- LDX_B: `ldx.b rd, ra, rb` (R59). -/
def execLdxB (at_ : Issue) (rd ra rb : Reg) (s : State) : Answer := State.done (s.stage at_ (effLdxB rd ra rb))

/-- LDX_BS: `ldx.bs rd, ra, rb` (R59). -/
def execLdxBs (at_ : Issue) (rd ra rb : Reg) (s : State) : Answer := State.done (s.stage at_ (effLdxBs rd ra rb))

/-- LDX_H: `ldx.h rd, ra, rb` (R59). -/
def execLdxH (at_ : Issue) (rd ra rb : Reg) (s : State) : Answer := State.done (s.stage at_ (effLdxH rd ra rb))

/-- LDX_HS: `ldx.hs rd, ra, rb` (R59). -/
def execLdxHs (at_ : Issue) (rd ra rb : Reg) (s : State) : Answer := State.done (s.stage at_ (effLdxHs rd ra rb))

/-- LDX_W: `ldx.w rd, ra, rb` (R59). -/
def execLdxW (at_ : Issue) (rd ra rb : Reg) (s : State) : Answer := State.done (s.stage at_ (effLdxW rd ra rb))

/-- LDX_WS: `ldx.ws rd, ra, rb` (R59). -/
def execLdxWs (at_ : Issue) (rd ra rb : Reg) (s : State) : Answer := State.done (s.stage at_ (effLdxWs rd ra rb))

/-- LDX_D: `ldx.d rd, ra, rb` (R59). -/
def execLdxD (at_ : Issue) (rd ra rb : Reg) (s : State) : Answer := State.done (s.stage at_ (effLdxD rd ra rb))

/-- ST_B: `st.b rt, disp(base)` (R233). -/
def execStB (at_ : Issue) (rt base : Reg) (disp : BitVec 14) (s : State) : Answer := State.done (s.stage at_ (effStB rt base disp))

/-- ST_H: `st.h rt, disp(base)` (R233). -/
def execStH (at_ : Issue) (rt base : Reg) (disp : BitVec 14) (s : State) : Answer := State.done (s.stage at_ (effStH rt base disp))

/-- ST_W: `st.w rt, disp(base)` (R233). -/
def execStW (at_ : Issue) (rt base : Reg) (disp : BitVec 14) (s : State) : Answer := State.done (s.stage at_ (effStW rt base disp))

/-- ST_D: `st.d rt, disp(base)` (R233). -/
def execStD (at_ : Issue) (rt base : Reg) (disp : BitVec 14) (s : State) : Answer := State.done (s.stage at_ (effStD rt base disp))

/-- ST_FS: `st.fs rt, disp(base)` (R57). -/
def execStFs (at_ : Issue) (rt base : Reg) (disp : BitVec 14) (s : State) : Answer := State.done (s.stage at_ (effStFs rt base disp))

/-- ST_FD: `st.fd rt, disp(base)` (R57). -/
def execStFd (at_ : Issue) (rt base : Reg) (disp : BitVec 14) (s : State) : Answer := State.done (s.stage at_ (effStFd rt base disp))

/-- STX_B: `stx.b rd, ra, rb` (R59). -/
def execStxB (at_ : Issue) (rd ra rb : Reg) (s : State) : Answer := State.done (s.stage at_ (effStxB rd ra rb))

/-- STX_H: `stx.h rd, ra, rb` (R59). -/
def execStxH (at_ : Issue) (rd ra rb : Reg) (s : State) : Answer := State.done (s.stage at_ (effStxH rd ra rb))

/-- STX_W: `stx.w rd, ra, rb` (R59). -/
def execStxW (at_ : Issue) (rd ra rb : Reg) (s : State) : Answer := State.done (s.stage at_ (effStxW rd ra rb))

/-- STX_D: `stx.d rd, ra, rb` (R59). -/
def execStxD (at_ : Issue) (rd ra rb : Reg) (s : State) : Answer := State.done (s.stage at_ (effStxD rd ra rb))

/-- LD_NT_D: `ld.nt.d rd, ra, rb` (R184). -/
def execLdNtD (at_ : Issue) (rd ra rb : Reg) (s : State) : Answer := State.done (s.stage at_ (effLdNtD rd ra rb))

/-- ST_NT_D: `st.nt.d rd, ra, rb` (R245). -/
def execStNtD (at_ : Issue) (rd ra rb : Reg) (s : State) : Answer := State.done (s.stage at_ (effStNtD rd ra rb))

/-- CAS_D: `cas.d rd, ra, rb` (R243). -/
def execCasD (at_ : Issue) (rd ra rb : Reg) (s : State) : Answer := State.done (s.stage at_ (effCasD rd ra rb))

/-- CAS_Q: `cas.q rd, ra, rb` (R243). -/
def execCasQ (at_ : Issue) (rd ra rb : Reg) (s : State) : Answer := State.done (s.stage at_ (effCasQ rd ra rb))

/-- AMO_SWAP_D: `amo.swap.d rd, ra, rb` (R243). -/
def execAmoSwapD (at_ : Issue) (rd ra rb : Reg) (s : State) : Answer := State.done (s.stage at_ (effAmoSwapD rd ra rb))

/-- AMO_ADD_D: `amo.add.d rd, ra, rb` (R243). -/
def execAmoAddD (at_ : Issue) (rd ra rb : Reg) (s : State) : Answer := State.done (s.stage at_ (effAmoAddD rd ra rb))

/-- AMO_AND_D: `amo.and.d rd, ra, rb` (R243). -/
def execAmoAndD (at_ : Issue) (rd ra rb : Reg) (s : State) : Answer := State.done (s.stage at_ (effAmoAndD rd ra rb))

/-- AMO_OR_D: `amo.or.d rd, ra, rb` (R243). -/
def execAmoOrD (at_ : Issue) (rd ra rb : Reg) (s : State) : Answer := State.done (s.stage at_ (effAmoOrD rd ra rb))

/-- BAR_FULL: `bar.full rd, ra, rb` (R247). -/
def execBarFull (at_ : Issue) (rd ra rb : Reg) (s : State) : Answer := State.done (s.stage at_ (effBarFull rd ra rb))

/-- BAR_ST: `bar.st rd, ra, rb` (R247). -/
def execBarSt (at_ : Issue) (rd ra rb : Reg) (s : State) : Answer := State.done (s.stage at_ (effBarSt rd ra rb))

end Sys2Proof.Machine
end

