-- ==== Sys2Proof/Machine/ExecMemory.lean ====
section
/-! DEFINITION. Meanings of commands. Stores, device accesses, caches, and register writes (01, 07, 09). -/

namespace Sys2Proof.Machine
open Sys2Proof

/-- STORE_PERFORMED: The store buffer performs its oldest entry (09 R233 to R235, R250). -/
def execStorePerformed (n : Tri) (s : State) : Answer := s.atAlive fun s => (s.performStore n).goOn

/-- COMBINING_BUFFER_DRAIN: A combining line drains (09 R246). -/
def execCombiningBufferDrain (n : Tri) (line : Nat) (s : State) : Answer := s.atAlive fun s => (s.drainComb n line).goOn

/-- DEVICE_ACCESS_ANSWER: A device answers an access (09 R250 to R252). -/
def execDeviceAccessAnswer (n : Tri) (acc : DevAccess) (ok : Bool) (data : Word) (s : State) : Answer :=
  s.atAlive fun s => (s.devAnswer n acc ok data).goOn

/-- DEVICE_TIMEOUT: The interval of a device access ends (09 R251, R252). -/
def execDeviceTimeout (n : Tri) (acc : DevAccess) (s : State) : Answer := s.atAlive fun s => s.expireAt (.device n acc)

/-- CACHE_FILL: The reply to an L2 miss (07 R191 to R195). -/
def execCacheFill (n : Tri) (line : Nat) (s : State) : Answer := s.atAlive fun s => s.cacheFill n line

/-- DIRECTORY_REQUEST: A miss leaves the L2, and the directory serves it (07 R186). -/
def execDirectoryRequest (n : Tri) (line : Nat) (s : State) : Answer := s.atAlive fun s => s.dirRequest n line

/-- VICTIM_BUFFER_ACK: A victim-buffer write is acknowledged (07 R197). -/
def execVictimBufferAck (n : Tri) (entry : Nat) (s : State) : Answer := s.atAlive fun s => s.vbAck n entry

/-- D2D_FLIT_FAIL: A die-to-die flit fails after four replays (01 R15). -/
def execD2dFlitFail (die : Fin 4) (dir : Bool) (s : State) : Answer :=
  s.atClocks fun s => s.raise { src := 0x4C2, idA := b2n dir, unit := die.val }

/-- HUB_ORDER_MODE_WRITE: HUB_ORDER_MODE (09 R238). -/
def execHubOrderModeWrite (v : Word) (s : State) : Answer := s.wrReg1 (aHubOrderMode) v

/-- REGISTER_WRITE: A write of any control-space register by a requester of a partition (01 R18). -/
def execRegisterWrite (part : BitVec 6) (addr : Word) (size : Nat) (v : Word) (s : State) : Answer :=
  State.done (if s.writable addr.toNat then s.regWrite part.toNat addr.toNat size v else s)

end Sys2Proof.Machine
end

