-- ==== Sys2Proof/Machine/ExecPart.lean ====
section
/-! DEFINITION. Meanings of commands. Partitions and fault collection (15, 17). -/

namespace Sys2Proof.Machine
open Sys2Proof

/-- HUB_PART_CFG_WRITE: HUB_PART_CFG of partition p + 1 (15 R415 to R417). -/
def execHubPartCfgWrite (p : Fin 32) (v : Word) (s : State) : Answer := s.wrReg1 (aHubPartCfg (p.val + 1)) v

/-- HUB_PART_L3Q_WRITE: HUB_PART_L3Q of partition p + 1 (15 R415 to R417). -/
def execHubPartL3qWrite (p : Fin 32) (v : Word) (s : State) : Answer := s.wrReg1 (aHubPartL3q (p.val + 1)) v

/-- HUB_PART_RES_WRITE: HUB_PART_RES of partition p + 1 (15 R415 to R417). -/
def execHubPartResWrite (p : Fin 32) (v : Word) (s : State) : Answer := s.wrReg1 (aHubPartRes (p.val + 1)) v

/-- FAULT_EVENT: A source raises an event (17 R441, R446, R452). -/
def execFaultEvent (src : BitVec 11) (info0 : Word) (idA idB : BitVec 16) (unit : BitVec 7) (part : BitVec 6) (s : State) : Answer :=
  State.done (s.faultEvent { src := src.toNat, info0 := info0.toNat, idA := idA.toNat, idB := idB.toNat, unit := unit.toNat, part := part.toNat })

/-- UNACK_WRITE: Software acknowledges a fault class (17 R447). -/
def execUnackWrite (k : Fin 16) (s : State) : Answer := s.wrReg1 (aFcuClassStat k.val) 1

/-- QUIET_INTERVAL_EXPIRY: The quiet interval of a class ends (17 R448). -/
def execQuietIntervalExpiry (k : Fin 16) (s : State) : Answer := s.atAlive fun s => s.expireAt (.quiet k)

end Sys2Proof.Machine
end

