-- ==== Sys2Proof/Machine/ExecPci.lean ====
section
/-! DEFINITION. Meanings of commands. PCIe (12 R336 to R342). -/

namespace Sys2Proof.Machine
open Sys2Proof

/-- INBOUND_REQUEST: An inbound request of a root port (12 R339). -/
def execInboundRequest (n r : Fin 4) (rid : BitVec 16) (addr : Word) (req : PciReq) (claim : Nat) (s : State) : Answer :=
  s.atUnits fun s => s.inbound n.val r.val rid.toNat addr.toNat req claim

/-- MESSAGE_INTERRUPT: A write to the message window (12 R340). -/
def execMessageInterrupt (n r : Fin 4) (rid : BitVec 16) (off : BitVec 20) (data : BitVec 32) (s : State) : Answer :=
  s.atUnits fun s => s.inbound n.val r.val rid.toNat (msgWindow + off.toNat) (.write (leBytes 4 data.toNat)) 0

/-- PCI_CFG_ADDR_WRITE: PCI_CFG_ADDR: a configuration read (12 R338). -/
def execPciCfgAddrWrite (v : Word) (s : State) : Answer := s.wrReg1 (aPciCfgAddr) v

/-- PCI_CFG_DATA_WRITE: PCI_CFG_DATA: a configuration write (12 R338). -/
def execPciCfgDataWrite (v : Word) (s : State) : Answer := s.wrReg1 (aPciCfgData) v

/-- CONFIG_COMPLETION: A configuration request ends or is retried (12 R338). -/
def execConfigCompletion (ans : CfgAnswer) (s : State) : Answer := s.atUnits fun s => s.cfgCompletion ans

/-- INV: PCI_RIDT.INV (12 R339). -/
def execInvRid (n : Fin 4) (s : State) : Answer := s.atUnits fun s => s.viaWindow (aPciRidt n.val) fun s => s.ridInv n.val

/-- PCI_LINK_DOWN: The link of a root port goes down (12 R341). -/
def execPciLinkDown (n r : Fin 4) (s : State) : Answer := s.atUnits fun s => if s.gateRuns (28 + n.val) then (s.linkDown n.val r.val).goOn else s

/-- AER_ERROR_REPORTED: An AER error (12 R337). -/
def execAerErrorReported (n r : Fin 4) (rid : BitVec 16) (uncorr fatal : Bool) (s : State) : Answer :=
  s.atUnits fun s => (s.aerError n.val r.val rid.toNat uncorr fatal).goOn

end Sys2Proof.Machine
end

