-- ==== Sys2Proof/Machine/ExecPower.lean ====
section
/-! DEFINITION. Meanings of commands. Clocks, power, temperatures (18, 21). -/

namespace Sys2Proof.Machine
open Sys2Proof

/-- REFCLK_MONITOR_TRIP: The REFCLK monitor trips (18 R460). -/
def execRefclkMonitorTrip (s : State) : Answer := State.done (if s.therm.stopped then s else s.refTrip)

/-- CRYSTAL_MONITOR_TRIP: The crystal monitor trips (18 R460). -/
def execCrystalMonitorTrip (s : State) : Answer := State.done (if s.therm.stopped then s else s.xtalTrip)

/-- CRYSTAL_START_COUNT: The crystal is stable (18 R456, R460, R463). -/
def execCrystalStartCount (s : State) : Answer := State.done (if s.therm.stopped then s else s.xtalStable)

/-- CLK_PLL_UNLOCK: A PLL stays in holdover (18 R461). -/
def execClkPllUnlock (pll : Fin 49) (s : State) : Answer := s.atClocks fun s => s.pllUnlock pll.val

/-- RETURN: CLK_REF_CTL.RETURN (18 R460). -/
def execReturnRef (s : State) : Answer := s.wrReg1 (aClkRefCtl) 1

/-- CLK_TRD_FREQ_WRITE: CLK_TRD_FREQ of triad n (18 R467). -/
def execClkTrdFreqWrite (n : Tri) (v : Word) (s : State) : Answer := s.wrReg1 (aClkTrdFreq n.val) v

/-- AVS_WRITE_TIMEOUT: An AVSBus write is not acknowledged (21 R514). -/
def execAvsWriteTimeout (die : Fin 4) (s : State) : Answer := s.atClocks fun s => s.avsTimeout die

/-- CLK_GATE_WRITE: CLK_GATE (18 R469). -/
def execClkGateWrite (v : Word) (s : State) : Answer := s.wrReg1 (aClkGate 0) v

/-- GATE_CLOSURE: A deferred closure ends, idle or forced with an access of a partition dropped (18 R470). -/
def execGateClosure (b : Fin 33) (forced : Option (BitVec 6)) (s : State) : Answer :=
  s.atClocks fun s => (s.gateClosure b.val (forced.map (·.toNat))).goOn

/-- CMD_OFF: PWR_DOM_d; `failed` are cores that do not pass their self-test on a return (18 R473). -/
def execCmdOff (d : Fin 64) (v : Word) (failed : List Nat) (s : State) : Answer :=
  s.atUnits fun s => s.viaWindow (aPwrDom d.val) fun s => s.domWrite d.val v failed

/-- PWR_DOMAIN_FAIL: A domain is not ON within 100 µs (18 R473). -/
def execPwrDomainFail (d : Fin 64) (s : State) : Answer := s.atUnits fun s => s.domFail d.val

/-- IDLE_ENTRY: An eligible domain enters an auto state (18 R474). -/
def execIdleEntry (d : Fin 64) (s : State) : Answer := s.atUnits fun s => s.idleEntry d.val

/-- IDLE_EXIT: A domain leaves its auto state (18 R475). -/
def execIdleExit (d : Fin 64) (s : State) : Answer := s.atAlive fun s => s.idleExit d.val

/-- TOD_COMPARATOR_FIRE: A comparator fires (18 R477). -/
def execTodComparatorFire (k : Fin 8) (s : State) : Answer := s.atTod fun s => s.cmpFire k.val

/-- SENSOR_READ: The sensors are read: 8 readings for each compute die, 4 for the hub (21 R522 to R526). -/
def execSensorRead (readings : List Byte) (s : State) : Answer := State.done (s.thermRead readings)

/-- I2C_READ: The I2C target returns a byte, left in `bus` (21 R523). -/
def execI2cRead (code : BitVec 8) (s : State) : Answer := State.done ({ s with bus := w64 (s.i2cByte code.toNat) })

/-- PWR_RAIL_UV: A rail is below its transient limit (21 R528). -/
def execPwrRailUv (rail voltage : BitVec 16) (s : State) : Answer := s.atClocks fun s => s.railUv rail.toNat voltage.toNat

/-- REFCLK_JUDGED_SOUND: REFCLK has been sound for 65,536 cycles (18 R459). -/
def execRefclkJudgedSound (s : State) : Answer := State.done (s.refSound)

/-- VOLTAGE_WRITE_ACKNOWLEDGE: The regulator acknowledges (21 R514). -/
def execVoltageWriteAcknowledge (die : Fin 4) (s : State) : Answer := s.atClocks fun s => s.avsAck die

end Sys2Proof.Machine
end

