-- ==== Sys2Proof/Machine/ExecSave.lean ====
section
/-! DEFINITION. Meanings of commands. Memory links and the Fumarole save (10). -/

namespace Sys2Proof.Machine
open Sys2Proof

/-- PF_WARN_N_ASSERT: PF_WARN_N (01 R33, 10 R263, R272, R278). -/
def execPfWarnNAssert (s : State) : Answer := State.done (s.pfAssert)

/-- QUIESCE_STORE_LIMIT: 50 µs after the power-fail boundary (10 R267). -/
def execQuiesceStoreLimit (s : State) : Answer := s.atAlive fun s => s.storeLimit

/-- QUIESCE_END: Quiesce ends; the contexts are written (10 R264, R269). -/
def execQuiesceEnd (s : State) : Answer := s.atAlive fun s => s.quiesceEnd

/-- CONTEXTS_WRITTEN: Phase 3 ends; persistent lines are written back (10 R270). -/
def execContextsWritten (s : State) : Answer := s.atAlive fun s => s.contextsEnd

/-- PERSISTENT_WRITEBACK_END: Phase 4 ends; the other lines are written back (10 R270). -/
def execPersistentWritebackEnd (s : State) : Answer := s.atAlive fun s => s.persistentEnd

/-- WRITEBACK_END: Phase 5 ends; self-refresh is commanded (10 R271). -/
def execWritebackEnd (s : State) : Answer := s.atAlive fun s => s.writebackEnd

/-- SELF_REFRESH_ACK: A buffer acknowledges self-refresh, or 20 µs have passed (10 R271). -/
def execSelfRefreshAck (m : Fin 16) (ok : Bool) (s : State) : Answer := s.atAlive fun s => s.refreshAck m.val ok

/-- PF_WARN_N_QUIET: PF_WARN_N has stayed deasserted for 1 ms (10 R272, 19 R499). -/
def execPfWarnNQuiet (s : State) : Answer := State.done (s.pfQuiet)

/-- MEM_LANE_DEGRADE: A memory link loses a lane (10 R259). -/
def execMemLaneDegrade (m : Fin 16) (s : State) : Answer := s.atClocks fun s => s.laneDegrade m.val

/-- MEM_LINK_FAIL: A memory link fails (10 R259). -/
def execMemLinkFail (m : Fin 16) (s : State) : Answer := s.atClocks fun s => s.linkFail m.val

/-- MEM_CE: A corrected DRAM error (10 R262). -/
def execMemCe (addr : Word) (s : State) : Answer := s.atClocks fun s => s.memCe addr.toNat

/-- MEM_UE: An uncorrectable DRAM error (10 R262). -/
def execMemUe (addr : Word) (s : State) : Answer := s.atClocks fun s => s.memUe addr.toNat

end Sys2Proof.Machine
end

