-- ==== Sys2Proof/Machine/ExecSpan.lean ====
section
/-! DEFINITION. Meanings of commands. Span ports and sessions (12 R320 to R335). -/

namespace Sys2Proof.Machine
open Sys2Proof

/-- SPN_LANE_DEGRADE: A Span port loses a lane (12 R320). -/
def execSpnLaneDegrade (port : Tri) (s : State) : Answer := s.atUnits fun s => s.portDegrade port.val

/-- SPN_PORT_FAIL: A Span port fails (12 R320). -/
def execSpnPortFail (port : Tri) (cause : BitVec 16) (s : State) : Answer := s.atUnits fun s => s.portFail port.val cause.toNat

/-- PORT_RETRAIN: A training of a Span port ends (12 R320). -/
def execPortRetrain (port : Tri) (ok : Bool) (s : State) : Answer := s.atUnits fun s => s.portTrained port.val ok

/-- REPLAY_REQ: A REPLAY_REQ is received (12 R322). -/
def execReplayReq (port : Tri) (lsn : BitVec 16) (s : State) : Answer :=
  s.atUnits fun s => if s.portOk port.val then s.portReplay port.val lsn.toNat else s

/-- ACK_TIMEOUT_REPLAY: No ACK_LSN progress for 10 µs (12 R322). -/
def execAckTimeoutReplay (port : Tri) (s : State) : Answer := s.atUnits fun s => s.ackTimeout port.val

/-- FRAME_RECEIVE: A frame arrives: good, with a CRC error, with an uncorrectable codeword, or IDLE (12 R320 to R322). -/
def execFrameReceive (port : Tri) (kind : FrameHead) (lsn ack cr0 cr1 : BitVec 16) (s : State) : Answer :=
  s.atUnits fun s => s.frameIn port.val kind.kind.val kind.vc1 lsn.toNat ack.toNat cr0.toNat cr1.toNat

/-- FABRIC_LOGIN: The answer to a port's FABRIC login (12 R323). -/
def execFabricLogin (port : Tri) (peer : Bool) (v : Word) (s : State) : Answer := s.atUnits fun s => s.fabricAnswer port.val peer v

/-- ARRIVE: An ARRIVE report (12 R323). -/
def execArrive (port : Tri) (faddr : BitVec 24) (name : Word) (s : State) : Answer := s.atUnits fun s => s.arrive port.val faddr.toNat name

/-- DEPART: A DEPART report (12 R331). -/
def execDepart (port : Tri) (faddr : BitVec 24) (s : State) : Answer := s.atUnits fun s => s.depart port.val faddr.toNat

/-- OPEN: OPEN of a session with its block at addr (12 R329). -/
def execOpenSess (session : BitVec 12) (addr : Word) (s : State) : Answer :=
  s.atUnits fun s => s.viaWindow aSpnScmd fun s => s.sessOpen session.toNat addr.toNat

/-- MODIFY: MODIFY of a session (12 R329). -/
def execModifySess (session : BitVec 12) (addr : Word) (s : State) : Answer :=
  s.atUnits fun s => s.viaWindow aSpnScmd fun s => s.sessModify session.toNat addr.toNat

/-- CLOSE: CLOSE of a session (12 R329). -/
def execCloseSess (session : BitVec 12) (s : State) : Answer := s.atUnits fun s => s.viaWindow aSpnScmd fun s => s.sessClose session.toNat

/-- SESSION_QUERY: QUERY of a session (12 R329). -/
def execSessionQuery (session : BitVec 12) (addr : Word) (s : State) : Answer :=
  s.atUnits fun s => s.viaWindow aSpnScmd fun s => s.sessQuery session.toNat addr.toNat

/-- LOGIN_ACCEPT: A login is accepted (12 R330). -/
def execLoginAccept (session : BitVec 12) (path : Fin 8) (mask : BitVec 8) (name : Word) (s : State) : Answer :=
  s.atUnits fun s => s.loginAccept session.toNat path.val mask.toNat name

/-- LOGIN_REJECT: A login is rejected (12 R330). -/
def execLoginReject (session : BitVec 12) (path : Fin 8) (reason : BitVec 8) (s : State) : Answer :=
  s.atUnits fun s => s.loginReject session.toNat path.val reason.toNat

/-- LOGIN_TIMEOUT: A LOGIN has been unanswered for 2 ticks (12 R330). -/
def execLoginTimeout (session : BitVec 12) (path : Fin 8) (s : State) : Answer :=
  s.atUnits fun s => s.expireAt (.login session.toNat path.val)

/-- LOGOUT: A LOGOUT from the partner (12 R331). -/
def execLogout (session : BitVec 12) (path : Fin 8) (whole : Bool) (s : State) : Answer :=
  s.atUnits fun s => s.logout session.toNat path.val whole

/-- KEEPALIVE: A KEEPALIVE is received (12 R334). -/
def execKeepalive (session : BitVec 12) (path : Fin 8) (s : State) : Answer := s.atUnits fun s => s.rxFrame session.toNat path.val

/-- KEEPALIVE_TIMEOUT: A path had no frame for KA_TICKS ticks (12 R331). -/
def execKeepaliveTimeout (session : BitVec 12) (path : Fin 8) (s : State) : Answer :=
  s.atUnits fun s => s.expireAt (.keepalive session.toNat path.val)

/-- ANSWER: A partner's answer (11 R313, 12 R335). -/
def execAnswer (session : BitVec 12) (path : Fin 8) (seq : Word) (epoch count : BitVec 32) (result : Word) (s : State) : Answer :=
  s.atUnits fun s => s.answer session.toNat path.val seq.toNat epoch.toNat count.toNat result

/-- DATA: Data of a READ (12 R328, R335). -/
def execData (session : BitVec 12) (path : Fin 8) (seq : Word) (epoch frameNo : BitVec 32) (bytes : List Byte) (s : State) : Answer :=
  s.atUnits fun s => s.dataIn session.toNat path.val seq.toNat epoch.toNat frameNo.toNat bytes

end Sys2Proof.Machine
end

