-- ==== Sys2Proof/Machine/ExecStart.lean ====
section
/-! DEFINITION. Meanings of commands. Resets, Keystone and the start journal (19). -/

namespace Sys2Proof.Machine
open Sys2Proof

/-- PWROK_FALL: PWROK falls (19 R479). -/
def execPwrokFall (s : State) : Answer := State.done (s.pwrokFall)

/-- RESET_N_ASSERT: RESET_N is asserted (19 R479). -/
def execResetNAssert (s : State) : Answer := State.done (s.resetN)

/-- ALWAYS_ON_POWER_GOOD: VDD_AON comes up (19 R479, R480). -/
def execAlwaysOnPowerGood (s : State) : Answer := State.done (s.alwaysOnReset true)

/-- CHIP_RESET: Keystone runs the start that is due (19 R482). -/
def execChipReset (env : StartEnv) (s : State) : Answer := State.done (s.startRun env none)

/-- KEYSTONE_STEP_LIMIT: Keystone runs the start that is due, and step + 1 exceeds its limit (19 R482). -/
def execKeystoneStepLimit (step : Fin 20) (env : StartEnv) (s : State) : Answer := State.done (s.startRun env (some (step.val + 1)))

/-- JOURNAL_FLASH_WRITE: A change of the start journal reaches the flash (19 R490). -/
def execJournalFlashWrite (s : State) : Answer := State.done (s.jrnlFlash)

/-- CLEAR_ATTEMPTS: KST_CTL.CLEAR_ATTEMPTS (19 R487). -/
def execClearAttempts (s : State) : Answer := s.wrReg1 (aKstCtl) 4

/-- RETRY_OPT: KST_CTL.RETRY_OPT (19 R486). -/
def execRetryOpt (s : State) : Answer := s.wrReg1 (aKstCtl) 2

/-- FLUSH: KST_CTL.FLUSH (19 R490). -/
def execFlush (s : State) : Answer := s.wrReg1 (aKstCtl) 1

/-- VDD_AON_FALL: VDD_AON or VDD_IO falls (21 R517). -/
def execVddAonFall (s : State) : Answer := State.done (s.alwaysOnReset false)

end Sys2Proof.Machine
end

