-- ==== Sys2Proof/Machine/ExecSys.lean ====
section
/-! DEFINITION. Meanings of commands. Control registers, system, cache and TLB operations (02, 05, 07, 08). -/

namespace Sys2Proof.Machine
open Sys2Proof

/-- MFCR: `mfcr rd, num` (R42). -/
def execMfcr (at_ : Issue) (rd : Reg) (num : BitVec 9) (s : State) : Answer := State.done (s.stage at_ (effMfcr rd num))

/-- MTCR: `mtcr num, ra` (R42). -/
def execMtcr (at_ : Issue) (num : BitVec 9) (ra : Reg) (s : State) : Answer := State.done (s.stage at_ (effMtcr num ra))

/-- SYS_CALL: `sys.call` (R123). -/
def execSysCall (at_ : Issue) (s : State) : Answer := State.done (s.stage at_ effSysCall)

/-- SYS_BRK: `sys.brk` (R123). -/
def execSysBrk (at_ : Issue) (s : State) : Answer := State.done (s.stage at_ effSysBrk)

/-- ERET: `eret` (R139). -/
def execEret (at_ : Issue) (s : State) : Answer := State.done (s.stage at_ effEret)

/-- WAIT: `wait` (R142). -/
def execWait (at_ : Issue) (s : State) : Answer := State.done (s.stage at_ effWait)

/-- DZ_CLR: `dz.clr` (R78). -/
def execDzClr (at_ : Issue) (s : State) : Answer := State.done (s.stage at_ effDzClr)

/-- CM_CL: `cm.cl rd, ra, rb` (R201). -/
def execCmCl (at_ : Issue) (rd ra rb : Reg) (s : State) : Answer := State.done (s.stage at_ (effCmCl rd ra rb))

/-- CM_INV: `cm.inv rd, ra, rb` (R201). -/
def execCmInv (at_ : Issue) (rd ra rb : Reg) (s : State) : Answer := State.done (s.stage at_ (effCmInv rd ra rb))

/-- CM_CLI: `cm.cli rd, ra, rb` (R201). -/
def execCmCli (at_ : Issue) (rd ra rb : Reg) (s : State) : Answer := State.done (s.stage at_ (effCmCli rd ra rb))

/-- CM_CL_R: `cm.cl.r rd, ra, rb` (R203). -/
def execCmClR (at_ : Issue) (rd ra rb : Reg) (s : State) : Answer := State.done (s.stage at_ (effCmClR rd ra rb))

/-- CM_INV_R: `cm.inv.r rd, ra, rb` (R203). -/
def execCmInvR (at_ : Issue) (rd ra rb : Reg) (s : State) : Answer := State.done (s.stage at_ (effCmInvR rd ra rb))

/-- CM_CLI_R: `cm.cli.r rd, ra, rb` (R203). -/
def execCmCliR (at_ : Issue) (rd ra rb : Reg) (s : State) : Answer := State.done (s.stage at_ (effCmCliR rd ra rb))

/-- CM_CL_SW: `cm.cl.sw rd, ra, rb` (R204). -/
def execCmClSw (at_ : Issue) (rd ra rb : Reg) (s : State) : Answer := State.done (s.stage at_ (effCmClSw rd ra rb))

/-- CM_INV_SW: `cm.inv.sw rd, ra, rb` (R204). -/
def execCmInvSw (at_ : Issue) (rd ra rb : Reg) (s : State) : Answer := State.done (s.stage at_ (effCmInvSw rd ra rb))

/-- CM_CLI_SW: `cm.cli.sw rd, ra, rb` (R204). -/
def execCmCliSw (at_ : Issue) (rd ra rb : Reg) (s : State) : Answer := State.done (s.stage at_ (effCmCliSw rd ra rb))

/-- CM_ISYNC: `cm.isync rd, ra, rb` (R205). -/
def execCmIsync (at_ : Issue) (rd ra rb : Reg) (s : State) : Answer := State.done (s.stage at_ (effCmIsync rd ra rb))

/-- CM_LKFILL: `cm.lkfill rd, ra, rb` (R195). -/
def execCmLkfill (at_ : Issue) (rd ra rb : Reg) (s : State) : Answer := State.done (s.stage at_ (effCmLkfill rd ra rb))

/-- TLB_INV_VA: `tlb.inv.va rd, ra, rb` (R227). -/
def execTlbInvVa (at_ : Issue) (rd ra rb : Reg) (s : State) : Answer := State.done (s.stage at_ (effTlbInvVa rd ra rb))

/-- TLB_INV_ASID: `tlb.inv.asid rd, ra, rb` (R227). -/
def execTlbInvAsid (at_ : Issue) (rd ra rb : Reg) (s : State) : Answer := State.done (s.stage at_ (effTlbInvAsid rd ra rb))

/-- TLB_INV_ALL: `tlb.inv.all rd, ra, rb` (R227). -/
def execTlbInvAll (at_ : Issue) (rd ra rb : Reg) (s : State) : Answer := State.done (s.stage at_ (effTlbInvAll rd ra rb))

/-- TLB_INV_PRA: `tlb.inv.pra rd, ra, rb` (R227). -/
def execTlbInvPra (at_ : Issue) (rd ra rb : Reg) (s : State) : Answer := State.done (s.stage at_ (effTlbInvPra rd ra rb))

/-- TLB_INV_PART: `tlb.inv.part rd, ra, rb` (R227). -/
def execTlbInvPart (at_ : Issue) (rd ra rb : Reg) (s : State) : Answer := State.done (s.stage at_ (effTlbInvPart rd ra rb))

end Sys2Proof.Machine
end

