-- ==== Sys2Proof/Machine/ExecTick.lean ====
section
/-! DEFINITION. Meanings of commands. The tick generator (01 R26 to R35). -/

namespace Sys2Proof.Machine
open Sys2Proof

/-- TICK_BOUNDARY: The next boundary (01 R30). -/
def execTickBoundary (s : State) : Answer := State.done (s.tickBoundary)

/-- INTERVAL_EXPIRY: A tick-counted interval expires (01 R31). -/
def execIntervalExpiry (k : IntervalKind) (s : State) : Answer := s.atAlive fun s => s.expireAt k

/-- HUB_TICK_PERIOD_WRITE: HUB_TICK_PERIOD (01 R26). -/
def execHubTickPeriodWrite (v : Word) (s : State) : Answer := s.wrReg1 (aHubTickPeriod) v

/-- TICK_IN_EDGE: A TICK_IN edge (01 R35). -/
def execTickInEdge (s : State) : Answer := State.done (s.tickInEdge)

/-- TICK_IN_LOST: Four periods without an accepted edge (01 R35). -/
def execTickInLost (s : State) : Answer := State.done (s.tickInLost)

end Sys2Proof.Machine
end

