-- ==== Sys2Proof/Machine/ExecTriad.lean ====
section
/-! DEFINITION. Meanings of commands. Events of a triad (05 R133, 06). -/

namespace Sys2Proof.Machine
open Sys2Proof

/-- EXCEPTION_ENTRY: The bundle boundary of LP n looks for events, and the first that applies is taken (05 R127, R133). -/
def execExceptionEntry (n : Tri) (s : State) : Answer := s.atAlive fun s => s.eventCheck n

/-- VOTER_RELEASE: The voter decides on the oldest record of triad n (06 R148 to R154). -/
def execVoterRelease (n : Tri) (b : Ballot) (s : State) : Answer := s.atAlive fun s => s.vote n b

/-- INSTRUCTION_RETRY: Records without a majority: the cores go back to the voted state, unless words of it are lost (06 R156, R157,
R170). -/
def execInstructionRetry (n : Tri) (kind : BitVec 4) (item : RetryItem) (s : State) : Answer :=
  s.atAlive fun s => s.retryCmd n kind.toNat item.item.toNat (item.lost.map (·.toNat))

/-- RESYNC_FREEZE: The freeze of a resynchronisation; `recopied` are the marked granules that the recopy passes have copied again
(06 R161, R163). -/
def execResyncFreeze (n : Tri) (recopied : List Nat) (copyFails : Bool) (s : State) : Answer :=
  s.atAlive fun s => s.freezeResync n recopied copyFails

/-- SPARE_SUBSTITUTION: The self-test of the spare brought in ends (06 R167, R168). -/
def execSpareSubstitution (n : Tri) (ok : Bool) (s : State) : Answer := s.atAlive fun s => s.spareTest n ok

/-- TRD_CTL_RECOVER: TRD_CTL.RECOVER; `failed` are the cores that do not pass their self-test (06 R173). -/
def execTrdCtlRecover (n : Tri) (failed : List Nat) (s : State) : Answer :=
  s.atUnits fun s => s.viaWindow (aTrdCtl n.val) fun s => s.recover n failed

/-- TRD_CTL_START: TRD_CTL.START (06 R173). -/
def execTrdCtlStart (n : Tri) (s : State) : Answer := s.wrReg1 (aTrdCtl n.val) 2

/-- TRD_VS_DATA_ACCESS: A read of TRD_VS_DATA, or a write (06 R172, R174). -/
def execTrdVsDataAccess (n : Tri) (wr : Option Word) (s : State) : Answer := s.atUnits fun s => s.vsAccess n wr

/-- FLUSH_NEAR: TRD_PRED_CTL orders a flush of the near predictors (04 R117). -/
def execFlushNear (n : Tri) (s : State) : Answer := s.wrHeld (aTrdPredCtl n.val) 1

/-- FLUSH_SHARED: TRD_PRED_CTL orders a flush of the shared predictors (04 R117). -/
def execFlushShared (n : Tri) (s : State) : Answer := s.wrHeld (aTrdPredCtl n.val) 2

/-- TRD_INT_PEND_WRITE: Partition firmware sets pending bits (05 R125). -/
def execTrdIntPendWrite (n : Tri) (k : Fin 4) (v : Word) (s : State) : Answer := s.wrReg1 (aTrdIntPend n.val k.val) v

end Sys2Proof.Machine
end

