-- ==== Sys2Proof/Machine/Dispatch.lean ====
section
/-! DEFINITION. Every command's meaning. -/

namespace Sys2Proof.Machine
open Sys2Proof

/-- What a command does. -/
def exec (i : Instr) (s : State) : Host.Outcome State Fault Refusal :=
  match i with
  | .add at_ rd ra rb => Sys2Proof.Machine.execAdd at_ rd ra rb s
  | .sub at_ rd ra rb => Sys2Proof.Machine.execSub at_ rd ra rb s
  | .and at_ rd ra rb => Sys2Proof.Machine.execAnd at_ rd ra rb s
  | .or at_ rd ra rb => Sys2Proof.Machine.execOr at_ rd ra rb s
  | .xor at_ rd ra rb => Sys2Proof.Machine.execXor at_ rd ra rb s
  | .andn at_ rd ra rb => Sys2Proof.Machine.execAndn at_ rd ra rb s
  | .sll at_ rd ra rb => Sys2Proof.Machine.execSll at_ rd ra rb s
  | .srl at_ rd ra rb => Sys2Proof.Machine.execSrl at_ rd ra rb s
  | .sra at_ rd ra rb => Sys2Proof.Machine.execSra at_ rd ra rb s
  | .rol at_ rd ra rb => Sys2Proof.Machine.execRol at_ rd ra rb s
  | .slt at_ rd ra rb => Sys2Proof.Machine.execSlt at_ rd ra rb s
  | .sltu at_ rd ra rb => Sys2Proof.Machine.execSltu at_ rd ra rb s
  | .min at_ rd ra rb => Sys2Proof.Machine.execMin at_ rd ra rb s
  | .max at_ rd ra rb => Sys2Proof.Machine.execMax at_ rd ra rb s
  | .minu at_ rd ra rb => Sys2Proof.Machine.execMinu at_ rd ra rb s
  | .maxu at_ rd ra rb => Sys2Proof.Machine.execMaxu at_ rd ra rb s
  | .cmovZ at_ rd ra rb => Sys2Proof.Machine.execCmovZ at_ rd ra rb s
  | .cmovNz at_ rd ra rb => Sys2Proof.Machine.execCmovNz at_ rd ra rb s
  | .selZ at_ rd ra rb => Sys2Proof.Machine.execSelZ at_ rd ra rb s
  | .selNz at_ rd ra rb => Sys2Proof.Machine.execSelNz at_ rd ra rb s
  | .mul at_ rd ra rb => Sys2Proof.Machine.execMul at_ rd ra rb s
  | .mulh at_ rd ra rb => Sys2Proof.Machine.execMulh at_ rd ra rb s
  | .mulhu at_ rd ra rb => Sys2Proof.Machine.execMulhu at_ rd ra rb s
  | .div at_ rd ra rb => Sys2Proof.Machine.execDiv at_ rd ra rb s
  | .divu at_ rd ra rb => Sys2Proof.Machine.execDivu at_ rd ra rb s
  | .rem at_ rd ra rb => Sys2Proof.Machine.execRem at_ rd ra rb s
  | .remu at_ rd ra rb => Sys2Proof.Machine.execRemu at_ rd ra rb s
  | .addi at_ rd ra imm => Sys2Proof.Machine.execAddi at_ rd ra imm s
  | .andi at_ rd ra imm => Sys2Proof.Machine.execAndi at_ rd ra imm s
  | .ori at_ rd ra imm => Sys2Proof.Machine.execOri at_ rd ra imm s
  | .xori at_ rd ra imm => Sys2Proof.Machine.execXori at_ rd ra imm s
  | .slti at_ rd ra imm => Sys2Proof.Machine.execSlti at_ rd ra imm s
  | .shI at_ rd ra imm => Sys2Proof.Machine.execShI at_ rd ra imm s
  | .ldi at_ rd imm => Sys2Proof.Machine.execLdi at_ rd imm s
  | .ldiSh at_ rd imm => Sys2Proof.Machine.execLdiSh at_ rd imm s
  | .bfExt at_ rd ra pos len1 => Sys2Proof.Machine.execBfExt at_ rd ra pos len1 s
  | .bfExts at_ rd ra pos len1 => Sys2Proof.Machine.execBfExts at_ rd ra pos len1 s
  | .bfIns at_ rd ra pos len1 => Sys2Proof.Machine.execBfIns at_ rd ra pos len1 s
  | .clz at_ rd ra => Sys2Proof.Machine.execClz at_ rd ra s
  | .ctz at_ rd ra => Sys2Proof.Machine.execCtz at_ rd ra s
  | .popc at_ rd ra => Sys2Proof.Machine.execPopc at_ rd ra s
  | .permB at_ rd ra rb => Sys2Proof.Machine.execPermB at_ rd ra rb s
  | .crcStep32 at_ rd ra rb => Sys2Proof.Machine.execCrcStep32 at_ rd ra rb s
  | .crcStep32c at_ rd ra rb => Sys2Proof.Machine.execCrcStep32c at_ rd ra rb s
  | .crcStep64 at_ rd ra rb => Sys2Proof.Machine.execCrcStep64 at_ rd ra rb s
  | .parD at_ rd ra => Sys2Proof.Machine.execParD at_ rd ra s
  | .parB at_ rd ra => Sys2Proof.Machine.execParB at_ rd ra s
  | .brevD at_ rd ra => Sys2Proof.Machine.execBrevD at_ rd ra s
  | .brevB at_ rd ra => Sys2Proof.Machine.execBrevB at_ rd ra s
  | .ldB at_ rt base disp => Sys2Proof.Machine.execLdB at_ rt base disp s
  | .ldBs at_ rt base disp => Sys2Proof.Machine.execLdBs at_ rt base disp s
  | .ldH at_ rt base disp => Sys2Proof.Machine.execLdH at_ rt base disp s
  | .ldHs at_ rt base disp => Sys2Proof.Machine.execLdHs at_ rt base disp s
  | .ldW at_ rt base disp => Sys2Proof.Machine.execLdW at_ rt base disp s
  | .ldWs at_ rt base disp => Sys2Proof.Machine.execLdWs at_ rt base disp s
  | .ldD at_ rt base disp => Sys2Proof.Machine.execLdD at_ rt base disp s
  | .ldFd at_ rt base disp => Sys2Proof.Machine.execLdFd at_ rt base disp s
  | .ldFs at_ rt base disp => Sys2Proof.Machine.execLdFs at_ rt base disp s
  | .ldxB at_ rd ra rb => Sys2Proof.Machine.execLdxB at_ rd ra rb s
  | .ldxBs at_ rd ra rb => Sys2Proof.Machine.execLdxBs at_ rd ra rb s
  | .ldxH at_ rd ra rb => Sys2Proof.Machine.execLdxH at_ rd ra rb s
  | .ldxHs at_ rd ra rb => Sys2Proof.Machine.execLdxHs at_ rd ra rb s
  | .ldxW at_ rd ra rb => Sys2Proof.Machine.execLdxW at_ rd ra rb s
  | .ldxWs at_ rd ra rb => Sys2Proof.Machine.execLdxWs at_ rd ra rb s
  | .ldxD at_ rd ra rb => Sys2Proof.Machine.execLdxD at_ rd ra rb s
  | .stB at_ rt base disp => Sys2Proof.Machine.execStB at_ rt base disp s
  | .stH at_ rt base disp => Sys2Proof.Machine.execStH at_ rt base disp s
  | .stW at_ rt base disp => Sys2Proof.Machine.execStW at_ rt base disp s
  | .stD at_ rt base disp => Sys2Proof.Machine.execStD at_ rt base disp s
  | .stFs at_ rt base disp => Sys2Proof.Machine.execStFs at_ rt base disp s
  | .stFd at_ rt base disp => Sys2Proof.Machine.execStFd at_ rt base disp s
  | .stxB at_ rd ra rb => Sys2Proof.Machine.execStxB at_ rd ra rb s
  | .stxH at_ rd ra rb => Sys2Proof.Machine.execStxH at_ rd ra rb s
  | .stxW at_ rd ra rb => Sys2Proof.Machine.execStxW at_ rd ra rb s
  | .stxD at_ rd ra rb => Sys2Proof.Machine.execStxD at_ rd ra rb s
  | .ldNtD at_ rd ra rb => Sys2Proof.Machine.execLdNtD at_ rd ra rb s
  | .stNtD at_ rd ra rb => Sys2Proof.Machine.execStNtD at_ rd ra rb s
  | .casD at_ rd ra rb => Sys2Proof.Machine.execCasD at_ rd ra rb s
  | .casQ at_ rd ra rb => Sys2Proof.Machine.execCasQ at_ rd ra rb s
  | .amoSwapD at_ rd ra rb => Sys2Proof.Machine.execAmoSwapD at_ rd ra rb s
  | .amoAddD at_ rd ra rb => Sys2Proof.Machine.execAmoAddD at_ rd ra rb s
  | .amoAndD at_ rd ra rb => Sys2Proof.Machine.execAmoAndD at_ rd ra rb s
  | .amoOrD at_ rd ra rb => Sys2Proof.Machine.execAmoOrD at_ rd ra rb s
  | .barFull at_ rd ra rb => Sys2Proof.Machine.execBarFull at_ rd ra rb s
  | .barSt at_ rd ra rb => Sys2Proof.Machine.execBarSt at_ rd ra rb s
  | .fadd at_ d fd fa fb => Sys2Proof.Machine.execFadd at_ d fd fa fb s
  | .fsub at_ d fd fa fb => Sys2Proof.Machine.execFsub at_ d fd fa fb s
  | .fmul at_ d fd fa fb => Sys2Proof.Machine.execFmul at_ d fd fa fb s
  | .fdiv at_ d fd fa fb => Sys2Proof.Machine.execFdiv at_ d fd fa fb s
  | .fsqrt at_ d fd fa => Sys2Proof.Machine.execFsqrt at_ d fd fa s
  | .fmin at_ d fd fa fb => Sys2Proof.Machine.execFmin at_ d fd fa fb s
  | .fmax at_ d fd fa fb => Sys2Proof.Machine.execFmax at_ d fd fa fb s
  | .fcmpEq at_ d rd fa fb => Sys2Proof.Machine.execFcmpEq at_ d rd fa fb s
  | .fcmpLt at_ d rd fa fb => Sys2Proof.Machine.execFcmpLt at_ d rd fa fb s
  | .fcmpLe at_ d rd fa fb => Sys2Proof.Machine.execFcmpLe at_ d rd fa fb s
  | .fclass at_ d rd fa => Sys2Proof.Machine.execFclass at_ d rd fa s
  | .fcvtL at_ d rd fa => Sys2Proof.Machine.execFcvtL at_ d rd fa s
  | .fcvtLu at_ d rd fa => Sys2Proof.Machine.execFcvtLu at_ d rd fa s
  | .fcvtFl at_ d fd ra => Sys2Proof.Machine.execFcvtFl at_ d fd ra s
  | .fcvtFlu at_ d fd ra => Sys2Proof.Machine.execFcvtFlu at_ d fd ra s
  | .fcvtP at_ d fd fa => Sys2Proof.Machine.execFcvtP at_ d fd fa s
  | .fmvGf at_ d fd ra => Sys2Proof.Machine.execFmvGf at_ d fd ra s
  | .fmvFg at_ d rd fa => Sys2Proof.Machine.execFmvFg at_ d rd fa s
  | .fma at_ d fd fa fb fc => Sys2Proof.Machine.execFma at_ d fd fa fb fc s
  | .fms at_ d fd fa fb fc => Sys2Proof.Machine.execFms at_ d fd fa fb fc s
  | .fnma at_ d fd fa fb fc => Sys2Proof.Machine.execFnma at_ d fd fa fb fc s
  | .fnms at_ d fd fa fb fc => Sys2Proof.Machine.execFnms at_ d fd fa fb fc s
  | .macQ15 at_ acc ra rb => Sys2Proof.Machine.execMacQ15 at_ acc ra rb s
  | .macQ31 at_ acc ra rb => Sys2Proof.Machine.execMacQ31 at_ acc ra rb s
  | .macQ63 at_ acc ra rb => Sys2Proof.Machine.execMacQ63 at_ acc ra rb s
  | .msuQ15 at_ acc ra rb => Sys2Proof.Machine.execMsuQ15 at_ acc ra rb s
  | .msuQ31 at_ acc ra rb => Sys2Proof.Machine.execMsuQ31 at_ acc ra rb s
  | .msuQ63 at_ acc ra rb => Sys2Proof.Machine.execMsuQ63 at_ acc ra rb s
  | .accClr at_ acc => Sys2Proof.Machine.execAccClr at_ acc s
  | .accAdd at_ acc ra rb => Sys2Proof.Machine.execAccAdd at_ acc ra rb s
  | .extQ15 at_ rd acc => Sys2Proof.Machine.execExtQ15 at_ rd acc s
  | .extQ31 at_ rd acc => Sys2Proof.Machine.execExtQ31 at_ rd acc s
  | .extQ63 at_ rd acc => Sys2Proof.Machine.execExtQ63 at_ rd acc s
  | .accRdl at_ rd acc => Sys2Proof.Machine.execAccRdl at_ rd acc s
  | .accRdm at_ rd acc => Sys2Proof.Machine.execAccRdm at_ rd acc s
  | .accRdh at_ rd acc => Sys2Proof.Machine.execAccRdh at_ rd acc s
  | .accWrl at_ acc ra => Sys2Proof.Machine.execAccWrl at_ acc ra s
  | .accWrm at_ acc ra => Sys2Proof.Machine.execAccWrm at_ acc ra s
  | .accWrh at_ acc ra => Sys2Proof.Machine.execAccWrh at_ acc ra s
  | .bZ at_ ra disp => Sys2Proof.Machine.execBZ at_ ra disp s
  | .bNz at_ ra disp => Sys2Proof.Machine.execBNz at_ ra disp s
  | .bLt at_ ra disp => Sys2Proof.Machine.execBLt at_ ra disp s
  | .bGe at_ ra disp => Sys2Proof.Machine.execBGe at_ ra disp s
  | .jmp at_ rd disp => Sys2Proof.Machine.execJmp at_ rd disp s
  | .jr at_ rd ra => Sys2Proof.Machine.execJr at_ rd ra s
  | .lpSet at_ level ra endOff => Sys2Proof.Machine.execLpSet at_ level ra endOff s
  | .mfcr at_ rd num => Sys2Proof.Machine.execMfcr at_ rd num s
  | .mtcr at_ num ra => Sys2Proof.Machine.execMtcr at_ num ra s
  | .sysCall at_ => Sys2Proof.Machine.execSysCall at_ s
  | .sysBrk at_ => Sys2Proof.Machine.execSysBrk at_ s
  | .eret at_ => Sys2Proof.Machine.execEret at_ s
  | .wait at_ => Sys2Proof.Machine.execWait at_ s
  | .dzClr at_ => Sys2Proof.Machine.execDzClr at_ s
  | .cmCl at_ rd ra rb => Sys2Proof.Machine.execCmCl at_ rd ra rb s
  | .cmInv at_ rd ra rb => Sys2Proof.Machine.execCmInv at_ rd ra rb s
  | .cmCli at_ rd ra rb => Sys2Proof.Machine.execCmCli at_ rd ra rb s
  | .cmClR at_ rd ra rb => Sys2Proof.Machine.execCmClR at_ rd ra rb s
  | .cmInvR at_ rd ra rb => Sys2Proof.Machine.execCmInvR at_ rd ra rb s
  | .cmCliR at_ rd ra rb => Sys2Proof.Machine.execCmCliR at_ rd ra rb s
  | .cmClSw at_ rd ra rb => Sys2Proof.Machine.execCmClSw at_ rd ra rb s
  | .cmInvSw at_ rd ra rb => Sys2Proof.Machine.execCmInvSw at_ rd ra rb s
  | .cmCliSw at_ rd ra rb => Sys2Proof.Machine.execCmCliSw at_ rd ra rb s
  | .cmIsync at_ rd ra rb => Sys2Proof.Machine.execCmIsync at_ rd ra rb s
  | .cmLkfill at_ rd ra rb => Sys2Proof.Machine.execCmLkfill at_ rd ra rb s
  | .tlbInvVa at_ rd ra rb => Sys2Proof.Machine.execTlbInvVa at_ rd ra rb s
  | .tlbInvAsid at_ rd ra rb => Sys2Proof.Machine.execTlbInvAsid at_ rd ra rb s
  | .tlbInvAll at_ rd ra rb => Sys2Proof.Machine.execTlbInvAll at_ rd ra rb s
  | .tlbInvPra at_ rd ra rb => Sys2Proof.Machine.execTlbInvPra at_ rd ra rb s
  | .tlbInvPart at_ rd ra rb => Sys2Proof.Machine.execTlbInvPart at_ rd ra rb s
  | .blkMv at_ rd ra rb budget => Sys2Proof.Machine.execBlkMv at_ rd ra rb budget s
  | .blkCmp at_ rd ra rb budget => Sys2Proof.Machine.execBlkCmp at_ rd ra rb budget s
  | .blkCrc32 at_ rd ra rb budget => Sys2Proof.Machine.execBlkCrc32 at_ rd ra rb budget s
  | .blkCrc32c at_ rd ra rb budget => Sys2Proof.Machine.execBlkCrc32c at_ rd ra rb budget s
  | .blkCrc64 at_ rd ra rb budget => Sys2Proof.Machine.execBlkCrc64 at_ rd ra rb budget s
  | .cmpx at_ rd ra rb budget => Sys2Proof.Machine.execCmpx at_ rd ra rb budget s
  | .cphx at_ rd ra rb budget => Sys2Proof.Machine.execCphx at_ rd ra rb budget s
  | .exceptionEntry n => Sys2Proof.Machine.execExceptionEntry n s
  | .voterRelease n b => Sys2Proof.Machine.execVoterRelease n b s
  | .instructionRetry n kind item => Sys2Proof.Machine.execInstructionRetry n kind item s
  | .resyncFreeze n recopied copyFails => Sys2Proof.Machine.execResyncFreeze n recopied copyFails s
  | .spareSubstitution n ok => Sys2Proof.Machine.execSpareSubstitution n ok s
  | .trdCtlRecover n failed => Sys2Proof.Machine.execTrdCtlRecover n failed s
  | .trdCtlStart n => Sys2Proof.Machine.execTrdCtlStart n s
  | .trdVsDataAccess n wr => Sys2Proof.Machine.execTrdVsDataAccess n wr s
  | .flushNear n => Sys2Proof.Machine.execFlushNear n s
  | .flushShared n => Sys2Proof.Machine.execFlushShared n s
  | .trdIntPendWrite n k v => Sys2Proof.Machine.execTrdIntPendWrite n k v s
  | .storePerformed n => Sys2Proof.Machine.execStorePerformed n s
  | .combiningBufferDrain n line => Sys2Proof.Machine.execCombiningBufferDrain n line s
  | .deviceAccessAnswer n acc ok data => Sys2Proof.Machine.execDeviceAccessAnswer n acc ok data s
  | .deviceTimeout n acc => Sys2Proof.Machine.execDeviceTimeout n acc s
  | .cacheFill n line => Sys2Proof.Machine.execCacheFill n line s
  | .directoryRequest n line => Sys2Proof.Machine.execDirectoryRequest n line s
  | .victimBufferAck n entry => Sys2Proof.Machine.execVictimBufferAck n entry s
  | .d2dFlitFail die dir => Sys2Proof.Machine.execD2dFlitFail die dir s
  | .tickBoundary => Sys2Proof.Machine.execTickBoundary s
  | .intervalExpiry k => Sys2Proof.Machine.execIntervalExpiry k s
  | .hubTickPeriodWrite v => Sys2Proof.Machine.execHubTickPeriodWrite v s
  | .tickInEdge => Sys2Proof.Machine.execTickInEdge s
  | .tickInLost => Sys2Proof.Machine.execTickInLost s
  | .hubOrderModeWrite v => Sys2Proof.Machine.execHubOrderModeWrite v s
  | .registerWrite part addr size v => Sys2Proof.Machine.execRegisterWrite part addr size v s
  | .pfWarnNAssert => Sys2Proof.Machine.execPfWarnNAssert s
  | .quiesceStoreLimit => Sys2Proof.Machine.execQuiesceStoreLimit s
  | .quiesceEnd => Sys2Proof.Machine.execQuiesceEnd s
  | .contextsWritten => Sys2Proof.Machine.execContextsWritten s
  | .persistentWritebackEnd => Sys2Proof.Machine.execPersistentWritebackEnd s
  | .writebackEnd => Sys2Proof.Machine.execWritebackEnd s
  | .selfRefreshAck m ok => Sys2Proof.Machine.execSelfRefreshAck m ok s
  | .pfWarnNQuiet => Sys2Proof.Machine.execPfWarnNQuiet s
  | .pwrokFall => Sys2Proof.Machine.execPwrokFall s
  | .resetNAssert => Sys2Proof.Machine.execResetNAssert s
  | .alwaysOnPowerGood => Sys2Proof.Machine.execAlwaysOnPowerGood s
  | .chipReset env => Sys2Proof.Machine.execChipReset env s
  | .keystoneStepLimit step env => Sys2Proof.Machine.execKeystoneStepLimit step env s
  | .journalFlashWrite => Sys2Proof.Machine.execJournalFlashWrite s
  | .clearAttempts => Sys2Proof.Machine.execClearAttempts s
  | .retryOpt => Sys2Proof.Machine.execRetryOpt s
  | .flush => Sys2Proof.Machine.execFlush s
  | .memLaneDegrade m => Sys2Proof.Machine.execMemLaneDegrade m s
  | .memLinkFail m => Sys2Proof.Machine.execMemLinkFail m s
  | .memCe addr => Sys2Proof.Machine.execMemCe addr s
  | .memUe addr => Sys2Proof.Machine.execMemUe addr s
  | .cssDblWrite line v => Sys2Proof.Machine.execCssDblWrite line v s
  | .doorbellReread line => Sys2Proof.Machine.execDoorbellReread line s
  | .createRing ring => Sys2Proof.Machine.execCreateRing ring s
  | .destroyRing ring => Sys2Proof.Machine.execDestroyRing ring s
  | .destroyEnd ring => Sys2Proof.Machine.execDestroyEnd ring s
  | .retargetRing ring => Sys2Proof.Machine.execRetargetRing ring s
  | .resumeRing ring => Sys2Proof.Machine.execResumeRing ring s
  | .queryRing ring => Sys2Proof.Machine.execQueryRing ring s
  | .cssJrnlWrite p v => Sys2Proof.Machine.execCssJrnlWrite p v s
  | .entryAdmission ring => Sys2Proof.Machine.execEntryAdmission ring s
  | .opNop ring => Sys2Proof.Machine.execOpNop ring s
  | .opRead ring => Sys2Proof.Machine.execOpRead ring s
  | .opWrite ring => Sys2Proof.Machine.execOpWrite ring s
  | .opControl ring => Sys2Proof.Machine.execOpControl ring s
  | .opCompress ring => Sys2Proof.Machine.execOpCompress ring s
  | .opDecompress ring => Sys2Proof.Machine.execOpDecompress ring s
  | .opCipher ring => Sys2Proof.Machine.execOpCipher ring s
  | .operationIssue p slot => Sys2Proof.Machine.execOperationIssue p slot s
  | .pathFailed session path => Sys2Proof.Machine.execPathFailed session path s
  | .pathWaitExpiry session => Sys2Proof.Machine.execPathWaitExpiry session s
  | .resumeTicksExpiry session => Sys2Proof.Machine.execResumeTicksExpiry session s
  | .hubPmtWriteResume p v => Sys2Proof.Machine.execHubPmtWriteResume p v s
  | .journalWriteback p slot => Sys2Proof.Machine.execJournalWriteback p slot s
  | .spnLaneDegrade port => Sys2Proof.Machine.execSpnLaneDegrade port s
  | .spnPortFail port cause => Sys2Proof.Machine.execSpnPortFail port cause s
  | .portRetrain port ok => Sys2Proof.Machine.execPortRetrain port ok s
  | .replayReq port lsn => Sys2Proof.Machine.execReplayReq port lsn s
  | .ackTimeoutReplay port => Sys2Proof.Machine.execAckTimeoutReplay port s
  | .frameReceive port kind lsn ack cr0 cr1 => Sys2Proof.Machine.execFrameReceive port kind lsn ack cr0 cr1 s
  | .fabricLogin port peer v => Sys2Proof.Machine.execFabricLogin port peer v s
  | .arrive port faddr name => Sys2Proof.Machine.execArrive port faddr name s
  | .depart port faddr => Sys2Proof.Machine.execDepart port faddr s
  | .openSess session addr => Sys2Proof.Machine.execOpenSess session addr s
  | .modifySess session addr => Sys2Proof.Machine.execModifySess session addr s
  | .closeSess session => Sys2Proof.Machine.execCloseSess session s
  | .sessionQuery session addr => Sys2Proof.Machine.execSessionQuery session addr s
  | .loginAccept session path mask name => Sys2Proof.Machine.execLoginAccept session path mask name s
  | .loginReject session path reason => Sys2Proof.Machine.execLoginReject session path reason s
  | .loginTimeout session path => Sys2Proof.Machine.execLoginTimeout session path s
  | .logout session path whole => Sys2Proof.Machine.execLogout session path whole s
  | .keepalive session path => Sys2Proof.Machine.execKeepalive session path s
  | .keepaliveTimeout session path => Sys2Proof.Machine.execKeepaliveTimeout session path s
  | .answer session path seq epoch count result => Sys2Proof.Machine.execAnswer session path seq epoch count result s
  | .data session path seq epoch frameNo bytes => Sys2Proof.Machine.execData session path seq epoch frameNo bytes s
  | .inboundRequest n r rid addr req claim => Sys2Proof.Machine.execInboundRequest n r rid addr req claim s
  | .messageInterrupt n r rid off data => Sys2Proof.Machine.execMessageInterrupt n r rid off data s
  | .pciCfgAddrWrite v => Sys2Proof.Machine.execPciCfgAddrWrite v s
  | .pciCfgDataWrite v => Sys2Proof.Machine.execPciCfgDataWrite v s
  | .configCompletion ans => Sys2Proof.Machine.execConfigCompletion ans s
  | .invRid n => Sys2Proof.Machine.execInvRid n s
  | .pciLinkDown n r => Sys2Proof.Machine.execPciLinkDown n r s
  | .engineRequestPlacement => Sys2Proof.Machine.execEngineRequestPlacement s
  | .sliceBoundary e => Sys2Proof.Machine.execSliceBoundary e s
  | .engineCompletion e upset => Sys2Proof.Machine.execEngineCompletion e upset s
  | .cipherRequestPlacement => Sys2Proof.Machine.execCipherRequestPlacement s
  | .class0Resume e => Sys2Proof.Machine.execClass0Resume e s
  | .encrypt e blocks => Sys2Proof.Machine.execEncrypt e blocks s
  | .decrypt e blocks => Sys2Proof.Machine.execDecrypt e blocks s
  | .macGen e blocks => Sys2Proof.Machine.execMacGen e blocks s
  | .macVerify e blocks => Sys2Proof.Machine.execMacVerify e blocks s
  | .keyLoad e blocks => Sys2Proof.Machine.execKeyLoad e blocks s
  | .keyGen e blocks => Sys2Proof.Machine.execKeyGen e blocks s
  | .keyExport e blocks => Sys2Proof.Machine.execKeyExport e blocks s
  | .keyClear e blocks => Sys2Proof.Machine.execKeyClear e blocks s
  | .random e blocks => Sys2Proof.Machine.execRandom e blocks s
  | .cipherCompletion e upset => Sys2Proof.Machine.execCipherCompletion e upset s
  | .authFailZeroing e blocks => Sys2Proof.Machine.execAuthFailZeroing e blocks s
  | .sealGen slot => Sys2Proof.Machine.execSealGen slot s
  | .sealLoad slot => Sys2Proof.Machine.execSealLoad slot s
  | .keyImport slot => Sys2Proof.Machine.execKeyImport slot s
  | .clearKey slot => Sys2Proof.Machine.execClearKey slot s
  | .keyQuery slot => Sys2Proof.Machine.execKeyQuery slot s
  | .cphKrangeWrite p v => Sys2Proof.Machine.execCphKrangeWrite p v s
  | .rngDataRead => Sys2Proof.Machine.execRngDataRead s
  | .retest => Sys2Proof.Machine.execRetest s
  | .rngHealthFail cause => Sys2Proof.Machine.execRngHealthFail cause s
  | .hubPartCfgWrite p v => Sys2Proof.Machine.execHubPartCfgWrite p v s
  | .hubPartL3qWrite p v => Sys2Proof.Machine.execHubPartL3qWrite p v s
  | .hubPartResWrite p v => Sys2Proof.Machine.execHubPartResWrite p v s
  | .faultEvent src info0 idA idB unit part => Sys2Proof.Machine.execFaultEvent src info0 idA idB unit part s
  | .unackWrite k => Sys2Proof.Machine.execUnackWrite k s
  | .quietIntervalExpiry k => Sys2Proof.Machine.execQuietIntervalExpiry k s
  | .refclkMonitorTrip => Sys2Proof.Machine.execRefclkMonitorTrip s
  | .crystalMonitorTrip => Sys2Proof.Machine.execCrystalMonitorTrip s
  | .crystalStartCount => Sys2Proof.Machine.execCrystalStartCount s
  | .clkPllUnlock pll => Sys2Proof.Machine.execClkPllUnlock pll s
  | .returnRef => Sys2Proof.Machine.execReturnRef s
  | .clkTrdFreqWrite n v => Sys2Proof.Machine.execClkTrdFreqWrite n v s
  | .avsWriteTimeout die => Sys2Proof.Machine.execAvsWriteTimeout die s
  | .clkGateWrite v => Sys2Proof.Machine.execClkGateWrite v s
  | .gateClosure b forced => Sys2Proof.Machine.execGateClosure b forced s
  | .cmdOff d v failed => Sys2Proof.Machine.execCmdOff d v failed s
  | .pwrDomainFail d => Sys2Proof.Machine.execPwrDomainFail d s
  | .idleEntry d => Sys2Proof.Machine.execIdleEntry d s
  | .idleExit d => Sys2Proof.Machine.execIdleExit d s
  | .todComparatorFire k => Sys2Proof.Machine.execTodComparatorFire k s
  | .halt q => Sys2Proof.Machine.execHalt q s
  | .dbgResume q => Sys2Proof.Machine.execDbgResume q s
  | .step q budget => Sys2Proof.Machine.execStep q budget s
  | .rdAbs q => Sys2Proof.Machine.execRdAbs q s
  | .wrAbs q => Sys2Proof.Machine.execWrAbs q s
  | .rdReg q => Sys2Proof.Machine.execRdReg q s
  | .wrReg q => Sys2Proof.Machine.execWrReg q s
  | .rdVmem q => Sys2Proof.Machine.execRdVmem q s
  | .wrVmem q => Sys2Proof.Machine.execWrVmem q s
  | .rdCs q => Sys2Proof.Machine.execRdCs q s
  | .lock => Sys2Proof.Machine.execLock s
  | .servicePortConnect => Sys2Proof.Machine.execServicePortConnect s
  | .sensorRead readings => Sys2Proof.Machine.execSensorRead readings s
  | .i2cRead code => Sys2Proof.Machine.execI2cRead code s
  | .pwrRailUv rail voltage => Sys2Proof.Machine.execPwrRailUv rail voltage s
  | .refclkJudgedSound => Sys2Proof.Machine.execRefclkJudgedSound s
  | .voltageWriteAcknowledge die => Sys2Proof.Machine.execVoltageWriteAcknowledge die s
  | .aerErrorReported n r rid uncorr fatal => Sys2Proof.Machine.execAerErrorReported n r rid uncorr fatal s
  | .servicePortConnectionClose => Sys2Proof.Machine.execServicePortConnectionClose s
  | .debugRequestCrcError q op => Sys2Proof.Machine.execDebugRequestCrcError q op s
  | .vddAonFall => Sys2Proof.Machine.execVddAonFall s

end Sys2Proof.Machine
end

