-- ==== Sys2Proof/WellFormed.lean ====
section
/-! DEFINITION. Which commands the surroundings of the block can send: the bounds that the spec sets on what an event brings with it.
The meanings do not rest on it; an instruction command is well-formed whatever its register fields (the encodings that 02 R56, R58
and 03 R90 forbid are its Reserved Instruction exceptions). -/

namespace Sys2Proof

/-- Core c of a die: cores 24 to 31 are its spares (06 R144). -/
def isCore (c : Nat) : Bool := decide (c < 32)

/-- KIND of a ballot is 1 to 6 for a difference, 7 for a late record (06 R154, R172); register items name g, f or acc. -/
def Ballot.wf : Ballot → Bool
  | .agree => true
  | .odd _ kind _ regs => decide (1 ≤ kind.toNat ∧ kind.toNat ≤ 7) && regs.all fun i => decide (i.toNat < 192)
  | .none kind _ => decide (1 ≤ kind.toNat ∧ kind.toNat ≤ 7)
  | .voterFault => true

/-- A request carries between 1 byte and 4,096 bytes (PRESUMED: the limit of PCI Express, log entry 11). -/
def PciReq.wf : PciReq → Bool
  | .read n => decide (1 ≤ n ∧ n ≤ 4096)
  | .write data => decide (1 ≤ data.length ∧ data.length ≤ 4096)
  | .translate => true
  | .intx => true

/-- Sessions have 12-bit numbers and paths 3-bit ones (12 R325). -/
def IntervalKind.wf : IntervalKind → Bool
  | .device _ _ => true
  | .quiet _ => true
  | .login session path => decide (session < 4096 ∧ path < 8)
  | .keepalive session path => decide (session < 4096 ∧ path < 8)
  | .pathWait session => decide (session < 4096)
  | .resume session => decide (session < 4096)

/-- A link carries no buffer or one of a capacity that exists, and it has 8 lanes (10 R256, R261). -/
def LinkEnv.wf (e : LinkEnv) : Bool := (decide (e.cap = 0) || e.sized) && decide (e.version < 16 ∧ e.width ≤ 8)

/-- The units a start names exist (00 R1, 18 R457, 19 R482, R489). -/
def StartEnv.wf (env : StartEnv) : Bool :=
  (env.badPlls.all fun i => decide (i < 49)) && (env.badDies.all fun d => decide (d < 4)) &&
  (env.badCores.all fun c => decide (c < 128)) && decide (env.links.length ≤ 16) && (env.links.all LinkEnv.wf) &&
  decide (env.ports.length ≤ 32) && decide (env.roots.length ≤ 16) && (env.badEngines.all fun e => decide (e < 8)) &&
  (env.badPipes.all fun e => decide (e < 8)) && decide (env.times.length ≤ 20)

/-- Can the surroundings send the command? Lines are numbered: line n holds the 128 bytes from address 128·n on (07 R180). -/
def Instr.wf (i : Instr) : Bool :=
  match i with
  | .voterRelease _ b => b.wf
  | .resyncFreeze _ recopied _ => recopied.all fun g => decide (g < 1232)
  | .trdCtlRecover _ failed => failed.all isCore
  | .combiningBufferDrain _ line => decide (line < 2 ^ 37)
  | .cacheFill _ line => decide (line < 2 ^ 37)
  | .intervalExpiry k => k.wf
  | .registerWrite _ addr size _ => decide (size ∈ [1, 2, 4, 8]) && decide (addr.toNat < 2 ^ 44)
  | .chipReset env => env.wf
  | .keystoneStepLimit _ env => env.wf
  | .memCe addr => decide (addr.toNat < 2 ^ 44)
  | .memUe addr => decide (addr.toNat < 2 ^ 44)
  | .data _ _ _ _ _ bytes => decide (bytes.length ≤ 8192)
  | .inboundRequest _ _ _ _ req _ => req.wf
  | .faultEvent src _ _ _ _ part => 
    (decide (src.toNat < 0x4E7) || decide (0x600 ≤ src.toNat ∧ src.toNat < 0x644)) && decide (part.toNat ≤ 32)
  | .cmdOff _ _ failed => failed.all isCore
  | .sensorRead readings => decide (readings.length = 36)
  | .add .. | .sub .. | .and .. | .or .. | .xor .. | .andn .. | .sll .. | .srl .. | .sra .. | .rol .. | .slt .. | .sltu ..
  | .min .. | .max .. | .minu .. | .maxu .. | .cmovZ .. | .cmovNz .. | .selZ .. | .selNz .. | .mul .. | .mulh .. | .mulhu ..
  | .div .. | .divu .. | .rem .. | .remu .. | .addi .. | .andi .. | .ori .. | .xori .. | .slti .. | .shI .. | .ldi .. | .ldiSh ..
  | .bfExt .. | .bfExts .. | .bfIns .. | .clz .. | .ctz .. | .popc .. | .permB .. | .crcStep32 .. | .crcStep32c ..
  | .crcStep64 .. | .parD .. | .parB .. | .brevD .. | .brevB .. | .ldB .. | .ldBs .. | .ldH .. | .ldHs .. | .ldW .. | .ldWs ..
  | .ldD .. | .ldFd .. | .ldFs .. | .ldxB .. | .ldxBs .. | .ldxH .. | .ldxHs .. | .ldxW .. | .ldxWs .. | .ldxD .. | .stB ..
  | .stH .. | .stW .. | .stD .. | .stFs .. | .stFd .. | .stxB .. | .stxH .. | .stxW .. | .stxD .. | .ldNtD .. | .stNtD ..
  | .casD .. | .casQ .. | .amoSwapD .. | .amoAddD .. | .amoAndD .. | .amoOrD .. | .barFull .. | .barSt .. | .fadd .. | .fsub ..
  | .fmul .. | .fdiv .. | .fsqrt .. | .fmin .. | .fmax .. | .fcmpEq .. | .fcmpLt .. | .fcmpLe .. | .fclass .. | .fcvtL ..
  | .fcvtLu .. | .fcvtFl .. | .fcvtFlu .. | .fcvtP .. | .fmvGf .. | .fmvFg .. | .fma .. | .fms .. | .fnma .. | .fnms ..
  | .macQ15 .. | .macQ31 .. | .macQ63 .. | .msuQ15 .. | .msuQ31 .. | .msuQ63 .. | .accClr .. | .accAdd .. | .extQ15 ..
  | .extQ31 .. | .extQ63 .. | .accRdl .. | .accRdm .. | .accRdh .. | .accWrl .. | .accWrm .. | .accWrh .. | .bZ .. | .bNz ..
  | .bLt .. | .bGe .. | .jmp .. | .jr .. | .lpSet .. | .mfcr .. | .mtcr .. | .sysCall .. | .sysBrk .. | .eret .. | .wait ..
  | .dzClr .. | .cmCl .. | .cmInv .. | .cmCli .. | .cmClR .. | .cmInvR .. | .cmCliR .. | .cmClSw .. | .cmInvSw .. | .cmCliSw ..
  | .cmIsync .. | .cmLkfill .. | .tlbInvVa .. | .tlbInvAsid .. | .tlbInvAll .. | .tlbInvPra .. | .tlbInvPart .. | .blkMv ..
  | .blkCmp .. | .blkCrc32 .. | .blkCrc32c .. | .blkCrc64 .. | .cmpx .. | .cphx .. | .exceptionEntry .. | .instructionRetry ..
  | .spareSubstitution .. | .trdCtlStart .. | .trdVsDataAccess .. | .flushNear .. | .flushShared .. | .trdIntPendWrite ..
  | .storePerformed .. | .deviceAccessAnswer .. | .deviceTimeout .. | .directoryRequest .. | .victimBufferAck ..
  | .d2dFlitFail .. | .tickBoundary .. | .hubTickPeriodWrite .. | .tickInEdge .. | .tickInLost .. | .hubOrderModeWrite ..
  | .pfWarnNAssert .. | .quiesceStoreLimit .. | .quiesceEnd .. | .contextsWritten .. | .persistentWritebackEnd ..
  | .writebackEnd .. | .selfRefreshAck .. | .pfWarnNQuiet .. | .pwrokFall .. | .resetNAssert .. | .alwaysOnPowerGood ..
  | .journalFlashWrite .. | .clearAttempts .. | .retryOpt .. | .flush .. | .memLaneDegrade .. | .memLinkFail .. | .cssDblWrite ..
  | .doorbellReread .. | .createRing .. | .destroyRing .. | .destroyEnd .. | .retargetRing .. | .resumeRing .. | .queryRing ..
  | .cssJrnlWrite .. | .entryAdmission .. | .opNop .. | .opRead .. | .opWrite .. | .opControl .. | .opCompress ..
  | .opDecompress .. | .opCipher .. | .operationIssue .. | .pathFailed .. | .pathWaitExpiry .. | .resumeTicksExpiry ..
  | .hubPmtWriteResume .. | .journalWriteback .. | .spnLaneDegrade .. | .spnPortFail .. | .portRetrain .. | .replayReq ..
  | .ackTimeoutReplay .. | .frameReceive .. | .fabricLogin .. | .arrive .. | .depart .. | .openSess .. | .modifySess ..
  | .closeSess .. | .sessionQuery .. | .loginAccept .. | .loginReject .. | .loginTimeout .. | .logout .. | .keepalive ..
  | .keepaliveTimeout .. | .answer .. | .messageInterrupt .. | .pciCfgAddrWrite .. | .pciCfgDataWrite .. | .configCompletion ..
  | .invRid .. | .pciLinkDown .. | .engineRequestPlacement .. | .sliceBoundary .. | .engineCompletion ..
  | .cipherRequestPlacement .. | .class0Resume .. | .encrypt .. | .decrypt .. | .macGen .. | .macVerify .. | .keyLoad ..
  | .keyGen .. | .keyExport .. | .keyClear .. | .random .. | .cipherCompletion .. | .authFailZeroing .. | .sealGen ..
  | .sealLoad .. | .keyImport .. | .clearKey .. | .keyQuery .. | .cphKrangeWrite .. | .rngDataRead .. | .retest ..
  | .rngHealthFail .. | .hubPartCfgWrite .. | .hubPartL3qWrite .. | .hubPartResWrite .. | .unackWrite ..
  | .quietIntervalExpiry .. | .refclkMonitorTrip .. | .crystalMonitorTrip .. | .crystalStartCount .. | .clkPllUnlock ..
  | .returnRef .. | .clkTrdFreqWrite .. | .avsWriteTimeout .. | .clkGateWrite .. | .gateClosure .. | .pwrDomainFail ..
  | .idleEntry .. | .idleExit .. | .todComparatorFire .. | .halt .. | .dbgResume .. | .step .. | .rdAbs .. | .wrAbs ..
  | .rdReg .. | .wrReg .. | .rdVmem .. | .wrVmem .. | .rdCs .. | .lock .. | .servicePortConnect .. | .i2cRead .. | .pwrRailUv ..
  | .refclkJudgedSound .. | .voltageWriteAcknowledge .. | .aerErrorReported .. | .servicePortConnectionClose ..
  | .debugRequestCrcError .. | .vddAonFall .. => true

end Sys2Proof
end

