-- ==== Sys2Proof/Safety.lean ====
section
/-! DEFINITION. What a safe run is: canonical memory, nothing raised and left over, and what every step keeps. -/

namespace Sys2Proof.Machine
open Sys2Proof

/-- Nothing is left over for the end of a command: the clocks run, no event waits for the collector, no block reset, frequency change
or held power failure is under way, no save is, and the engine groups commanded OFF are OFF. In such a state the settling at the end of
a command changes nothing. -/
def State.calm (s : State) : Bool :=
  s.clocked && s.raised.isEmpty && s.fcu.resetting.isEmpty && s.pwr.freq.isEmpty && !s.pwr.holdPf && decide (s.save.phase = .none)
    && ([44, 45, 46, 47].all fun d => !s.flag (aPwrDom d) 63 || decide (s.domState d = 3))
    && decide (s.domState 62 = if [44, 45, 46, 47].all (fun d => s.domState d = 3) then 3 else 0)

/-- Does LP n stand at a bundle boundary with nothing that keeps the next bundle from being issued and executed: it issues bundles, no
bundle is in assembly, no event is due, no flush waits, the bundle at PC can be fetched, and PC is not a delay bundle that ends a loop
(02 R46, R49, 04 R118, 05 R127, R131, 08 R222)? -/
structure Ready (s : State) (n : Tri) : Prop where
  calm : s.calm = true
  issues : s.issues n = true
  empty : (s.lp n).asm = []
  noEvent : s.nextEvent n = none
  awake : (s.lp n).waiting = false
  noNear : (s.lp n).flushNear = false
  noShared : (s.lp n).flushShared = false
  fetch : ∃ fa, s.fetchFault n = .ok fa
  loopDelay : ((s.lp n).arch.delay && isLoopEnd (s.lp n).arch) = false

/-- The bundle at PC is fetched from the level-1 instruction caches without any cache work: no translation is filled in and every core
holds the line of the bundle. -/
def State.warm (s : State) (n : Tri) : Prop :=
  ∃ fa, s.fetchFault n = .ok fa ∧ (∀ f ∈ fa.fills, f = {}) ∧ ∀ b, fa.addrs.head? = some b → (s.lp n).lacking true (b / 128) = 0

/-- v is s when the bundle at PC of LP n has been fetched: the order mode of HUB_ORDER_MODE is in force (09 R238), and the caches have
done their work. The accesses of the bundle are checked and made in this state. -/
def Fetched (s v : State) (n : Tri) : Prop :=
  ∃ fa, s.fetchFault n = .ok fa ∧
    v = ((s.updLp n fun l => { l with orderMode := (s.reg aHubOrderMode).toNat, retried := false }).fetchWork n { effs := [] } fa).1

/-- An access of LP n that the level-1 caches serve without any cache work: no translation is filled in, every core holds its lines, and
the combining buffer has none of them. -/
def Served (s : State) (n : Tri) (ac : Access) : Prop :=
  (∀ f ∈ ac.fills, f = {}) ∧ ∀ a ∈ ac.addrs, (s.lp n).lacking false (a / 128) = 0 ∧ ∀ c ∈ (s.lp n).comb, a / 128 ≠ c.line

/-- Every general, floating-point and accumulator register but those listed holds what it held. A write to g0 is discarded (02 R37),
so g0 counts as unchanged wherever it is listed. -/
structure SameRegs (a b : Arch) (ds : List Dst) : Prop where
  g : ∀ r, r < 64 → (r = 0 ∨ Dst.g r ∉ ds) → b.rawG r = a.rawG r
  f : ∀ i, Dst.f i ∉ ds → b.rawF i = a.rawF i
  acc : ∀ i, Dst.acc i ∉ ds → b.rdAcc i = a.rdAcc i

/-- Number of the control register that g63 is at a level (02 R37, R41). -/
def spNum (pl : Nat) : Nat := if pl = plU then 0x18 else if pl = plS then 0x19 else 0x1A

/-- Every control register but those listed reads as it did, where no loop level ends at PC the loop counts too (04 R107); and the
exception state is as it was. The stack pointer of the level is listed with g63. -/
structure SameSpecial (sl : Bool) (a b : Arch) (ds : List Dst) (ks : List Nat) : Prop where
  cr : ∀ k, k ∉ ks → (Dst.g 63 ∈ ds → k ≠ spNum a.pl) → (isLoopEnd a = true → k ≠ 0x0A ∧ k ≠ 0x0D ∧ k ≠ 0x10) → b.cr sl k = a.cr sl k
  nmt : b.nmtIs = a.nmtIs
  esc : b.escIs = a.escIs
  locked : b.escLocked = a.escLocked

/-- The frame of a bundle of LP n but for memory: beside the registers `ds` and the control registers `ks` of LP n, its address and its
caches, nothing has changed: no other LP, and no register of the control space but TRD_L2_STATUS_n (which records misses, 07 R191). -/
structure Local (s t : State) (n : Tri) (ds : List Dst) (ks : List Nat) : Prop where
  regs : SameRegs (s.lp n).arch (t.lp n).arch ds
  special : SameSpecial (s.lpSealed n) (s.lp n).arch (t.lp n).arch ds ks
  others : ∀ m, m ≠ n → t.lp m = s.lp m
  mmio : ∀ a, a ≠ aTrdL2Status n → t.reg a = s.reg a

/-- The frame of a bundle of LP n that touches registers alone: that of `Local`, and no byte of memory has changed where the fetch needs
no cache work and no branch has made a delay bundle of the next one (bundles fetched beyond it may fill caches, 04 R119). -/
structure Executed (s t : State) (n : Tri) (ds : List Dst) (ks : List Nat) : Prop extends Local s t n ds ks where
  memory : s.warm n → (t.lp n).arch.delay = false → ∀ a, t.byte a = s.byte a

/-- The next bundle is the successor of this one (04 R100, R107): where no loop level ends at PC, NEXT_PC, and it is no delay bundle. -/
def Sequential (a b : Arch) : Prop := isLoopEnd a = false → b.pc = a.npc ∧ b.npc = a.npc + 16 ∧ b.delay = false

/-- Doubleword i of a list of bytes (00 R4). -/
def dword (bs : List Byte) (i : Nat) : Nat := leNat ((bs.drop (8 * i)).take 8)

/-- Can LP n take vector v with the frame at `fa`, in the handler at `h` of level `t`: no escalation condition holds (05 R136), no older
store keeps its vector load waiting (09 R237), the four frame lines below the target level's stack pointer can be stored to main memory
(05 R129, R133), and the vector table gives an aligned handler (05 R122)? The level-1 caches serve its accesses. -/
structure CanEnter (s : State) (n : Tri) (v t : Nat) (fa h : Word) : Prop where
  level : t = if v < 32 then (if bit (s.lp n).arch.deleg v && decide ((s.lp n).arch.pl ≠ plM) then plS else plM)
    else if v < 48 then plM else if bit (s.lp n).arch.deleg (48 + v / 16) then plS else plM
  outside : v < 32 → (s.lp n).arch.escIs = false
  unmasked : v = 14 ∨ v = 15 → bit (s.lp n).arch.psw 8 = false
  notFirst : v < 32 → v ≠ 6 → v ≠ 7 → (s.lp n).arch.handlerFirst = false
  order : (s.reg aHubOrderMode).toNat.testBit (if t = plM then 0 else bits (s.lp n).arch.part 5 0) = true → (s.lp n).unperformed false = false
  room : 256 ≤ ((s.lp n).arch.sp t).toNat
  below : fa = BitVec.ofNat 64 ((((s.lp n).arch.sp t).toNat - 256) / 64 * 64)
  lines : ∀ i, i < 4 → ∃ ac, s.access n t { kind := .store, va := fa + BitVec.ofNat 64 (64 * i), size := 64 } = .ok ac ∧ ac.region = .mem ∧
    ∀ f ∈ ac.fills, f = {}
  table : ∃ ac, s.access n t { kind := .load, va := (if t = plS then (s.lp n).arch.vtbS else (s.lp n).arch.vtbM) + BitVec.ofNat 64 (8 * v), size := 8 }
      = .ok ac ∧ ac.region = .mem ∧ Served s n ac ∧ s.consumesPoison n [] ac.addrs = false ∧ h = BitVec.ofNat 64 (leNat (s.ownBytes n [] ac.addrs))
  handler : h ≠ 0 ∧ bits h 3 0 = 0

/-- CAUSE of a frame taken in architectural state a (05 R131): vector, slot, interrupt, delay, level and detail. -/
def causeWord (a : Arch) (v slot detail : Nat) : Nat :=
  v + slot * 2 ^ 8 + (if 32 ≤ v then 2 ^ 11 else 0) + (if a.delay then 2 ^ 12 else 0) + a.pl * 2 ^ 14 + detail * 2 ^ 16

/-- t is s after LP n has taken vector v, in architectural state a, with the frame at `fa` and the handler `h` of level `l` (05 R129 to
R134): PC, level, stack pointer, load shadows and progress word are the handler's; the other bits of PSW, but MCM and PRIO as R134 says, and
every other register are as they were; and the newest commit record of the LP stores the frame's four lines. -/
structure Entered (s t : State) (n : Tri) (a : Arch) (v slot detail : Nat) (faddr : Word) (l : Nat) (fa h : Word) : Prop where
  pc : (t.lp n).arch.pc = h ∧ (t.lp n).arch.npc = h + 16 ∧ (t.lp n).arch.delay = false
  psw : ∀ i, i < 64 → bit (t.lp n).arch.psw i =
    if i < 2 then l.testBit i else if i = 8 ∧ (v = 32 ∨ v = 33) then true else if 24 ≤ i ∧ i < 28 ∧ 48 ≤ v then (v / 16).testBit (i - 24)
    else bit a.psw i
  sp : (t.lp n).arch.sp l = fa
  otherSp : ∀ k, k = plU ∨ k = plS ∨ k = plM → spNum k ≠ spNum l → (t.lp n).arch.sp k = a.sp k
  fresh : (t.lp n).arch.shadows = [] ∧ (t.lp n).arch.progress = 0
  files : (t.lp n).arch.g = a.g ∧ (t.lp n).arch.f = a.f ∧ (t.lp n).arch.acc = a.acc ∧ (t.lp n).arch.lct = a.lct ∧ (t.lp n).arch.escIs = a.escIs
  frame : ∃ r : Record, (t.lp n).records.getLast? = some r ∧ r.stores.length = 4 ∧
    (∀ i, i < 4 → ∃ ac st, s.access n l { kind := .store, va := fa + BitVec.ofNat 64 (64 * i), size := 64 } = .ok ac ∧ r.stores[i]? = some st ∧
      st.kind = .cache ∧ st.bytes.map (·.1) = ac.addrs) ∧
    (let ws := dword ((r.stores.flatMap (·.bytes)).map (·.2))
     ws 0 = (a.pswEff (s.lpSealed n)).toNat ∧ ws 1 = a.pc.toNat ∧ ws 2 = a.npc.toNat ∧ ws 3 = causeWord a v slot detail ∧ ws 4 = faddr.toNat ∧
     ws 5 = a.progress.toNat ∧ ws 6 = (a.sp l).toNat ∧
     ∀ k, k < 3 → ws (8 + 3 * k) = (v3 a.lsa k).toNat ∧ ws (9 + 3 * k) = (v3 a.lea k).toNat ∧ ws (10 + 3 * k) = (v3 a.lct k).toNat)

/-- No step of the run of a queue ends in a fault or a refusal, and the invariant holds at its end. -/
def SafeAfter (inv : State → Prop) (k : Nat) (s : State) : Prop :=
  match Host.Core.run Sys2Proof.core k s with
  | .next t => inv t
  | .fault _ => False
  | .refused _ => False

end Sys2Proof.Machine
end

