-- ==== Sys2Proof/Certificates/Slice0/Obligations.lean ====
section
/-! DEFINITION. The statements about the model, each a proposition `Obligations.<Name>`, and the tables of results they name, written
from the rules of the spec. -/

namespace Sys2Proof.Claims
open Sys2Proof Sys2Proof.Machine

/-! ### Results of the instructions -/

/-- g r as an instruction of LP n reads it (02 R46, R51). -/
def g (s : State) (at_ : Issue) (r : Reg) : Word := (s.lp at_.lp).arch.rdG r.toNat
/-- f r as an instruction reads it. -/
def f (s : State) (at_ : Issue) (r : Reg) : Word := (s.lp at_.lp).arch.rdF r.toNat
/-- An accumulator as an instruction reads it. -/
def acc (s : State) (at_ : Issue) (r : Reg) : BitVec 160 := (s.lp at_.lp).arch.rdAcc r.toNat
/-- Truth as a register holds it. -/
def truth (b : Bool) : Word := if b then 1 else 0

/-- Logic, sums, shifts, comparisons, products and selects, with their immediate forms (02 R56, R57, 03 R76, 04 R103): the destination
and its value. -/
def alu (s : State) : Instr → Option (Issue × Reg × Word)
  | .add a rd ra rb => some (a, rd, g s a ra + g s a rb)
  | .sub a rd ra rb => some (a, rd, g s a ra - g s a rb)
  | .and a rd ra rb => some (a, rd, g s a ra &&& g s a rb)
  | .or a rd ra rb => some (a, rd, g s a ra ||| g s a rb)
  | .xor a rd ra rb => some (a, rd, g s a ra ^^^ g s a rb)
  | .andn a rd ra rb => some (a, rd, g s a ra &&& ~~~(g s a rb))
  | .sll a rd ra rb => some (a, rd, g s a ra <<< ((g s a rb).toNat % 64))
  | .srl a rd ra rb => some (a, rd, g s a ra >>> ((g s a rb).toNat % 64))
  | .sra a rd ra rb => some (a, rd, (g s a ra).sshiftRight ((g s a rb).toNat % 64))
  | .rol a rd ra rb => some (a, rd, (g s a ra).rotateLeft ((g s a rb).toNat % 64))
  | .slt a rd ra rb => some (a, rd, truth ((g s a ra).slt (g s a rb)))
  | .sltu a rd ra rb => some (a, rd, truth ((g s a ra).ult (g s a rb)))
  | .min a rd ra rb => some (a, rd, if (g s a ra).slt (g s a rb) then g s a ra else g s a rb)
  | .max a rd ra rb => some (a, rd, if (g s a ra).slt (g s a rb) then g s a rb else g s a ra)
  | .minu a rd ra rb => some (a, rd, if (g s a ra).ult (g s a rb) then g s a ra else g s a rb)
  | .maxu a rd ra rb => some (a, rd, if (g s a ra).ult (g s a rb) then g s a rb else g s a ra)
  | .mul a rd ra rb => some (a, rd, g s a ra * g s a rb)
  | .mulh a rd ra rb => some (a, rd, BitVec.ofInt 64 ((g s a ra).toInt * (g s a rb).toInt / 2 ^ 64))
  | .mulhu a rd ra rb => some (a, rd, BitVec.ofNat 64 ((g s a ra).toNat * (g s a rb).toNat / 2 ^ 64))
  | .selZ a rd ra rb => some (a, rd, if g s a rb = 0 then g s a ra else 0)
  | .selNz a rd ra rb => some (a, rd, if g s a rb = 0 then 0 else g s a ra)
  | .addi a rd ra imm => some (a, rd, g s a ra + imm.signExtend 64)
  | .andi a rd ra imm => some (a, rd, g s a ra &&& imm.zeroExtend 64)
  | .ori a rd ra imm => some (a, rd, g s a ra ||| imm.zeroExtend 64)
  | .xori a rd ra imm => some (a, rd, g s a ra ^^^ imm.zeroExtend 64)
  | .slti a rd ra imm => some (a, rd, truth ((g s a ra).slt (imm.signExtend 64)))
  | .shI a rd ra imm =>
    let k := imm.toNat % 64
    if imm.toNat / 64 = 0 then some (a, rd, g s a ra <<< k)
    else if imm.toNat / 64 = 1 then some (a, rd, g s a ra >>> k)
    else if imm.toNat / 64 = 2 then some (a, rd, (g s a ra).sshiftRight k)
    else none
  | .ldi a rd imm => some (a, rd, imm.signExtend 64)
  | .ldiSh a rd imm => some (a, rd, g s a rd <<< 20 ||| imm.zeroExtend 64)
  | _ => none

/-- The conditional moves (04 R103, R104): the destination, whether the condition on rb holds, and the value moved. -/
def cmov (s : State) : Instr → Option (Issue × Reg × Bool × Word)
  | .cmovZ a rd ra rb => some (a, rd, decide (g s a rb = 0), g s a ra)
  | .cmovNz a rd ra rb => some (a, rd, decide (g s a rb ≠ 0), g s a ra)
  | _ => none

/-- The quotient or remainder of 03 R77. -/
def quotRem (signed rem : Bool) (a b : Word) : Word :=
  if b = 0 then (if rem then a else 0xFFFFFFFFFFFFFFFF)
  else match signed, rem with
    | true, false => BitVec.ofInt 64 (a.toInt.tdiv b.toInt)
    | true, true => BitVec.ofInt 64 (a.toInt - b.toInt * a.toInt.tdiv b.toInt)
    | false, false => BitVec.ofNat 64 (a.toNat / b.toNat)
    | false, true => BitVec.ofNat 64 (a.toNat % b.toNat)

/-- The integer divides: destination, divisor and result (03 R77). -/
def divide (s : State) : Instr → Option (Issue × Reg × Word × Word)
  | .div a rd ra rb => some (a, rd, g s a rb, quotRem true false (g s a ra) (g s a rb))
  | .rem a rd ra rb => some (a, rd, g s a rb, quotRem true true (g s a ra) (g s a rb))
  | .divu a rd ra rb => some (a, rd, g s a rb, quotRem false false (g s a ra) (g s a rb))
  | .remu a rd ra rb => some (a, rd, g s a rb, quotRem false true (g s a ra) (g s a rb))
  | _ => none

/-- Bit i of the result of a field, count, permutation or parity instruction (02 R60, R61, R63). `len` of format F is len1 + 1, cut at
bit 63. -/
def fieldBit (s : State) : Instr → Option (Issue × Reg × (Nat → Bool))
  | .bfExt a rd ra pos len1 => some (a, rd, fun i => decide (i ≤ len1.toNat ∧ pos.toNat + i < 64) && (g s a ra).getLsbD (pos.toNat + i))
  | .bfExts a rd ra pos len1 => some (a, rd, fun i => (g s a ra).getLsbD (pos.toNat + min (min i len1.toNat) (63 - pos.toNat)))
  | .bfIns a rd ra pos len1 => some (a, rd, fun i =>
      if pos.toNat ≤ i ∧ i ≤ pos.toNat + len1.toNat then (g s a ra).getLsbD (i - pos.toNat) else (g s a rd).getLsbD i)
  | .permB a rd ra rb => some (a, rd, fun i =>
      let k := ((g s a rb).toNat >>> (4 * (i / 8))) % 16
      decide (k < 8) && (g s a ra).getLsbD (8 * k + i % 8))
  | .brevD a rd ra => some (a, rd, fun i => (g s a ra).getLsbD (63 - i))
  | .brevB a rd ra => some (a, rd, fun i => (g s a ra).getLsbD (8 * (i / 8) + (7 - i % 8)))
  | .parD a rd ra => some (a, rd, fun i => decide (i = 0) && (List.range 64).foldl (fun b k => b ^^ (g s a ra).getLsbD k) false)
  | .parB a rd ra => some (a, rd, fun i =>
      decide (i < 8) && (List.range 8).foldl (fun b k => b ^^ (g s a ra).getLsbD (8 * i + k)) false)
  | _ => none

/-- The number of one bits among the low k of a word. -/
def ones (w : Word) (k : Nat) : Nat := ((List.range k).filter fun i => w.getLsbD i).length

/-- Is n the count a count instruction gives (02 R61)? -/
def countIs (s : State) (n : Nat) : Instr → Option (Issue × Reg × Prop)
  | .clz a rd ra => some (a, rd, n ≤ 64 ∧ (∀ i, 64 - n ≤ i → i < 64 → (g s a ra).getLsbD i = false) ∧ (n < 64 → (g s a ra).getLsbD (63 - n) = true))
  | .ctz a rd ra => some (a, rd, n ≤ 64 ∧ (∀ i, i < n → (g s a ra).getLsbD i = false) ∧ (n < 64 → (g s a ra).getLsbD n = true))
  | .popc a rd ra => some (a, rd, n = ones (g s a ra) 64)
  | _ => none

/-- One bit of data into a reflected checksum: the register is shifted down, and the polynomial is added if the bit that leaves it
differs from the data bit (02 R62). -/
def crcShift (poly : Nat) (c : Nat) (b : Bool) : Nat := if c.testBit 0 ^^ b then (c >>> 1) ^^^ poly else c >>> 1

/-- The checksum of 64 data bits, least significant first, over a register of width w (02 R62). -/
def crc64 (poly w : Nat) (a b : Word) : Word :=
  BitVec.ofNat 64 ((List.range 64).foldl (fun c i => crcShift poly c (b.getLsbD i)) (a.toNat % 2 ^ w))

/-- The checksum steps (02 R62). -/
def checksum (s : State) : Instr → Option (Issue × Reg × Word)
  | .crcStep32 a rd ra rb => some (a, rd, crc64 0xEDB88320 32 (g s a ra) (g s a rb))
  | .crcStep32c a rd ra rb => some (a, rd, crc64 0x82F63B78 32 (g s a ra) (g s a rb))
  | .crcStep64 a rd ra rb => some (a, rd, crc64 0xC96C5795D7870F42 64 (g s a ra) (g s a rb))
  | _ => none

end Sys2Proof.Claims

open Sys2Proof Sys2Proof.Machine Sys2Proof.Claims

/-! ### Integer instructions -/

/-- 02 R57, 03 R76, 04 R103: every logic, sum, shift, comparison, product and select instruction, in every slot, writes its result to rd
and changes nothing else; for rd = g0 it changes nothing at all. -/
def Obligations.IntegerResults : Prop :=
  ∀ (s : State) (i : Instr) (at_ : Issue) (rd : Reg) (v : Word), alu s i = some (at_, rd, v) → Ready s at_.lp → at_.last = true →
    ∃ t, exec i s = .next t ∧ Executed s t at_.lp [.g rd.toNat] [] ∧ Sequential (s.lp at_.lp).arch (t.lp at_.lp).arch ∧
      (rd ≠ 0 → (t.lp at_.lp).arch.rdG rd.toNat = v)

/-- 04 R103, R104: `cmov.z` and `cmov.nz` write rd when their condition on rb holds; otherwise they write nothing. -/
def Obligations.ConditionalMoves : Prop :=
  ∀ (s : State) (i : Instr) (at_ : Issue) (rd : Reg) (c : Bool) (v : Word), cmov s i = some (at_, rd, c, v) → Ready s at_.lp → at_.last = true →
    ∃ t, exec i s = .next t ∧ Executed s t at_.lp (if c then [.g rd.toNat] else []) [] ∧
      Sequential (s.lp at_.lp).arch (t.lp at_.lp).arch ∧ (c = true → rd ≠ 0 → (t.lp at_.lp).arch.rdG rd.toNat = v)

/-- 03 R77, R78: an integer divide whose divisor is nonzero, or that meets PSW.DZT = 0, writes the result of R77; a zero divisor sets
PSW.DZ, and nothing else of the flags changes. -/
def Obligations.DivideResults : Prop :=
  ∀ (s : State) (i : Instr) (at_ : Issue) (rd : Reg) (b v : Word), divide s i = some (at_, rd, b, v) → Ready s at_.lp → at_.last = true →
    (b ≠ 0 ∨ bit (s.lp at_.lp).arch.psw 17 = false) →
    ∃ t, exec i s = .next t ∧ Executed s t at_.lp [.g rd.toNat] [0] ∧ Sequential (s.lp at_.lp).arch (t.lp at_.lp).arch ∧
      (rd ≠ 0 → (t.lp at_.lp).arch.rdG rd.toNat = v) ∧
      (t.lp at_.lp).arch.psw = if b = 0 then putBits (s.lp at_.lp).arch.psw 16 16 1 else (s.lp at_.lp).arch.psw

/-- 02 R60, R61, R63: the field, permutation, reversal and parity instructions, bit by bit. -/
def Obligations.FieldResults : Prop :=
  ∀ (s : State) (i : Instr) (at_ : Issue) (rd : Reg) (bitOf : Nat → Bool), fieldBit s i = some (at_, rd, bitOf) → Ready s at_.lp →
    at_.last = true →
    ∃ t, exec i s = .next t ∧ Executed s t at_.lp [.g rd.toNat] [] ∧ Sequential (s.lp at_.lp).arch (t.lp at_.lp).arch ∧
      (rd ≠ 0 → ∀ k, k < 64 → ((t.lp at_.lp).arch.rdG rd.toNat).getLsbD k = bitOf k)

/-- 02 R61: `clz`, `ctz` and `popc` give the count of leading zeros, trailing zeros and ones; 64 for the zeros of 0. -/
def Obligations.CountResults : Prop :=
  ∀ (s : State) (i : Instr) (at_ : Issue) (rd : Reg), (∃ P, countIs s 0 i = some (at_, rd, P)) → Ready s at_.lp → at_.last = true →
    ∃ t n P, exec i s = .next t ∧ Executed s t at_.lp [.g rd.toNat] [] ∧ Sequential (s.lp at_.lp).arch (t.lp at_.lp).arch ∧
      countIs s n i = some (at_, rd, P) ∧ P ∧ (rd ≠ 0 → ((t.lp at_.lp).arch.rdG rd.toNat).toNat = n)

/-- 02 R62: `crc.step.32`, `crc.step.32c` and `crc.step.64` give the reflected checksum of the 64 bits of rb, least significant first,
continued from ra. -/
def Obligations.ChecksumSteps : Prop :=
  ∀ (s : State) (i : Instr) (at_ : Issue) (rd : Reg) (v : Word), checksum s i = some (at_, rd, v) → Ready s at_.lp → at_.last = true →
    ∃ t, exec i s = .next t ∧ Executed s t at_.lp [.g rd.toNat] [] ∧ Sequential (s.lp at_.lp).arch (t.lp at_.lp).arch ∧
      (rd ≠ 0 → (t.lp at_.lp).arch.rdG rd.toNat = v)

namespace Sys2Proof.Claims

/-! ### Floating point and fractions -/

/-- FCSR.RM (03 R95). -/
def rmode (s : State) (at_ : Issue) : Nat := (s.lp at_.lp).arch.fcsr.toNat / 2 ^ 8 % 8
/-- Field of format F4. -/
def r5 (r : BitVec 5) : Reg := r.zeroExtend 6
/-- A register as the next instruction reads it. -/
def readDst (a : Arch) : Dst → Word
  | .g i => a.rdG i
  | .f i => a.rdF i
  | .acc _ => 0

/-- The floating-point instructions: destination, the fields that name f registers, the result and the flags it raises (03 R90 to R94). -/
def floatOp (s : State) : Instr → Option (Issue × Dst × List Reg × Word × FFlags)
  | .fadd a d fd fa fb => some (a, .f fd.toNat, [fd, fa, fb], fAdd d (rmode s a) false (f s a fa) (f s a fb))
  | .fsub a d fd fa fb => some (a, .f fd.toNat, [fd, fa, fb], fAdd d (rmode s a) true (f s a fa) (f s a fb))
  | .fmul a d fd fa fb => some (a, .f fd.toNat, [fd, fa, fb], fMul d (rmode s a) (f s a fa) (f s a fb))
  | .fdiv a d fd fa fb => some (a, .f fd.toNat, [fd, fa, fb], fDiv d (rmode s a) (f s a fa) (f s a fb))
  | .fsqrt a d fd fa => some (a, .f fd.toNat, [fd, fa], fSqrt d (rmode s a) (f s a fa))
  | .fmin a d fd fa fb => some (a, .f fd.toNat, [fd, fa, fb], fMinMax d false (f s a fa) (f s a fb))
  | .fmax a d fd fa fb => some (a, .f fd.toNat, [fd, fa, fb], fMinMax d true (f s a fa) (f s a fb))
  | .fcmpEq a d rd fa fb => some (a, .g rd.toNat, [fa, fb], fCmp d .eq (f s a fa) (f s a fb))
  | .fcmpLt a d rd fa fb => some (a, .g rd.toNat, [fa, fb], fCmp d .lt (f s a fa) (f s a fb))
  | .fcmpLe a d rd fa fb => some (a, .g rd.toNat, [fa, fb], fCmp d .le (f s a fa) (f s a fb))
  | .fclass a d rd fa => some (a, .g rd.toNat, [fa], fClass d (f s a fa), 0)
  | .fcvtL a d rd fa => some (a, .g rd.toNat, [fa], fToInt d (rmode s a) true (f s a fa))
  | .fcvtLu a d rd fa => some (a, .g rd.toNat, [fa], fToInt d (rmode s a) false (f s a fa))
  | .fcvtFl a d fd ra => some (a, .f fd.toNat, [fd], fFromInt d (rmode s a) true (g s a ra))
  | .fcvtFlu a d fd ra => some (a, .f fd.toNat, [fd], fFromInt d (rmode s a) false (g s a ra))
  | .fcvtP a d fd fa => some (a, .f fd.toNat, [fd, fa], fCvtP d (rmode s a) (f s a fa))
  | .fmvGf a d fd ra => some (a, .f fd.toNat, [fd], if d then g s a ra else ((g s a ra).truncate 32).zeroExtend 64, 0)
  | .fmvFg a d rd fa => some (a, .g rd.toNat, [fa], if d then f s a fa else ((f s a fa).truncate 32).zeroExtend 64, 0)
  | .fma a d fd fa fb fc => some (a, .f fd.toNat, [], fFma d (rmode s a) false false (f s a (r5 fa)) (f s a (r5 fb)) (f s a (r5 fc)))
  | .fms a d fd fa fb fc => some (a, .f fd.toNat, [], fFma d (rmode s a) false true (f s a (r5 fa)) (f s a (r5 fb)) (f s a (r5 fc)))
  | .fnma a d fd fa fb fc => some (a, .f fd.toNat, [], fFma d (rmode s a) true true (f s a (r5 fa)) (f s a (r5 fb)) (f s a (r5 fc)))
  | .fnms a d fd fa fb fc => some (a, .f fd.toNat, [], fFma d (rmode s a) true false (f s a (r5 fa)) (f s a (r5 fb)) (f s a (r5 fc)))
  | _ => none

/-- The value of a finite binary64 (d) or binary32 number; none for an infinity or a NaN (03 R90). -/
def real? (d : Bool) (w : Word) : Option ℚ :=
  let n := if d then w.toNat else w.toNat % 2 ^ 32
  let p := if d then 52 else 23
  let q := if d then 11 else 8
  let ex := n / 2 ^ p % 2 ^ q
  if ex = 2 ^ q - 1 then none
  else some ((if n.testBit (p + q) then -1 else 1) * ((n % 2 ^ p + (if ex = 0 then 0 else 2 ^ p) : Nat) : ℚ)
    * (2 : ℚ) ^ ((max ex 1 : Nat) - (if d then 1075 else 150) : Int))

/-- The result y of value `x` is x rounded once to the format under mode rm (03 R91, R95): 0 to nearest, ties to even, 1 towards zero, 2 down,
3 up, 4 to nearest, ties away from zero. `even` says that the last bit of the result is 0. -/
structure Rounded (d : Bool) (rm : Nat) (x y : ℚ) (even : Bool) : Prop where
  down : rm = 2 ∨ (rm = 1 ∧ 0 ≤ x) → y ≤ x ∧ ∀ w z, real? d w = some z → z ≤ x → z ≤ y
  up : rm = 3 ∨ (rm = 1 ∧ x ≤ 0) → x ≤ y ∧ ∀ w z, real? d w = some z → x ≤ z → y ≤ z
  near : rm = 0 ∨ rm = 4 → ∀ w z, real? d w = some z →
    |x - y| ≤ |x - z| ∧ (|x - y| = |x - z| → z ≠ y → if rm = 4 then |z| ≤ |y| else even = true)

/-- The instructions whose exact result is a rational: destination, f register fields and that result, where the operands are finite (03
R93). -/
def exactOp (s : State) : Instr → Option (Issue × Bool × Nat × List Reg × ℚ)
  | .fadd a d fd fa fb => do return (a, d, fd.toNat, [fd, fa, fb], (← real? d (f s a fa)) + (← real? d (f s a fb)))
  | .fsub a d fd fa fb => do return (a, d, fd.toNat, [fd, fa, fb], (← real? d (f s a fa)) - (← real? d (f s a fb)))
  | .fmul a d fd fa fb => do return (a, d, fd.toNat, [fd, fa, fb], (← real? d (f s a fa)) * (← real? d (f s a fb)))
  | .fdiv a d fd fa fb => do
    let x ← real? d (f s a fa)
    let y ← real? d (f s a fb)
    if y = 0 then none else return (a, d, fd.toNat, [fd, fa, fb], x / y)
  | .fcvtFl a d fd ra => some (a, d, fd.toNat, [fd], ((g s a ra).toInt : ℚ))
  | .fcvtFlu a d fd ra => some (a, d, fd.toNat, [fd], ((g s a ra).toNat : ℚ))
  | .fcvtP a d fd fa => do return (a, d, fd.toNat, [fd, fa], ← real? (!d) (f s a fa))
  | .fma a d fd fa fb fc => do
    return (a, d, fd.toNat, [], (← real? d (f s a (r5 fa))) * (← real? d (f s a (r5 fb))) + (← real? d (f s a (r5 fc))))
  | .fms a d fd fa fb fc => do
    return (a, d, fd.toNat, [], (← real? d (f s a (r5 fa))) * (← real? d (f s a (r5 fb))) - (← real? d (f s a (r5 fc))))
  | .fnma a d fd fa fb fc => do
    return (a, d, fd.toNat, [], -((← real? d (f s a (r5 fa))) * (← real? d (f s a (r5 fb)))) - (← real? d (f s a (r5 fc))))
  | .fnms a d fd fa fb fc => do
    return (a, d, fd.toNat, [], -((← real? d (f s a (r5 fa))) * (← real? d (f s a (r5 fb)))) + (← real? d (f s a (r5 fc))))
  | _ => none

/-- The instructions that add to an accumulator: its number and the true result (03 R83, R84). -/
def accSum (s : State) : Instr → Option (Issue × Reg × Int)
  | .macQ15 a k ra rb => some (a, k, (acc s a k).toInt + ((g s a ra).truncate 16).toInt * ((g s a rb).truncate 16).toInt * 2 ^ 96)
  | .macQ31 a k ra rb => some (a, k, (acc s a k).toInt + ((g s a ra).truncate 32).toInt * ((g s a rb).truncate 32).toInt * 2 ^ 64)
  | .macQ63 a k ra rb => some (a, k, (acc s a k).toInt + (g s a ra).toInt * (g s a rb).toInt)
  | .msuQ15 a k ra rb => some (a, k, (acc s a k).toInt - ((g s a ra).truncate 16).toInt * ((g s a rb).truncate 16).toInt * 2 ^ 96)
  | .msuQ31 a k ra rb => some (a, k, (acc s a k).toInt - ((g s a ra).truncate 32).toInt * ((g s a rb).truncate 32).toInt * 2 ^ 64)
  | .msuQ63 a k ra rb => some (a, k, (acc s a k).toInt - (g s a ra).toInt * (g s a rb).toInt)
  | .accAdd a k ra rb => some (a, k, (acc s a k).toInt + ((g s a rb).toInt * 2 ^ 64 + (g s a ra).toNat))
  | _ => none

/-- The instructions that replace a part of an accumulator, bit by bit (03 R85). -/
def accPut (s : State) : Instr → Option (Issue × Reg × (Nat → Bool))
  | .accClr a k => some (a, k, fun _ => false)
  | .accWrl a k ra => some (a, k, fun i => if i < 64 then (g s a ra).getLsbD i else (acc s a k).getLsbD i)
  | .accWrm a k ra => some (a, k, fun i => if 64 ≤ i ∧ i < 128 then (g s a ra).getLsbD (i - 64) else (acc s a k).getLsbD i)
  | .accWrh a k ra => some (a, k, fun i => if 128 ≤ i then (g s a ra).getLsbD (i - 128) else (acc s a k).getLsbD i)
  | _ => none

/-- The instructions that read a part of an accumulator, bit by bit (03 R85). -/
def accGet (s : State) : Instr → Option (Issue × Reg × Reg × (Nat → Bool))
  | .accRdl a rd k => some (a, rd, k, fun i => (acc s a k).getLsbD i)
  | .accRdm a rd k => some (a, rd, k, fun i => (acc s a k).getLsbD (64 + i))
  | .accRdh a rd k => some (a, rd, k, fun i => (acc s a k).getLsbD (128 + min i 31))
  | _ => none

/-- The extractions: destination, accumulator and k of Qk (03 R87). -/
def extract : Instr → Option (Issue × Reg × Reg × Nat)
  | .extQ15 a rd k => some (a, rd, k, 15)
  | .extQ31 a rd k => some (a, rd, k, 31)
  | .extQ63 a rd k => some (a, rd, k, 63)
  | _ => none

/-- x is v / 2^sh rounded under FXCSR.RM (03 R87): 0 down, 1 to nearest, ties up, 2 to nearest, ties to even, 3 towards zero. -/
structure ExtRounded (rm : Nat) (v : Int) (sh : Nat) (x : Int) : Prop where
  down : rm = 0 ∨ (rm = 3 ∧ 0 ≤ v) → x * 2 ^ sh ≤ v ∧ v < (x + 1) * 2 ^ sh
  up : rm = 3 ∧ v < 0 → (x - 1) * 2 ^ sh < v ∧ v ≤ x * 2 ^ sh
  near : rm = 1 → (2 * x - 1) * 2 ^ sh ≤ 2 * v ∧ 2 * v < (2 * x + 1) * 2 ^ sh
  even : rm = 2 → (2 * x - 1) * 2 ^ sh ≤ 2 * v ∧ 2 * v ≤ (2 * x + 1) * 2 ^ sh ∧
    (2 * v = (2 * x - 1) * 2 ^ sh ∨ 2 * v = (2 * x + 1) * 2 ^ sh → x % 2 = 0)

end Sys2Proof.Claims

/-! ### Floating point and fractions -/

/-- 03 R90 to R95: every floating-point instruction in slot 3 with its f register fields below 32 writes its result and adds its flags to
FCSR; nothing else changes. -/
def Obligations.FloatResults : Prop :=
  ∀ (s : State) (i : Instr) (at_ : Issue) (dst : Dst) (fields : List Reg) (v : Word) (fl : FFlags), floatOp s i = some (at_, dst, fields, v, fl) →
    Ready s at_.lp → at_.last = true → at_.slot = 3 → (∀ r ∈ fields, r.toNat < 32) →
    ∃ t, exec i s = .next t ∧ Executed s t at_.lp [dst] [1] ∧ Sequential (s.lp at_.lp).arch (t.lp at_.lp).arch ∧
      (dst ≠ .g 0 → readDst (t.lp at_.lp).arch dst = v) ∧
      (t.lp at_.lp).arch.fcsr = (s.lp at_.lp).arch.fcsr ||| fl.zeroExtend 64

/-- 03 R91, R93, R95: a sum, product, quotient, conversion or fused operation of finite operands is its exact result rounded once under
FCSR.RM, and NX tells whether that changed it; a result that overflows sets OF and NX. -/
def Obligations.FloatRounding : Prop :=
  ∀ (s : State) (i : Instr) (at_ : Issue) (d : Bool) (fd : Nat) (fields : List Reg) (x : ℚ), exactOp s i = some (at_, d, fd, fields, x) →
    Ready s at_.lp → at_.last = true → at_.slot = 3 → (∀ r ∈ fields, r.toNat < 32) → rmode s at_ ≤ 4 →
    ∃ t, exec i s = .next t ∧ Executed s t at_.lp [.f fd] [1] ∧
      match real? d ((t.lp at_.lp).arch.rdF fd) with
      | some y => Rounded d (rmode s at_) x y (!((t.lp at_.lp).arch.rdF fd).getLsbD 0) ∧
          (bit (t.lp at_.lp).arch.fcsr 0 = true ↔ bit (s.lp at_.lp).arch.fcsr 0 = true ∨ y ≠ x)
      | none => bit (t.lp at_.lp).arch.fcsr 2 = true ∧ bit (t.lp at_.lp).arch.fcsr 0 = true

/-- 03 R83, R84, R86: `mac`, `msu` and `acc.add` in slot 3 leave the true result modulo 2^160 in the accumulator, and set FXCSR.AOV if it lies
outside the 160-bit range. -/
def Obligations.AccumulatorSums : Prop :=
  ∀ (s : State) (i : Instr) (at_ : Issue) (k : Reg) (v : Int), accSum s i = some (at_, k, v) → Ready s at_.lp → at_.last = true →
    at_.slot = 3 → k.toNat < 4 →
    ∃ t, exec i s = .next t ∧ Executed s t at_.lp [.acc k.toNat] [2] ∧ Sequential (s.lp at_.lp).arch (t.lp at_.lp).arch ∧
      (t.lp at_.lp).arch.rdAcc k.toNat = BitVec.ofInt 160 v ∧
      (t.lp at_.lp).arch.fxcsr = if -(2 ^ 159) ≤ v ∧ v < 2 ^ 159 then (s.lp at_.lp).arch.fxcsr else putBits (s.lp at_.lp).arch.fxcsr 9 9 1

/-- 03 R85: `acc.clr` and the writes of a part of an accumulator. -/
def Obligations.AccumulatorWrites : Prop :=
  ∀ (s : State) (i : Instr) (at_ : Issue) (k : Reg) (bitOf : Nat → Bool), accPut s i = some (at_, k, bitOf) → Ready s at_.lp →
    at_.last = true → at_.slot = 3 → k.toNat < 4 →
    ∃ t, exec i s = .next t ∧ Executed s t at_.lp [.acc k.toNat] [] ∧ Sequential (s.lp at_.lp).arch (t.lp at_.lp).arch ∧
      ∀ j, j < 160 → ((t.lp at_.lp).arch.rdAcc k.toNat).getLsbD j = bitOf j

/-- 03 R85: the reads of a part of an accumulator; `acc.rdh` extends the sign. -/
def Obligations.AccumulatorReads : Prop :=
  ∀ (s : State) (i : Instr) (at_ : Issue) (rd k : Reg) (bitOf : Nat → Bool), accGet s i = some (at_, rd, k, bitOf) → Ready s at_.lp →
    at_.last = true → at_.slot = 3 → k.toNat < 4 →
    ∃ t, exec i s = .next t ∧ Executed s t at_.lp [.g rd.toNat] [] ∧ Sequential (s.lp at_.lp).arch (t.lp at_.lp).arch ∧
      (rd ≠ 0 → ∀ j, j < 64 → ((t.lp at_.lp).arch.rdG rd.toNat).getLsbD j = bitOf j)

/-- 03 R87: `ext.qK` rounds the accumulator to a multiple of 2^(126 - K) under FXCSR.RM, clamps it to the range of Qk and sets FXCSR.SAT if
that changed it. -/
def Obligations.Extractions : Prop :=
  ∀ (s : State) (i : Instr) (at_ : Issue) (rd k : Reg) (q : Nat), extract i = some (at_, rd, k, q) → Ready s at_.lp → at_.last = true →
    at_.slot = 3 → k.toNat < 4 →
    ∃ t x, exec i s = .next t ∧ Executed s t at_.lp [.g rd.toNat] [2] ∧ Sequential (s.lp at_.lp).arch (t.lp at_.lp).arch ∧
      ExtRounded ((s.lp at_.lp).arch.fxcsr.toNat % 4) (acc s at_ k).toInt (126 - q) x ∧
      (rd ≠ 0 → ((t.lp at_.lp).arch.rdG rd.toNat).toInt = max (-(2 ^ q)) (min x (2 ^ q - 1))) ∧
      (t.lp at_.lp).arch.fxcsr = if -(2 ^ q) ≤ x ∧ x < 2 ^ q then (s.lp at_.lp).arch.fxcsr else putBits (s.lp at_.lp).arch.fxcsr 8 8 1

namespace Sys2Proof.Claims

/-! ### Control flow, control registers and exceptions -/

/-- PC of the LP. -/
def pcOf (s : State) (at_ : Issue) : Word := (s.lp at_.lp).arch.pc
/-- A displacement in bundles as one in bytes (02 R56). -/
def disp (d : BitVec 20) : Word := 16 * d.signExtend 64

/-- The branches: where control goes after the delay bundle, and the link register (04 R99, R100). A `jr` to a misaligned target is none. -/
def branchOp (s : State) : Instr → Option (Issue × Word × Reg)
  | .bZ a ra d => some (a, if g s a ra = 0 then pcOf s a + disp d else pcOf s a + 32, 0)
  | .bNz a ra d => some (a, if g s a ra = 0 then pcOf s a + 32 else pcOf s a + disp d, 0)
  | .bLt a ra d => some (a, if (g s a ra).slt 0 then pcOf s a + disp d else pcOf s a + 32, 0)
  | .bGe a ra d => some (a, if (g s a ra).slt 0 then pcOf s a + 32 else pcOf s a + disp d, 0)
  | .jmp a rd d => some (a, pcOf s a + disp d, rd)
  | .jr a rd ra => if (g s a ra).toNat % 16 = 0 then some (a, g s a ra, rd) else none
  | _ => none

/-- Loop level k is active with its end at PC (04 R105). -/
def EndsHere (a : Arch) (k : Nat) : Prop := v3 a.lct k ≠ 0 ∧ v3 a.lea k = a.pc
/-- Every inner level that ends here is in its last iteration, so the end action reaches level k (04 R107). -/
def Reaches (a : Arch) (k : Nat) : Prop := ∀ j, k < j → j < 3 → EndsHere a j → v3 a.lct j = 1

/-- The end action of 04 R107 from a to b. -/
structure LoopEnded (a b : Arch) : Prop where
  counted : ∀ k, k < 3 → EndsHere a k → Reaches a k → v3 b.lct k = v3 a.lct k - 1
  kept : ∀ k, k < 3 → ¬(EndsHere a k ∧ Reaches a k) → v3 b.lct k = v3 a.lct k
  again : ∀ k, k < 3 → EndsHere a k → Reaches a k → v3 a.lct k ≠ 1 → b.pc = v3 a.lsa k
  left : (∀ k, k < 3 → EndsHere a k → v3 a.lct k = 1) → b.pc = a.npc
  next : b.npc = b.pc + 16 ∧ b.delay = false

/-- The control registers: lowest level that may access one, and whether it can be written (02 R41). -/
def crRow (num : Nat) : Option (Nat × Bool) :=
  if num = 0 then some (1, true)
  else if num = 1 ∨ num = 2 ∨ (0x08 ≤ num ∧ num ≤ 0x10) then some (0, true)
  else if num = 0x18 ∨ num = 0x19 ∨ num = 0x20 ∨ num = 0x80 ∨ num = 0x81 then some (1, true)
  else if num = 0x1A ∨ num = 0x21 ∨ num = 0x22 ∨ num = 0x23 ∨ num = 0x24 ∨ num = 0xC0 then some (3, true)
  else if num = 0x30 ∨ num = 0x31 ∨ num = 0x32 then some (0, false)
  else if num = 0xC1 then some (3, false)
  else none

/-- What a control register reads after a write of v (02 R39, 03 R89, R95, 04 R105, 05 R121, 08 R213): `sl` says that the partition is Sealed. -/
def crSet (a : Arch) (sl : Bool) (num : Nat) (v : Word) : Word :=
  if num = 0 then (if sl then (v &&& 0x0000FFFFFF030303) ||| 0x200 else v &&& 0x0000FFFFFF030303)
  else if num = 1 then (if v.toNat / 2 ^ 8 % 8 ≤ 4 then v &&& 0x700 else a.fcsr &&& 0x700) ||| (a.fcsr &&& ~~~v &&& 0x1F)
  else if num = 2 then (v &&& 3) ||| (a.fxcsr &&& ~~~v &&& 0x300)
  else if 0x08 ≤ num ∧ num ≤ 0x10 then (if (num - 8) % 3 = 2 then v else v &&& ~~~0xF)
  else if num = 0x20 ∨ num = 0x21 then v &&& ~~~0x7FF
  else if num = 0x24 then v &&& 0xFFF8000000002FFF
  else if num = 0x80 then
    (if v.toNat % 32 ≤ 24 ∧ v.toNat / 2 ^ 11 % 2 ^ 33 * 2 ^ 11 % (8 * 2 ^ (v.toNat % 32)) = 0 then v &&& 0xFFFFFFFF81F else a.s1root)
  else if num = 0x81 then v &&& 7
  else if num = 0xC0 then (if v.toNat % 64 ≤ 32 then v &&& 0x3F else a.part)
  else v

/-- The slots that accept an instruction (02 R45); none for a command that is no instruction. -/
def slotsOf : Instr → Option (Issue × List Nat)
  | .bZ a .. | .bNz a .. | .bLt a .. | .bGe a .. | .jmp a .. | .jr a .. | .lpSet a .. | .mfcr a .. | .mtcr a .. | .sysCall a | .sysBrk a
  | .eret a | .wait a | .dzClr a | .cmCl a .. | .cmInv a .. | .cmCli a .. | .cmClR a .. | .cmInvR a .. | .cmCliR a .. | .cmClSw a ..
  | .cmInvSw a .. | .cmCliSw a .. | .cmIsync a .. | .cmLkfill a .. | .tlbInvVa a .. | .tlbInvAsid a .. | .tlbInvAll a .. | .tlbInvPra a ..
  | .tlbInvPart a .. => some (a, [0])
  | .blkMv a .. | .blkCmp a .. | .blkCrc32 a .. | .blkCrc32c a .. | .blkCrc64 a .. | .cmpx a .. | .cphx a .. => some (a, [1])
  | .ldB a .. | .ldBs a .. | .ldH a .. | .ldHs a .. | .ldW a .. | .ldWs a .. | .ldD a .. | .ldFd a .. | .ldFs a .. | .ldxB a .. | .ldxBs a ..
  | .ldxH a .. | .ldxHs a .. | .ldxW a .. | .ldxWs a .. | .ldxD a .. | .stB a .. | .stH a .. | .stW a .. | .stD a .. | .stFs a .. | .stFd a ..
  | .stxB a .. | .stxH a .. | .stxW a .. | .stxD a .. | .ldNtD a .. | .stNtD a .. | .casD a .. | .casQ a .. | .amoSwapD a .. | .amoAddD a ..
  | .amoAndD a .. | .amoOrD a .. | .barFull a .. | .barSt a .. => some (a, [1, 2])
  | .fadd a .. | .fsub a .. | .fmul a .. | .fdiv a .. | .fsqrt a .. | .fmin a .. | .fmax a .. | .fcmpEq a .. | .fcmpLt a .. | .fcmpLe a ..
  | .fclass a .. | .fcvtL a .. | .fcvtLu a .. | .fcvtFl a .. | .fcvtFlu a .. | .fcvtP a .. | .fmvGf a .. | .fmvFg a .. | .fma a .. | .fms a ..
  | .fnma a .. | .fnms a .. | .macQ15 a .. | .macQ31 a .. | .macQ63 a .. | .msuQ15 a .. | .msuQ31 a .. | .msuQ63 a .. | .accClr a .. | .accAdd a ..
  | .extQ15 a .. | .extQ31 a .. | .extQ63 a .. | .accRdl a .. | .accRdm a .. | .accRdh a .. | .accWrl a .. | .accWrm a .. | .accWrh a .. =>
    some (a, [3])
  | .add a .. | .sub a .. | .and a .. | .or a .. | .xor a .. | .andn a .. | .sll a .. | .srl a .. | .sra a .. | .rol a .. | .slt a .. | .sltu a ..
  | .min a .. | .max a .. | .minu a .. | .maxu a .. | .cmovZ a .. | .cmovNz a .. | .selZ a .. | .selNz a .. | .mul a .. | .mulh a .. | .mulhu a ..
  | .div a .. | .divu a .. | .rem a .. | .remu a .. | .addi a .. | .andi a .. | .ori a .. | .xori a .. | .slti a .. | .shI a .. | .ldi a ..
  | .ldiSh a .. | .bfExt a .. | .bfExts a .. | .bfIns a .. | .clz a .. | .ctz a .. | .popc a .. | .permB a .. | .crcStep32 a .. | .crcStep32c a ..
  | .crcStep64 a .. | .parD a .. | .parB a .. | .brevD a .. | .brevB a .. => some (a, [0, 1, 2, 3])
  | _ => none

/-- Do two fields hold one register other than g0 (02 R66)? -/
def sameReg (x y : Reg) : Bool := decide (x = y ∧ x ≠ 0)
/-- Is r one of the four registers from rd on? -/
def inBlock (rd r : Reg) : Bool := decide (rd.toNat ≤ r.toNat ∧ r.toNat < rd.toNat + 4)

/-- Does the word hold an operand value or a control register number that raises Reserved Instruction (02 R42, R56, R58, R66, 03 R85, R90, 04
R106, 07 R200, 08 R227, 09 R247)? -/
def unassigned : Instr → Bool
  | .shI _ _ _ imm => decide (192 ≤ imm.toNat)
  | .lpSet _ level _ e => decide (level.toNat = 3 ∨ e.toNat = 0)
  | .mfcr _ _ num => (crRow num.toNat).isNone
  | .mtcr _ num _ => match crRow num.toNat with | some (_, w) => !w | none => true
  | .cmCl _ rd _ rb | .cmInv _ rd _ rb | .cmCli _ rd _ rb | .cmClSw _ rd _ rb | .cmInvSw _ rd _ rb | .cmCliSw _ rd _ rb
  | .tlbInvAsid _ rd _ rb | .tlbInvPart _ rd _ rb => decide (rd ≠ 0 ∨ rb ≠ 0)
  | .tlbInvVa _ rd _ _ | .tlbInvPra _ rd _ _ => decide (rd ≠ 0)
  | .cmIsync _ rd ra rb | .tlbInvAll _ rd ra rb | .barFull _ rd ra rb | .barSt _ rd ra rb => decide (rd ≠ 0 ∨ ra ≠ 0 ∨ rb ≠ 0)
  | .ldFd _ rt _ _ | .ldFs _ rt _ _ | .stFd _ rt _ _ | .stFs _ rt _ _ => decide (32 ≤ rt.toNat)
  | .casQ _ rd _ rb => decide (rd.toNat % 2 = 1 ∨ rb.toNat % 2 = 1)
  | .fadd _ _ x y z | .fsub _ _ x y z | .fmul _ _ x y z | .fdiv _ _ x y z | .fmin _ _ x y z | .fmax _ _ x y z =>
    decide (32 ≤ x.toNat ∨ 32 ≤ y.toNat ∨ 32 ≤ z.toNat)
  | .fsqrt _ _ x y | .fcvtP _ _ x y | .fcmpEq _ _ _ x y | .fcmpLt _ _ _ x y | .fcmpLe _ _ _ x y => decide (32 ≤ x.toNat ∨ 32 ≤ y.toNat)
  | .fclass _ _ _ x | .fcvtL _ _ _ x | .fcvtLu _ _ _ x | .fmvFg _ _ _ x | .fcvtFl _ _ x _ | .fcvtFlu _ _ x _ | .fmvGf _ _ x _ =>
    decide (32 ≤ x.toNat)
  | .macQ15 _ k _ _ | .macQ31 _ k _ _ | .macQ63 _ k _ _ | .msuQ15 _ k _ _ | .msuQ31 _ k _ _ | .msuQ63 _ k _ _ | .accClr _ k | .accAdd _ k _ _
  | .extQ15 _ _ k | .extQ31 _ _ k | .extQ63 _ _ k | .accRdl _ _ k | .accRdm _ _ k | .accRdh _ _ k | .accWrl _ k _ | .accWrm _ k _
  | .accWrh _ k _ => decide (4 ≤ k.toNat)
  | .blkMv _ rd ra rb _ | .blkCmp _ rd ra rb _ | .blkCrc32 _ rd ra rb _ | .blkCrc32c _ rd ra rb _ | .blkCrc64 _ rd ra rb _ =>
    sameReg rd ra || sameReg rd rb || sameReg ra rb
  | .cmpx _ rd ra rb _ | .cphx _ rd ra rb _ => decide (rd.toNat % 4 ≠ 0) || inBlock rd ra || inBlock rd rb || sameReg ra rb
  | _ => false

/-- The lowest level that may execute an instruction (02 R42, 05 R123, 07 R200, 08 R227). -/
def levelOf (s : State) : Instr → Nat
  | .eret _ | .wait _ | .cmCl .. | .cmInv .. | .cmCli .. | .cmClR .. | .cmInvR .. | .cmCliR .. | .tlbInvVa .. | .tlbInvAsid .. | .tlbInvAll .. => 1
  | .cmClSw .. | .cmInvSw .. | .cmCliSw .. | .tlbInvPra .. | .tlbInvPart .. => 3
  | .cmLkfill a .. => if bit (s.reg (aTrdL2Lock a.lp)) 16 then 1 else 3
  | .mfcr _ _ num | .mtcr _ num _ => match crRow num.toNat with | some (l, _) => l | none => 0
  | _ => 0

/-- The alignment an instruction asks of its address (09 R240). -/
def alignOf (s : State) : Instr → Option (Word × Nat)
  | .ldNtD a _ ra rb | .stNtD a _ ra rb => some (g s a ra + g s a rb, 8)
  | .casD a _ ra _ | .amoSwapD a _ ra _ | .amoAddD a _ ra _ | .amoAndD a _ ra _ | .amoOrD a _ ra _ => some (g s a ra, 8)
  | .casQ a _ ra _ => some (g s a ra, 16)
  | _ => none

/-- The synchronous fault of an instruction in a bundle of its own: vector, DETAIL and FAULT_ADDR, in the order of 02 R49, R50 and 05 R123. Of
the memory faults it has those of alignment. -/
def faultOf (s : State) (i : Instr) : Option (Issue × Nat × Nat × Word) := do
  let (a, slots) ← slotsOf i
  let arch := (s.lp a.lp).arch
  if unassigned i then some (a, 1, 0, arch.pc)
  else if a.slot.val ∉ slots then some (a, 0, 1, arch.pc)
  else if arch.pl < levelOf s i then some (a, 2, 0, arch.pc)
  else match i with
    | .div _ _ _ rb | .divu _ _ _ rb | .rem _ _ _ rb | .remu _ _ _ rb =>
      if g s a rb = 0 ∧ bit arch.psw 17 = true then some (a, 5, 0, arch.pc) else none
    | .jr _ _ ra => if (g s a ra).toNat % 16 ≠ 0 ∧ arch.delay = false ∧ isLoopEnd arch = false then some (a, 3, 0, g s a ra) else none
    | .mtcr _ num ra =>
      let v := g s a ra
      if num = 0 then
        (if v.toNat % 4 = 2 then some (a, 1, 0, arch.pc)
         else if arch.pl = 1 ∧ (v.toNat % 4 = 3 ∨ bit v 8 ≠ bit arch.psw 8) then some (a, 2, 0, arch.pc) else none)
      else if num = 0x23 ∧ arch.escLocked = true then some (a, 2, 0, arch.pc) else none
    | i => match alignOf s i with
      | some (va, k) => if va.toNat % k ≠ 0 ∧ ¬(arch.pl = 3 ∧ 0xFFF0000000000 ≤ va.toNat ∧ va.toNat < 2 ^ 52) then some (a, 4, 0, va) else none
      | none => none

/-- A branch that the predictors get right (04 R112 to R114): a `jmp`, a conditional branch whose direction the lead's tables give, or a `jr`
whose target they hold. -/
def foreseen (s : State) : Instr → Prop
  | .bZ a ra _ => (s.lp a.lp).lead.pred.direction (pcOf s a) = decide (g s a ra = 0)
  | .bNz a ra _ => (s.lp a.lp).lead.pred.direction (pcOf s a) = decide (g s a ra ≠ 0)
  | .bLt a ra _ => (s.lp a.lp).lead.pred.direction (pcOf s a) = (g s a ra).slt 0
  | .bGe a ra _ => (s.lp a.lp).lead.pred.direction (pcOf s a) = !(g s a ra).slt 0
  | .jmp .. => True
  | .jr a rd ra =>
    let p := (s.lp a.lp).lead.pred
    if rd = 0 ∧ ra = 62 ∧ p.stack ≠ [] then p.stack.head? = some (g s a ra)
    else smGet (fun _ => none) p.indirect (p.indIdx (pcOf s a)) = some (g s a ra)
  | _ => False

/-- The registers with which an instruction's bundle executes and faults: the held progress word is given up unless the instruction is one that
it belongs to (02 R69, R70). -/
def begun (s : State) (i : Instr) (at_ : Issue) : Arch :=
  let a := (s.lp at_.lp).arch
  let kind := match i with
    | .blkMv .. => 1
    | .blkCmp .. => 2
    | .blkCrc32 .. | .blkCrc32c .. | .blkCrc64 .. => 3
    | .cmpx .. => 4
    | .cphx .. => 5
    | _ => 0
  if kind ≠ 0 ∧ unassigned i = false ∧ bit a.progress 59 = true ∧ bits a.progress 63 60 = kind then a else { a with progress := 0 }

/-- Does the branch of a bundle break 04 R100 or R107: it stands in a delay bundle (case 3), or in the end bundle of an active loop (case 6)? -/
def branchCase (a : Arch) : Option Nat := if a.delay then some 3 else if isLoopEnd a then some 6 else none

end Sys2Proof.Claims

/-! ### Control flow, control registers and exceptions -/

/-- 04 R99, R100: a branch in slot 0 of a bundle that is neither a delay bundle nor the end of an active loop makes the next bundle a delay bundle
and sets where control goes after it; `jmp` and `jr` write PC + 32 to their link register. No byte of memory changes where the fetch needs no cache
work and the branch is predicted right. -/
def Obligations.Branches : Prop :=
  ∀ (s : State) (i : Instr) (at_ : Issue) (target : Word) (link : Reg), branchOp s i = some (at_, target, link) → Ready s at_.lp →
    at_.last = true → at_.slot = 0 → (s.lp at_.lp).arch.delay = false → isLoopEnd (s.lp at_.lp).arch = false →
    ∃ t, exec i s = .next t ∧ Executed s t at_.lp [.g link.toNat] [] ∧ (t.lp at_.lp).arch.pc = (s.lp at_.lp).arch.npc ∧
      (t.lp at_.lp).arch.npc = target ∧ (t.lp at_.lp).arch.delay = true ∧ (link ≠ 0 → (t.lp at_.lp).arch.rdG link.toNat = pcOf s at_ + 32) ∧
      (s.warm at_.lp → foreseen s i → ∀ a, t.byte a = s.byte a)

/-- 04 R106, R107: `lp.set` gives its level the next bundle as start, PC + 16 × offset as end and ra as count; a count of 0 skips the loop, unless the
bundle is a delay bundle. At the end bundle of active loops the innermost level that is not in its last iteration counts down and starts again; the
levels inside it end (stated for the bundles of one integer instruction). -/
def Obligations.Loops : Prop :=
  (∀ (s : State) (i : Instr) (at_ : Issue) (rd : Reg) (v : Word), alu s i = some (at_, rd, v) → Ready s at_.lp → at_.last = true →
    ∃ t, exec i s = .next t ∧ LoopEnded (s.lp at_.lp).arch (t.lp at_.lp).arch) ∧
  ∀ (s : State) (at_ : Issue) (level : BitVec 2) (ra : Reg) (e : BitVec 18), Ready s at_.lp → at_.last = true → at_.slot = 0 →
    level ≠ 3 → e ≠ 0 → isLoopEnd (s.lp at_.lp).arch = false →
    ∃ t, exec (.lpSet at_ level ra e) s = .next t ∧
      Executed s t at_.lp [] [0x08 + 3 * level.toNat, 0x09 + 3 * level.toNat, 0x0A + 3 * level.toNat] ∧
      v3 (t.lp at_.lp).arch.lsa level.toNat = pcOf s at_ + 16 ∧ v3 (t.lp at_.lp).arch.lea level.toNat = pcOf s at_ + 16 * e.zeroExtend 64 ∧
      v3 (t.lp at_.lp).arch.lct level.toNat = g s at_ ra ∧
      (t.lp at_.lp).arch.pc = (if g s at_ ra = 0 ∧ (s.lp at_.lp).arch.delay = false then pcOf s at_ + 16 * e.zeroExtend 64 + 16
        else (s.lp at_.lp).arch.npc) ∧
      (t.lp at_.lp).arch.npc = (t.lp at_.lp).arch.pc + 16 ∧ (t.lp at_.lp).arch.delay = false

/-- 02 R41, R42: `mfcr` at or above the register's level reads it. (A load shadow over the stack pointer of the level is left out: log entry
22.) -/
def Obligations.ControlRegisterReads : Prop :=
  ∀ (s : State) (at_ : Issue) (rd : Reg) (num : BitVec 9) (l : Nat) (w : Bool), crRow num.toNat = some (l, w) → Ready s at_.lp →
    at_.last = true → at_.slot = 0 → l ≤ (s.lp at_.lp).arch.pl →
    (num.toNat = spNum (s.lp at_.lp).arch.pl → (s.lp at_.lp).arch.shadow false 63 = none) →
    ∃ t, exec (.mfcr at_ rd num) s = .next t ∧ Executed s t at_.lp [.g rd.toNat] [] ∧ Sequential (s.lp at_.lp).arch (t.lp at_.lp).arch ∧
      (rd ≠ 0 → (t.lp at_.lp).arch.rdG rd.toNat = (s.lp at_.lp).arch.cr (s.lpSealed at_.lp) num.toNat)

/-- 02 R39 to R42: `mtcr` at or above the register's level writes it as its layout says, and nothing else but, for PSW and the stack pointer of the
level, g63. ESC_HANDLER is locked by its write. -/
def Obligations.ControlRegisterWrites : Prop :=
  ∀ (s : State) (at_ : Issue) (num : BitVec 9) (ra : Reg), faultOf s (.mtcr at_ num ra) = none → Ready s at_.lp → at_.last = true →
    ∃ t, exec (.mtcr at_ num ra) s = .next t ∧ Sequential (s.lp at_.lp).arch (t.lp at_.lp).arch ∧
      (t.lp at_.lp).arch.cr (s.lpSealed at_.lp) num.toNat = crSet (s.lp at_.lp).arch (s.lpSealed at_.lp) num.toNat (g s at_ ra) ∧
      (num ≠ 0x23 → Executed s t at_.lp (if num = 0 ∨ num.toNat = spNum (s.lp at_.lp).arch.pl then [.g 63] else []) [num.toNat]) ∧
      (num = 0x23 → (t.lp at_.lp).arch.escLocked = true ∧ SameRegs (s.lp at_.lp).arch (t.lp at_.lp).arch [] ∧
        (isLoopEnd (s.lp at_.lp).arch = false → ∀ k, k ≠ 0x23 → (t.lp at_.lp).arch.cr (s.lpSealed at_.lp) k = (s.lp at_.lp).arch.cr (s.lpSealed at_.lp) k))

/-- 03 R78: `dz.clr` clears PSW.DZ and changes nothing else. -/
def Obligations.DivideFlagClears : Prop :=
  ∀ (s : State) (at_ : Issue), Ready s at_.lp → at_.last = true → at_.slot = 0 →
    ∃ t, exec (.dzClr at_) s = .next t ∧ Executed s t at_.lp [] [0] ∧ Sequential (s.lp at_.lp).arch (t.lp at_.lp).arch ∧
      (t.lp at_.lp).arch.psw = putBits (s.lp at_.lp).arch.psw 16 16 0

/-- 05 R142: `wait` at level S or M leaves the LP waiting with its PC after the bundle; a bundle sent while it waits is not executed. -/
def Obligations.Waiting : Prop :=
  ∀ (s : State) (at_ : Issue), Ready s at_.lp → at_.last = true → at_.slot = 0 → 1 ≤ (s.lp at_.lp).arch.pl →
    ∃ t, exec (.wait at_) s = .next t ∧ Executed s t at_.lp [] [] ∧ Sequential (s.lp at_.lp).arch (t.lp at_.lp).arch ∧
      (t.lp at_.lp).waiting = true ∧
      ∀ (i : Instr) (b : Issue) (slots : List Nat), slotsOf i = some (b, slots) → b.lp = at_.lp → b.last = true → exec i t = .next t

/-- 02 R46: two integer instructions of one bundle both read the registers as they stood before it and take effect together; the first alone
changes nothing. -/
def Obligations.BundlesCommitTogether : Prop :=
  ∀ (s : State) (i j : Instr) (ai aj : Issue) (ri rj : Reg) (vi vj : Word), alu s i = some (ai, ri, vi) → alu s j = some (aj, rj, vj) →
    Ready s ai.lp → aj.lp = ai.lp → ai.slot < aj.slot → ai.last = false → aj.last = true → (ri ≠ rj ∨ ri = 0) →
    ∃ u t, exec i s = .next u ∧ (u.lp ai.lp).arch = (s.lp ai.lp).arch ∧ (∀ m, m ≠ ai.lp → u.lp m = s.lp m) ∧ (∀ a, u.byte a = s.byte a) ∧
      exec j u = .next t ∧ Local s t ai.lp [.g ri.toNat, .g rj.toNat] [] ∧ Sequential (s.lp ai.lp).arch (t.lp ai.lp).arch ∧
      (ri ≠ 0 → (t.lp ai.lp).arch.rdG ri.toNat = vi) ∧ (rj ≠ 0 → (t.lp ai.lp).arch.rdG rj.toNat = vj)

/-- 02 R49, R50, R58, 05 R123, R128 to R134: an instruction with an unassigned operand, in a slot that does not accept it, below its level, or with
one of the faults of `faultOf`, commits nothing and enters the handler with its vector, its slot and PC in the frame. -/
def Obligations.SynchronousFaults : Prop :=
  ∀ (s u : State) (i : Instr) (at_ : Issue) (v detail l : Nat) (faddr fa h : Word), faultOf s i = some (at_, v, detail, faddr) →
    Ready s at_.lp → at_.last = true → Fetched s u at_.lp → CanEnter u at_.lp v l fa h →
    ∃ t, exec i s = .next t ∧ Entered u t at_.lp (begun s i at_) v at_.slot.val detail faddr l fa h ∧
      (∀ m, m ≠ at_.lp → t.lp m = s.lp m) ∧ (∀ a, a ≠ aTrdL2Status at_.lp → t.reg a = s.reg a)

/-- 02 R49 cases 3 and 6, 04 R100: a branch in slot 0 of a delay bundle, or of the end bundle of an active loop, raises Illegal Bundle with its
case in DETAIL. -/
def Obligations.MisplacedBranches : Prop :=
  ∀ (s u : State) (i : Instr) (at_ : Issue) (target : Word) (link : Reg) (c l : Nat) (fa h : Word), branchOp s i = some (at_, target, link) →
    Ready s at_.lp → at_.last = true → at_.slot = 0 → branchCase (s.lp at_.lp).arch = some c → Fetched s u at_.lp →
    CanEnter u at_.lp 0 l fa h → ∃ t, exec i s = .next t ∧ Entered u t at_.lp (begun s i at_) 0 0 c (pcOf s at_) l fa h

/-- 05 R123, R128: `sys.call` and `sys.brk` commit their bundle and then take vector 6 or 7 with the bundle's successor in the frame and its own
address in FAULT_ADDR. -/
def Obligations.SystemTraps : Prop :=
  ∀ (s u : State) (at_ : Issue) (call : Bool) (l : Nat) (fa h : Word), Ready s at_.lp → at_.last = true → at_.slot = 0 →
    isLoopEnd (s.lp at_.lp).arch = false → Fetched s u at_.lp → CanEnter u at_.lp (if call then 6 else 7) l fa h →
    ∃ t, exec (if call then .sysCall at_ else .sysBrk at_) s = .next t ∧
      Entered u t at_.lp { (s.lp at_.lp).arch with pc := (s.lp at_.lp).arch.npc, npc := (s.lp at_.lp).arch.npc + 16, delay := false, progress := 0 }
        (if call then 6 else 7) 0 0 (pcOf s at_) l fa h ∧
      (∀ m, m ≠ at_.lp → t.lp m = s.lp m) ∧ (∀ a, a ≠ aTrdL2Status at_.lp → t.reg a = s.reg a)

/-- 05 R139 to R141: `eret` at level S or M loads PC, NEXT_PC, the progress word, the stack pointer of its level, the loop registers, the load
shadows and PSW from the frame at its stack pointer, PSW.PL included; from S the frame cannot change MCM or the exception state. -/
def Obligations.ExceptionReturns : Prop :=
  ∀ (s u : State) (at_ : Issue) (acs : List Access) (p : Word), Ready s at_.lp → Fetched s u at_.lp → at_.last = true → at_.slot = 0 →
    (s.lp at_.lp).arch.pl = 1 ∨ (s.lp at_.lp).arch.pl = 3 → ¬(u.ordered at_.lp = true ∧ (u.lp at_.lp).unperformed false = true) → acs.length = 4 →
    (∀ i ac, acs[i]? = some ac → u.access at_.lp (s.lp at_.lp).arch.pl
        { kind := .load, va := (s.lp at_.lp).arch.rdG 63 + BitVec.ofNat 64 (64 * i), size := 64 } = .ok ac ∧
      ac.region = .mem ∧ Served u at_.lp ac ∧ u.consumesPoison at_.lp [] ac.addrs = false) →
    let a := (s.lp at_.lp).arch
    let ws := dword (u.ownBytes at_.lp [] (acs.flatMap (·.addrs)))
    let named := fun (isF : Bool) (r i : Nat) => decide ((ws (19 + 2 * i)).testBit 15 = true ∧ ((ws (19 + 2 * i)).testBit 7 = isF) ∧
      ws (19 + 2 * i) % 64 = r ∧ (ws (19 + 2 * i) / 2 ^ 10 % 4 = 1 ∨ ws (19 + 2 * i) / 2 ^ 10 % 4 = 2))
    ws 0 % 4 ≠ 2 → ¬(a.pl = 1 ∧ ws 0 % 4 = 3) → ws 1 % 16 = 0 → ws 2 % 16 = 0 →
    p = crSet a (s.lpSealed at_.lp) 0 (BitVec.ofNat 64 (ws 0)) →
    ∃ t, exec (.eret at_) s = .next t ∧ (∀ m, m ≠ at_.lp → t.lp m = s.lp m) ∧ (∀ x, x ≠ aTrdL2Status at_.lp → t.reg x = s.reg x) ∧
      (s.warm at_.lp → ∀ x, t.byte x = s.byte x) ∧
      let b := (t.lp at_.lp).arch
      b.pc.toNat = ws 1 ∧ b.npc.toNat = ws 2 ∧ b.delay = decide (b.npc ≠ b.pc + 16) ∧ b.progress = BitVec.ofNat 64 (ws 5) &&& 0xFCFFFFFF00000000 ∧ (b.sp a.pl).toNat = ws 6 ∧
      b.pswEff (s.lpSealed at_.lp) = (if a.pl = 1 then putBits p 8 8 (bits a.psw 8 8) else p) ∧
      (∀ k, k < 3 → (v3 b.lsa k).toNat = ws (8 + 3 * k) / 16 * 16 ∧ (v3 b.lea k).toNat = ws (9 + 3 * k) / 16 * 16 ∧ (v3 b.lct k).toNat = ws (10 + 3 * k)) ∧
      (b.nmtIs = if a.pl = 1 then a.nmtIs else (ws 7).testBit 0) ∧ (b.escIs = if a.pl = 1 then a.escIs else (ws 7).testBit 1) ∧
      b.g = a.g ∧ b.f = a.f ∧ b.acc = a.acc ∧ b.fcsr = a.fcsr ∧ b.fxcsr = a.fxcsr ∧
      (∀ k, k ≠ a.pl → k = 0 ∨ k = 1 ∨ k = 3 → b.sp k = a.sp k) ∧
      (∀ r, 1 ≤ r → r < 64 → b.rdG r = match (List.range 4).find? (named false r) with | some i => BitVec.ofNat 64 (ws (18 + 2 * i)) | none => b.rawG r) ∧
      (∀ r, r < 32 → b.rdF r = match (List.range 4).find? (named true r) with | some i => BitVec.ofNat 64 (ws (18 + 2 * i)) | none => b.rawF r)

namespace Sys2Proof.Claims

/-! ### Memory -/

/-- The loads: destination, address, bytes, whether the value is sign-extended, and the alignment asked for (02 R51, R56, R57, R59, 07 R184). -/
def loadOp (s : State) : Instr → Option (Issue × Dst × Word × Nat × Bool × Nat)
  | .ldB a rt b d => some (a, .g rt.toNat, g s a b + d.signExtend 64, 1, false, 1)
  | .ldBs a rt b d => some (a, .g rt.toNat, g s a b + d.signExtend 64, 1, true, 1)
  | .ldH a rt b d => some (a, .g rt.toNat, g s a b + d.signExtend 64, 2, false, 1)
  | .ldHs a rt b d => some (a, .g rt.toNat, g s a b + d.signExtend 64, 2, true, 1)
  | .ldW a rt b d => some (a, .g rt.toNat, g s a b + d.signExtend 64, 4, false, 1)
  | .ldWs a rt b d => some (a, .g rt.toNat, g s a b + d.signExtend 64, 4, true, 1)
  | .ldD a rt b d => some (a, .g rt.toNat, g s a b + d.signExtend 64, 8, false, 1)
  | .ldFd a rt b d => some (a, .f rt.toNat, g s a b + d.signExtend 64, 8, false, 1)
  | .ldFs a rt b d => some (a, .f rt.toNat, g s a b + d.signExtend 64, 4, false, 1)
  | .ldxB a rd ra rb => some (a, .g rd.toNat, g s a ra + g s a rb, 1, false, 1)
  | .ldxBs a rd ra rb => some (a, .g rd.toNat, g s a ra + g s a rb, 1, true, 1)
  | .ldxH a rd ra rb => some (a, .g rd.toNat, g s a ra + g s a rb, 2, false, 1)
  | .ldxHs a rd ra rb => some (a, .g rd.toNat, g s a ra + g s a rb, 2, true, 1)
  | .ldxW a rd ra rb => some (a, .g rd.toNat, g s a ra + g s a rb, 4, false, 1)
  | .ldxWs a rd ra rb => some (a, .g rd.toNat, g s a ra + g s a rb, 4, true, 1)
  | .ldxD a rd ra rb => some (a, .g rd.toNat, g s a ra + g s a rb, 8, false, 1)
  | .ldNtD a rd ra rb => some (a, .g rd.toNat, g s a ra + g s a rb, 8, false, 8)
  | _ => none

/-- The stores: address, bytes, data, and the alignment asked for; 8 for the non-temporal one (02 R56, R57, R59, 09 R233, R245). -/
def storeOp (s : State) : Instr → Option (Issue × Word × Nat × Word × Nat)
  | .stB a rt b d => some (a, g s a b + d.signExtend 64, 1, g s a rt, 1)
  | .stH a rt b d => some (a, g s a b + d.signExtend 64, 2, g s a rt, 1)
  | .stW a rt b d => some (a, g s a b + d.signExtend 64, 4, g s a rt, 1)
  | .stD a rt b d => some (a, g s a b + d.signExtend 64, 8, g s a rt, 1)
  | .stFs a rt b d => some (a, g s a b + d.signExtend 64, 4, f s a rt, 1)
  | .stFd a rt b d => some (a, g s a b + d.signExtend 64, 8, f s a rt, 1)
  | .stxB a rd ra rb => some (a, g s a ra + g s a rb, 1, g s a rd, 1)
  | .stxH a rd ra rb => some (a, g s a ra + g s a rb, 2, g s a rd, 1)
  | .stxW a rd ra rb => some (a, g s a ra + g s a rb, 4, g s a rd, 1)
  | .stxD a rd ra rb => some (a, g s a ra + g s a rb, 8, g s a rd, 1)
  | .stNtD a rd ra rb => some (a, g s a ra + g s a rb, 8, g s a rd, 8)
  | _ => none

/-- The atomics: address, bytes, the registers of the old value from its low end, and the value stored, if any, for an old value (09 R243). -/
def atomicOp (s : State) : Instr → Option (Issue × Word × Nat × List Nat × (Nat → Option Nat))
  | .casD a rd ra rb => some (a, g s a ra, 8, [rd.toNat], fun old => if old = (g s a rd).toNat then some (g s a rb).toNat else none)
  | .casQ a rd ra rb => some (a, g s a ra, 16, [rd.toNat, rd.toNat + 1], fun old =>
      if old = (g s a rd).toNat + 2 ^ 64 * (g s a (rd + 1)).toNat then some ((g s a rb).toNat + 2 ^ 64 * (g s a (rb + 1)).toNat) else none)
  | .amoSwapD a rd ra rb => some (a, g s a ra, 8, [rd.toNat], fun _ => some (g s a rb).toNat)
  | .amoAddD a rd ra rb => some (a, g s a ra, 8, [rd.toNat], fun old => some ((old + (g s a rb).toNat) % 2 ^ 64))
  | .amoAndD a rd ra rb => some (a, g s a ra, 8, [rd.toNat], fun old => some (old &&& (g s a rb).toNat))
  | .amoOrD a rd ra rb => some (a, g s a ra, 8, [rd.toNat], fun old => some (old ||| (g s a rb).toNat))
  | _ => none

/-- Byte k of a number (00 R4). -/
def octet (v k : Nat) : Byte := BitVec.ofNat 8 (v / 2 ^ (8 * k))
/-- The bytes of a store's data. -/
def dataBytes (data : Word) (size : Nat) : List Byte := (List.range size).map (octet data.toNat)
/-- A loaded value (02 R51). -/
def loaded (bs : List Byte) (size : Nat) (signed : Bool) : Word :=
  if signed then (BitVec.ofNat (8 * size) (leNat bs)).signExtend 64 else BitVec.ofNat 64 (leNat bs)
/-- The register file's value of a destination. -/
def rawDst (a : Arch) : Dst → Word
  | .g i => a.rawG i
  | .f i => a.rawF i
  | .acc _ => 0
/-- The load shadow of a register (05 R132). -/
def shadowOf (a : Arch) : Dst → Option Shadow
  | .g i => a.shadow false i
  | .f i => a.shadow true i
  | .acc _ => none

/-- Nothing that an access of LP n reads is changed by its bundle's own cache work: fetch and access are served by the level-1 caches. -/
def Quiet (s : State) (n : Tri) (ac : Access) : Prop := s.warm n ∧ Served s n ac
/-- No request of LP n is held for a retry (06 R158). -/
def Unheld (s : State) (n : Tri) : Prop := (s.lp n).devHold = []
/-- No line of LP n's combining buffer holds a byte of the access (09 R246). -/
def Apart (s : State) (n : Tri) (addrs : List Nat) : Prop := ∀ c ∈ (s.lp n).comb, ∀ a ∈ addrs, a / 128 ≠ c.line
/-- LP n holds a line modified, in its L2, and no other LP holds it (07 R185). -/
def Owns (s : State) (n : Tri) (line : Nat) : Prop :=
  (∃ k, (s.lp n).l2Find line = some k ∧ ((s.lp n).l2.pos k).st = .m) ∧ (∀ v ∈ (s.lp n).vbuf, v.line ≠ line) ∧
  ∀ m, m ≠ n → (s.lp m).hasLine line = false
/-- Memory with the bytes of a list of (source, destination) addresses copied one at a time (02 R67). -/
def copied (m : Nat → Byte) (ps : List (Nat × Nat)) : Nat → Byte := ps.foldl (fun m p x => if x = p.2 then m p.1 else m x) m

/-- The block instructions on memory: the registers and the number of units it may run (02 R66). -/
def blockOp : Instr → Option (Issue × Reg × Reg × Reg × Nat)
  | .blkMv a rd ra rb k | .blkCmp a rd ra rb k | .blkCrc32 a rd ra rb k | .blkCrc32c a rd ra rb k | .blkCrc64 a rd ra rb k => some (a, rd, ra, rb, k)
  | _ => none
/-- The checksum of bytes (02 R62, R66). -/
def crcFrom (poly c : Nat) (bs : List Byte) : Nat :=
  bs.foldl (fun c b => (List.range 8).foldl (fun c i => crcShift poly c (b.getLsbD i)) c) c
/-- KIND of the progress word of a block instruction, and for a CRC its polynomial and width (02 R62, R69). -/
def blockKind : Instr → Option (Nat × Nat × Nat)
  | .blkMv .. => some (1, 0, 0)
  | .blkCmp .. => some (2, 0, 0)
  | .blkCrc32 .. => some (3, 0xEDB88320, 32)
  | .blkCrc32c .. => some (3, 0x82F63B78, 32)
  | .blkCrc64 .. => some (3, 0xC96C5795D7870F42, 64)
  | _ => none
/-- What a unit of a block instruction leaves in PC and the progress word: at its end that of the next bundle, and otherwise PC as it was with
one unit more in UNITS (02 R68, R69). -/
def UnitLeaves (a b : Arch) (kind : Nat) (ended : Prop) : Prop :=
  (ended → Sequential a b ∧ b.progress = 0) ∧
  (¬ended → b.pc = a.pc ∧ b.npc = a.npc ∧ b.delay = a.delay ∧ bits b.progress 63 60 = kind ∧ bit b.progress 59 = true ∧
    bits b.progress 55 32 = min ((if bit a.progress 59 = true ∧ bits a.progress 63 60 = kind then bits a.progress 55 32 else 0) + 1) 0xFFFFFF)
/-- LP n has no engine at work for it. -/
def NoEngine (s : State) (n : Tri) : Prop := smGet (fun _ => none) s.cmp.lp n.val = none ∧ smGet (fun _ => none) s.cph.lp n.val = none

/-- The cache maintenance instructions of one line: action and address (07 R201). -/
def lineOp (s : State) : Instr → Option (Issue × CmAct × Word)
  | .cmCl a _ ra _ => some (a, .clean, g s a ra)
  | .cmInv a _ ra _ => some (a, .inv, g s a ra)
  | .cmCli a _ ra _ => some (a, .cleanInv, g s a ra)
  | _ => none
/-- The cache maintenance instructions of a range, `cm.lkfill` among them: the stop register and the range (07 R195, R203). -/
def rangeOp (s : State) : Instr → Option (Issue × Reg × AccKind × Word × Word)
  | .cmClR a rd ra rb => some (a, rd, .load, g s a ra, g s a rb)
  | .cmInvR a rd ra rb => some (a, rd, .store, g s a ra, g s a rb)
  | .cmCliR a rd ra rb => some (a, rd, .store, g s a ra, g s a rb)
  | .cmLkfill a rd ra rb => some (a, rd, .load, g s a ra, g s a rb)
  | _ => none
/-- The cache maintenance instructions of a set and way (07 R204). -/
def setWayOp (s : State) : Instr → Option (Issue × Bool × Word)
  | .cmClSw a _ ra _ => some (a, false, g s a ra)
  | .cmInvSw a _ ra _ => some (a, true, g s a ra)
  | .cmCliSw a _ ra _ => some (a, true, g s a ra)
  | _ => none
/-- The TLB instructions: whether a TLB entry of its partition is one it removes (08 R227). -/
def tlbOp (s : State) : Instr → Option (Issue × (TlbEnt → Bool))
  | .tlbInvVa a _ ra rb => some (a, fun e => decide (e.part = s.partOf a.lp ∧ e.mcl = false ∧ e.va / 2 ^ e.lg = (g s a ra).toNat / 2 ^ e.lg) &&
      (e.g || !e.en || decide (e.asid = (g s a rb).toNat % 2 ^ 16)))
  | .tlbInvAsid a _ ra _ => some (a, fun e => decide (e.part = s.partOf a.lp ∧ e.mcl = false ∧ e.asid = (g s a ra).toNat % 2 ^ 16) && !e.g && e.en)
  | .tlbInvAll a _ _ _ => some (a, fun e => decide (e.part = s.partOf a.lp))
  | .tlbInvPra a _ ra rb => some (a, fun e => decide ((g s a rb).toNat % 64 ≤ 32 ∧ (g s a rb).toNat % 64 ≠ 0 ∧ e.part = (g s a rb).toNat % 64 ∧
      e.pra / 2 ^ 28 = (g s a ra).toNat / 2 ^ 28 % 2 ^ 16))
  | .tlbInvPart a _ ra _ => some (a, fun e => decide ((g s a ra).toNat % 64 ≤ 32 ∧ (g s a ra).toNat % 64 ≠ 0 ∧ e.part = (g s a ra).toNat % 64))
  | _ => none
/-- Nothing of LP n waits to be performed, and its combining buffer is empty (09 R247). -/
def Drained (s : State) (n : Tri) : Prop := (s.lp n).unperformed true = false ∧ (s.lp n).comb = [] ∧ bit (s.reg (aTrdAseStatus n)) 63 = false

end Sys2Proof.Claims

/-! ### Memory -/

/-- 02 R51, 09 R236: each of the loads ld.b, ld.bs, ld.h, ld.hs, ld.w, ld.ws, ld.d, ld.fd, ld.fs, ldx.b, ldx.bs, ldx.h, ldx.hs, ldx.w, ldx.ws,
ldx.d and ld.nt.d, from main memory in slot 1 or 2, completes: it writes its register with the bytes that the LP sees, its own stores included; the
next two bundles still read the register as it was. Whatever the caches hold, nothing else of the LP and no other LP changes; memory is unchanged where
the level-1 caches serve the bundle. -/
def Obligations.Loads : Prop :=
  ∀ (s v : State) (i : Instr) (at_ : Issue) (dst : Dst) (va : Word) (size al : Nat) (signed : Bool) (ac : Access),
    loadOp s i = some (at_, dst, va, size, signed, al) → Ready s at_.lp → at_.last = true → at_.slot = 1 ∨ at_.slot = 2 → unassigned i = false →
    Fetched s v at_.lp → v.access at_.lp (s.lp at_.lp).arch.pl { kind := .load, va := va, size := size, align := al } = .ok ac → ac.region = .mem →
    Apart v at_.lp ac.addrs → v.consumesPoison at_.lp [] ac.addrs = false → ¬(v.ordered at_.lp = true ∧ (v.lp at_.lp).unperformed false = true) →
    ∃ t, exec i s = .next t ∧ Local s t at_.lp [dst] [] ∧ Sequential (s.lp at_.lp).arch (t.lp at_.lp).arch ∧
      (dst ≠ .g 0 → rawDst (t.lp at_.lp).arch dst = loaded ((v.applyFills at_.lp ac false).ownBytes at_.lp [] ac.addrs) size signed ∧
        readDst (t.lp at_.lp).arch dst = readDst (s.lp at_.lp).arch dst ∧
        (shadowOf (t.lp at_.lp).arch dst).map (·.remain) = some 2) ∧
      (Quiet s at_.lp ac → ∀ a, t.byte a = s.byte a)

/-- 02 R51, R52, 05 R132: a bundle that writes another register takes one from the delay of every load shadow; one that has run out is gone, and
the register reads what the load brought. Stated for the bundles of one integer instruction. -/
def Obligations.LoadShadowsRunDown : Prop :=
  ∀ (s : State) (i : Instr) (at_ : Issue) (rd : Reg) (v : Word) (h : Shadow) (r : Nat), alu s i = some (at_, rd, v) → Ready s at_.lp →
    at_.last = true → rd.toNat ≠ r → 1 ≤ r → r < 64 → (s.lp at_.lp).arch.shadows.filter (fun x => !x.isF && x.idx = r) = [h] →
    ∃ t, exec i s = .next t ∧
      (t.lp at_.lp).arch.shadow false r = (if 2 ≤ h.remain then some { h with remain := h.remain - 1 } else none) ∧
      (t.lp at_.lp).arch.rdG r = if 2 ≤ h.remain then h.old else (s.lp at_.lp).arch.rawG r

/-- 09 R233, R236, R245: each of the stores st.b, st.h, st.w, st.d, st.fs, st.fd, stx.b, stx.h, stx.w, stx.d and st.nt.d, to main memory in slot 1 or
2, completes: it joins the commit queue with its bytes; no register and, until it is performed, no byte of memory changes, but the LP itself sees the
bytes at once. -/
def Obligations.Stores : Prop :=
  ∀ (s v : State) (i : Instr) (at_ : Issue) (va : Word) (size al : Nat) (data : Word) (ac : Access),
    storeOp s i = some (at_, va, size, data, al) → Ready s at_.lp → at_.last = true → at_.slot = 1 ∨ at_.slot = 2 → unassigned i = false →
    Fetched s v at_.lp → v.access at_.lp (s.lp at_.lp).arch.pl { kind := .store, va := va, size := size, align := al } = .ok ac → ac.region = .mem →
    Apart v at_.lp ac.addrs → (s.lp at_.lp).fenced = false → Unheld s at_.lp →
    ∃ t r st, exec i s = .next t ∧ Local s t at_.lp [] [] ∧ Sequential (s.lp at_.lp).arch (t.lp at_.lp).arch ∧
      (t.lp at_.lp).records = (s.lp at_.lp).records ++ [r] ∧ r.stores = [st] ∧ st.kind = (if al = 8 then .nt else .cache) ∧
      st.bytes = ac.addrs.zip (dataBytes data size) ∧ (ac.addrs.Nodup → t.ownBytes at_.lp [] ac.addrs = dataBytes data size) ∧
      (s.warm at_.lp → (∀ x ∈ ac.fills, x = {}) → ∀ a, t.byte a = s.byte a)

/-- 09 R236, R243: an atomic in slot 1 or 2, with no older store unperformed, reads its bytes of main memory and leaves the old value in its
registers, as a load does; where the LP owns the line, the new value is in memory and nothing else has changed. -/
def Obligations.Atomics : Prop :=
  ∀ (s v : State) (i : Instr) (at_ : Issue) (va : Word) (size : Nat) (rds : List Nat) (new : Nat → Option Nat) (ac : Access),
    atomicOp s i = some (at_, va, size, rds, new) → Ready s at_.lp → at_.last = true → at_.slot = 1 ∨ at_.slot = 2 → unassigned i = false →
    Fetched s v at_.lp →
    v.access at_.lp (s.lp at_.lp).arch.pl { kind := .rmw, va := va, size := size, align := size, atomic := true } = .ok ac → ac.region = .mem →
    Drained s at_.lp → Unheld s at_.lp → (∀ a ∈ ac.addrs, v.badByte a = false ∧ v.memOk a = true) →
    let old := leNat (ac.addrs.map (v.applyFills at_.lp ac false).byte)
    ∃ t, exec i s = .next t ∧ SameRegs (s.lp at_.lp).arch (t.lp at_.lp).arch (rds.map .g) ∧
      SameSpecial (s.lpSealed at_.lp) (s.lp at_.lp).arch (t.lp at_.lp).arch (rds.map .g) [] ∧
      Sequential (s.lp at_.lp).arch (t.lp at_.lp).arch ∧
      (∀ k r, rds[k]? = some r → r ≠ 0 → (t.lp at_.lp).arch.rawG r = BitVec.ofNat 64 (old / 2 ^ (64 * k)) ∧
        (t.lp at_.lp).arch.rdG r = (s.lp at_.lp).arch.rdG r) ∧
      (s.warm at_.lp → (∀ x ∈ ac.fills, x = {}) → ac.addrs.Nodup → (∀ a ∈ ac.addrs, Owns s at_.lp (a / 128)) →
        Local s t at_.lp (rds.map .g) [] ∧
        ∀ x, t.byte x = match new old, ac.addrs.findIdx? (· = x) with | some w, some k => octet w k | _, _ => s.byte x)

/-- 09 R247: `bar.full` and `bar.st` with no older store unperformed, no failed store and an empty combining buffer change no register and no byte;
`bar.st` leaves its mark in the stream of stores. A `bar.full` with an older store not performed waits: the bundle is frozen and changes nothing. -/
def Obligations.Barriers : Prop :=
  ∀ (s : State) (at_ : Issue) (full : Bool), Ready s at_.lp → at_.last = true → at_.slot = 1 ∨ at_.slot = 2 →
    (Drained s at_.lp → Unheld s at_.lp → ∃ t r, exec (if full then .barFull at_ 0 0 0 else .barSt at_ 0 0 0) s = .next t ∧
      Executed s t at_.lp [] [] ∧ Sequential (s.lp at_.lp).arch (t.lp at_.lp).arch ∧ (t.lp at_.lp).records = (s.lp at_.lp).records ++ [r] ∧
      r.stores.map (·.kind) = if full then [] else [.fence]) ∧
    ((s.lp at_.lp).unperformed true = true → ∃ t, exec (.barFull at_ 0 0 0) s = .next t ∧ (t.lp at_.lp).frozen.isSome = true ∧
      (t.lp at_.lp).arch = begun s (.barFull at_ 0 0 0) at_ ∧ (t.lp at_.lp).records = (s.lp at_.lp).records ∧ (∀ m, m ≠ at_.lp → t.lp m = s.lp m) ∧
      (∀ a, a ≠ aTrdL2Status at_.lp → t.reg a = s.reg a) ∧ (s.warm at_.lp → ∀ a, t.byte a = s.byte a))

/-- 09 R253, R254: `bar.full` that meets a failed store takes vector 14 with KIND and MULTI in DETAIL and the store's address in
FAULT_ADDR, and the failed-store state is cleared. -/
def Obligations.AsynchronousStoreErrors : Prop :=
  ∀ (s v : State) (at_ : Issue) (l : Nat) (fa h : Word), Ready s at_.lp → at_.last = true → at_.slot = 1 ∨ at_.slot = 2 →
    (s.lp at_.lp).unperformed true = false → (s.lp at_.lp).comb = [] → bit (s.reg (aTrdAseStatus at_.lp)) 63 = true → Fetched s v at_.lp →
    CanEnter v at_.lp 14 l fa h →
    let r := s.reg (aTrdAseStatus at_.lp)
    ∃ t, exec (.barFull at_ 0 0 0) s = .next t ∧ bit (t.reg (aTrdAseStatus at_.lp)) 63 = false ∧
      Entered v t at_.lp (begun s (.barFull at_ 0 0 0) at_) 14 at_.slot.val (bits r 61 60 + 128 * bits r 62 62) (BitVec.ofNat 64 (bits r 51 0)) l fa h

/-- 02 R64 to R69: the block instructions blk.mv, blk.cmp, blk.crc.32, blk.crc.32c and blk.crc.64 in slot 1, one unit of at most 256 bytes. A length
of 0 completes at once. `blk.crc` carries its checksum over the bytes, `blk.cmp` stops at the first that differ, `blk.mv` copies them one at a time, its
stores joining the commit queue (06 R150); the registers advance by what was done, and the instruction ends when nothing is left or a difference is
found. -/
def Obligations.BlockUnits : Prop :=
  ∀ (s v : State) (i : Instr) (at_ : Issue) (rd ra rb : Reg) (budget kind poly w : Nat), blockOp i = some (at_, rd, ra, rb, budget) →
    blockKind i = some (kind, poly, w) → Ready s at_.lp → at_.last = true → at_.slot = 1 → unassigned i = false →
    Drained s at_.lp → NoEngine s at_.lp → budget = 1 → Fetched s v at_.lp →
    let a := (s.lp at_.lp).arch
    let u := min 256 (g s at_ rb).toNat
    let rs : List Dst := [.g rd.toNat, .g ra.toNat, .g rb.toNat]
    (g s at_ rb = 0 → ∃ t, exec i s = .next t ∧ Executed s t at_.lp [] [] ∧ UnitLeaves a (t.lp at_.lp).arch kind True) ∧
    (∀ sa, g s at_ rb ≠ 0 → kind = 3 → v.unitAccess at_.lp .load (g s at_ ra) u = .ok sa →
      ∃ t, exec i s = .next t ∧ Local s t at_.lp rs [] ∧
        (rd ≠ 0 → ((t.lp at_.lp).arch.rdG rd.toNat).toNat = crcFrom poly ((g s at_ rd).toNat % 2 ^ w) (sa.addrs.map v.byte)) ∧
        (ra ≠ 0 → (t.lp at_.lp).arch.rdG ra.toNat = g s at_ ra + BitVec.ofNat 64 u) ∧
        (t.lp at_.lp).arch.rdG rb.toNat = g s at_ rb - BitVec.ofNat 64 u ∧ UnitLeaves a (t.lp at_.lp).arch kind ((g s at_ rb).toNat ≤ 256) ∧
        (Quiet s at_.lp sa → ∀ x, t.byte x = s.byte x)) ∧
    (∀ da sa (k : Nat), g s at_ rb ≠ 0 → kind = 2 → v.unitAccess at_.lp .load (g s at_ rd) u = .ok da →
      v.unitAccess at_.lp .load (g s at_ ra) u = .ok sa → k ≤ u →
      (∀ j, j < k → v.byte (da.addrs.getD j 0) = v.byte (sa.addrs.getD j 0)) →
      (k < u → v.byte (da.addrs.getD k 0) ≠ v.byte (sa.addrs.getD k 0)) →
      ∃ t, exec i s = .next t ∧ Local s t at_.lp rs [] ∧
        (rd ≠ 0 → (t.lp at_.lp).arch.rdG rd.toNat = g s at_ rd + BitVec.ofNat 64 k) ∧
        (ra ≠ 0 → (t.lp at_.lp).arch.rdG ra.toNat = g s at_ ra + BitVec.ofNat 64 k) ∧
        (t.lp at_.lp).arch.rdG rb.toNat = g s at_ rb - BitVec.ofNat 64 k ∧ UnitLeaves a (t.lp at_.lp).arch kind (k < u ∨ (g s at_ rb).toNat ≤ 256) ∧
        (Quiet s at_.lp da → Quiet s at_.lp sa → ∀ x, t.byte x = s.byte x)) ∧
    (∀ sa da, g s at_ rb ≠ 0 → kind = 1 → v.unitAccess at_.lp .load (g s at_ ra) u = .ok sa →
      v.unitAccess at_.lp .store (g s at_ rd) u = .ok da → da.addrs.Nodup →
      ∃ t r rest, exec i s = .next t ∧ Local s t at_.lp rs [] ∧
        (rd ≠ 0 → (t.lp at_.lp).arch.rdG rd.toNat = g s at_ rd + BitVec.ofNat 64 u) ∧
        (ra ≠ 0 → (t.lp at_.lp).arch.rdG ra.toNat = g s at_ ra + BitVec.ofNat 64 u) ∧
        (t.lp at_.lp).arch.rdG rb.toNat = g s at_ rb - BitVec.ofNat 64 u ∧ UnitLeaves a (t.lp at_.lp).arch kind ((g s at_ rb).toNat ≤ 256) ∧
        (t.lp at_.lp).records = (s.lp at_.lp).records ++ r :: rest ∧ (∀ st ∈ r.stores, st.kind = .cache) ∧
        (∀ x b, (x, b) ∈ r.stores.flatMap (·.bytes) ↔ x ∈ da.addrs ∧ b = copied v.byte (sa.addrs.zip da.addrs) x) ∧
        (Quiet s at_.lp sa → (∀ f ∈ da.fills, f = {}) → (∀ x, t.byte x = s.byte x) ∧
          ∀ x, t.ownByte at_.lp x = copied s.byte (sa.addrs.zip da.addrs) x))

/-- 02 R66, R67, R71: `cmpx` and `cphx` with nothing left in their source register end with status 0 in rb and change no other register. Their results are
voted results at once. -/
def Obligations.EngineInstructionsEnd : Prop :=
  ∀ (s : State) (at_ : Issue) (rd ra rb : Reg) (budget : Nat) (cphx : Bool), Ready s at_.lp → at_.last = true → at_.slot = 1 →
    unassigned (.cmpx at_ rd ra rb budget) = false → Drained s at_.lp → (s.lp at_.lp).records = [] → NoEngine s at_.lp → budget ≠ 0 →
    (s.lp at_.lp).arch.rdG (rd.toNat + 1) = 0 →
    ∃ t, exec (if cphx then .cphx at_ rd ra rb budget else .cmpx at_ rd ra rb budget) s = .next t ∧
      SameRegs (s.lp at_.lp).arch (t.lp at_.lp).arch [.g rb.toNat] ∧
      SameSpecial (s.lpSealed at_.lp) (s.lp at_.lp).arch (t.lp at_.lp).arch [.g rb.toNat] [] ∧ (∀ m, m ≠ at_.lp → t.lp m = s.lp m) ∧
      (∀ x, x ∉ [aTrdL2Status at_.lp, aTrdState at_.lp, aTrdRasCount at_.lp, aTrdLastMismatch at_.lp] → t.reg x = s.reg x) ∧
      (rb ≠ 0 → (t.lp at_.lp).arch.rdG rb.toNat = 0) ∧ UnitLeaves (s.lp at_.lp).arch (t.lp at_.lp).arch 0 True ∧
      (t.lp at_.lp).voted = (t.lp at_.lp).arch ∧ (t.lp at_.lp).records = [] ∧ (s.warm at_.lp → ∀ x, t.byte x = s.byte x)

namespace Sys2Proof.Claims

/-- The state in which LP n works on the units of an engine instruction `e` of KIND k that it has fetched (02 R64, 16 R424). -/
def atUnit (s : State) (n : Tri) (e : SlotEff) (k : Nat) (fa : Access) : State :=
  ((s.updLp n fun l => { l with asm := [e], orderMode := (s.reg aHubOrderMode).toNat, retried := false }).fetchWork n { effs := [e] } fa).1.ucBegin n k

end Sys2Proof.Claims

/-- 02 R64, R66, R68, R69, 13 R373: a unit of `cmpx` that is not its last takes at most 256 bytes of its source. The source registers of a compression
advance by the whole unit, those of a decompression by what the engine took; the destination registers advance by what it gave. The unit counts in the
progress word with CTX set; PC stays. -/
def Obligations.CompressionUnits : Prop :=
  ∀ (s u w : State) (at_ : Issue) (rd ra rb : Reg) (x : LpCmp) (bs out : List Byte) (c : Codec) (used : Nat) (fa : Access), Ready s at_.lp →
    s.fetchFault at_.lp = .ok fa → at_.last = true → at_.slot = 1 → unassigned (.cmpx at_ rd ra rb 1) = false → Drained s at_.lp →
    (s.lp at_.lp).records = [] → smGet (fun _ => none) s.cmp.lp at_.lp.val = some x → smGet (fun _ => none) s.cph.lp at_.lp.val = none →
    s.engineFull at_.lp { kind := .cmpx, rd := rd.toNat, ra := ra.toNat, rb := rb.toNat, budget := 1 } = false →
    let a := (s.lp at_.lp).arch
    let slen := (a.rdG (rd.toNat + 1)).toNat
    let k := x.codec.unitRead slen
    let ahead := x.codec.ahead
    let unit := min slen 256
    let v := atUnit s at_.lp { effCmpx rd ra rb 1 (s.slotCtx at_.lp) with slot := 1 } 4 fa
    let moved : Word := match c with | .comp _ => BitVec.ofNat 64 unit | .dec _ => BitVec.ofNat 64 used - BitVec.ofNat 64 ahead.length
    v.vRd at_.lp (a.rdG rd.toNat) k = .ok (u, bs) →
    (x.codec.keepAhead []).work (ahead ++ bs) (slen - k) (a.rdG (rd.toNat + 3)).toNat true (ahead.length + unit) = (c, used, out, .more) →
    u.vWr at_.lp (a.rdG (rd.toNat + 2)) out = .ok w →
    ∃ t, exec (.cmpx at_ rd ra rb 1) s = .next t ∧
      SameRegs a (t.lp at_.lp).arch ((List.range 4).map fun j => .g (rd.toNat + j)) ∧
      (rd ≠ 0 → (t.lp at_.lp).arch.rdG rd.toNat = a.rdG rd.toNat + moved) ∧
      (t.lp at_.lp).arch.rdG (rd.toNat + 1) = a.rdG (rd.toNat + 1) - moved ∧
      (t.lp at_.lp).arch.rdG (rd.toNat + 2) = a.rdG (rd.toNat + 2) + BitVec.ofNat 64 out.length ∧
      (t.lp at_.lp).arch.rdG (rd.toNat + 3) = a.rdG (rd.toNat + 3) - BitVec.ofNat 64 out.length ∧
      UnitLeaves a (t.lp at_.lp).arch 4 False ∧ bit (t.lp at_.lp).arch.progress 58 = true

namespace Sys2Proof.Claims

/-! ### Instruction words -/

/-- Format R (02 R55). -/
def rWord (major : Nat) (rd ra rb : Reg) (minor : Nat) : Nat :=
  major * 2 ^ 26 + rd.toNat * 2 ^ 20 + ra.toNat * 2 ^ 14 + rb.toNat * 2 ^ 8 + minor
/-- Formats I and M. -/
def iWord (major : Nat) (rd ra : Reg) (imm : BitVec 14) : Nat := major * 2 ^ 26 + rd.toNat * 2 ^ 20 + ra.toNat * 2 ^ 14 + imm.toNat
/-- Formats U, B and J. -/
def uWord (major : Nat) (rd : Reg) (imm : BitVec 20) : Nat := major * 2 ^ 26 + rd.toNat * 2 ^ 20 + imm.toNat

/-- The place and the word of an instruction (02 R55, R57, R59, R66, 07 R200, 08 R227). -/
def wordOf : Instr → Option (Issue × Nat)
  | .add a rd ra rb => some (a, rWord 0x0 rd ra rb 0x0)
  | .sub a rd ra rb => some (a, rWord 0x0 rd ra rb 0x1)
  | .and a rd ra rb => some (a, rWord 0x0 rd ra rb 0x2)
  | .or a rd ra rb => some (a, rWord 0x0 rd ra rb 0x3)
  | .xor a rd ra rb => some (a, rWord 0x0 rd ra rb 0x4)
  | .andn a rd ra rb => some (a, rWord 0x0 rd ra rb 0x5)
  | .sll a rd ra rb => some (a, rWord 0x0 rd ra rb 0x8)
  | .srl a rd ra rb => some (a, rWord 0x0 rd ra rb 0x9)
  | .sra a rd ra rb => some (a, rWord 0x0 rd ra rb 0xa)
  | .rol a rd ra rb => some (a, rWord 0x0 rd ra rb 0xb)
  | .slt a rd ra rb => some (a, rWord 0x0 rd ra rb 0x10)
  | .sltu a rd ra rb => some (a, rWord 0x0 rd ra rb 0x11)
  | .min a rd ra rb => some (a, rWord 0x0 rd ra rb 0x12)
  | .max a rd ra rb => some (a, rWord 0x0 rd ra rb 0x13)
  | .minu a rd ra rb => some (a, rWord 0x0 rd ra rb 0x14)
  | .maxu a rd ra rb => some (a, rWord 0x0 rd ra rb 0x15)
  | .cmovZ a rd ra rb => some (a, rWord 0x0 rd ra rb 0x18)
  | .cmovNz a rd ra rb => some (a, rWord 0x0 rd ra rb 0x19)
  | .selZ a rd ra rb => some (a, rWord 0x0 rd ra rb 0x1a)
  | .selNz a rd ra rb => some (a, rWord 0x0 rd ra rb 0x1b)
  | .mul a rd ra rb => some (a, rWord 0x0 rd ra rb 0x20)
  | .mulh a rd ra rb => some (a, rWord 0x0 rd ra rb 0x21)
  | .mulhu a rd ra rb => some (a, rWord 0x0 rd ra rb 0x22)
  | .div a rd ra rb => some (a, rWord 0x0 rd ra rb 0x24)
  | .divu a rd ra rb => some (a, rWord 0x0 rd ra rb 0x25)
  | .rem a rd ra rb => some (a, rWord 0x0 rd ra rb 0x26)
  | .remu a rd ra rb => some (a, rWord 0x0 rd ra rb 0x27)
  | .addi a rd ra imm => some (a, iWord 0x1 rd ra imm)
  | .andi a rd ra imm => some (a, iWord 0x2 rd ra imm)
  | .ori a rd ra imm => some (a, iWord 0x3 rd ra imm)
  | .xori a rd ra imm => some (a, iWord 0x4 rd ra imm)
  | .slti a rd ra imm => some (a, iWord 0x5 rd ra imm)
  | .shI a rd ra imm => some (a, iWord 0x6 rd ra imm)
  | .ldi a rd imm => some (a, uWord 0x7 rd imm)
  | .ldiSh a rd imm => some (a, uWord 0x8 rd imm)
  | .bfExt a rd ra pos len1 => some (a, 0x9 * 2 ^ 26 + rd.toNat * 2 ^ 20 + ra.toNat * 2 ^ 14 + pos.toNat * 2 ^ 8 + len1.toNat * 4 + 0)
  | .bfExts a rd ra pos len1 => some (a, 0x9 * 2 ^ 26 + rd.toNat * 2 ^ 20 + ra.toNat * 2 ^ 14 + pos.toNat * 2 ^ 8 + len1.toNat * 4 + 1)
  | .bfIns a rd ra pos len1 => some (a, 0x9 * 2 ^ 26 + rd.toNat * 2 ^ 20 + ra.toNat * 2 ^ 14 + pos.toNat * 2 ^ 8 + len1.toNat * 4 + 2)
  | .clz a rd ra => some (a, rWord 0xa rd ra 0 0x0)
  | .ctz a rd ra => some (a, rWord 0xa rd ra 0 0x1)
  | .popc a rd ra => some (a, rWord 0xa rd ra 0 0x2)
  | .permB a rd ra rb => some (a, rWord 0xa rd ra rb 0x8)
  | .crcStep32 a rd ra rb => some (a, rWord 0xb rd ra rb 0x0)
  | .crcStep32c a rd ra rb => some (a, rWord 0xb rd ra rb 0x1)
  | .crcStep64 a rd ra rb => some (a, rWord 0xb rd ra rb 0x2)
  | .parD a rd ra => some (a, rWord 0xb rd ra 0 0x8)
  | .parB a rd ra => some (a, rWord 0xb rd ra 0 0x9)
  | .brevD a rd ra => some (a, rWord 0xb rd ra 0 0xa)
  | .brevB a rd ra => some (a, rWord 0xb rd ra 0 0xb)
  | .ldB a rt base d => some (a, iWord 0x10 rt base d)
  | .ldBs a rt base d => some (a, iWord 0x11 rt base d)
  | .ldH a rt base d => some (a, iWord 0x12 rt base d)
  | .ldHs a rt base d => some (a, iWord 0x13 rt base d)
  | .ldW a rt base d => some (a, iWord 0x14 rt base d)
  | .ldWs a rt base d => some (a, iWord 0x15 rt base d)
  | .ldD a rt base d => some (a, iWord 0x16 rt base d)
  | .ldFd a rt base d => some (a, iWord 0x17 rt base d)
  | .ldFs a rt base d => some (a, iWord 0x18 rt base d)
  | .stB a rt base d => some (a, iWord 0x19 rt base d)
  | .stH a rt base d => some (a, iWord 0x1a rt base d)
  | .stW a rt base d => some (a, iWord 0x1b rt base d)
  | .stD a rt base d => some (a, iWord 0x1c rt base d)
  | .stFs a rt base d => some (a, iWord 0x1d rt base d)
  | .stFd a rt base d => some (a, iWord 0x1e rt base d)
  | .ldxB a rd ra rb => some (a, rWord 0x1f rd ra rb 0x0)
  | .ldxBs a rd ra rb => some (a, rWord 0x1f rd ra rb 0x1)
  | .ldxH a rd ra rb => some (a, rWord 0x1f rd ra rb 0x2)
  | .ldxHs a rd ra rb => some (a, rWord 0x1f rd ra rb 0x3)
  | .ldxW a rd ra rb => some (a, rWord 0x1f rd ra rb 0x4)
  | .ldxWs a rd ra rb => some (a, rWord 0x1f rd ra rb 0x5)
  | .ldxD a rd ra rb => some (a, rWord 0x1f rd ra rb 0x6)
  | .stxB a rd ra rb => some (a, rWord 0x1f rd ra rb 0x8)
  | .stxH a rd ra rb => some (a, rWord 0x1f rd ra rb 0x9)
  | .stxW a rd ra rb => some (a, rWord 0x1f rd ra rb 0xa)
  | .stxD a rd ra rb => some (a, rWord 0x1f rd ra rb 0xb)
  | .ldNtD a rd ra rb => some (a, rWord 0x1f rd ra rb 0x10)
  | .stNtD a rd ra rb => some (a, rWord 0x1f rd ra rb 0x11)
  | .casD a rd ra rb => some (a, rWord 0x1f rd ra rb 0x18)
  | .casQ a rd ra rb => some (a, rWord 0x1f rd ra rb 0x19)
  | .amoSwapD a rd ra rb => some (a, rWord 0x1f rd ra rb 0x1a)
  | .amoAddD a rd ra rb => some (a, rWord 0x1f rd ra rb 0x1b)
  | .amoAndD a rd ra rb => some (a, rWord 0x1f rd ra rb 0x1c)
  | .amoOrD a rd ra rb => some (a, rWord 0x1f rd ra rb 0x1d)
  | .barFull a rd ra rb => some (a, rWord 0x1f rd ra rb 0x20)
  | .barSt a rd ra rb => some (a, rWord 0x1f rd ra rb 0x21)
  | .fadd a d rd ra rb => some (a, rWord 0x20 rd ra rb (0x0 + if d then 0x80 else 0))
  | .fsub a d rd ra rb => some (a, rWord 0x20 rd ra rb (0x1 + if d then 0x80 else 0))
  | .fmul a d rd ra rb => some (a, rWord 0x20 rd ra rb (0x2 + if d then 0x80 else 0))
  | .fdiv a d rd ra rb => some (a, rWord 0x20 rd ra rb (0x3 + if d then 0x80 else 0))
  | .fmin a d rd ra rb => some (a, rWord 0x20 rd ra rb (0x5 + if d then 0x80 else 0))
  | .fmax a d rd ra rb => some (a, rWord 0x20 rd ra rb (0x6 + if d then 0x80 else 0))
  | .fcmpEq a d rd ra rb => some (a, rWord 0x20 rd ra rb (0x8 + if d then 0x80 else 0))
  | .fcmpLt a d rd ra rb => some (a, rWord 0x20 rd ra rb (0x9 + if d then 0x80 else 0))
  | .fcmpLe a d rd ra rb => some (a, rWord 0x20 rd ra rb (0xa + if d then 0x80 else 0))
  | .fsqrt a d rd ra => some (a, rWord 0x20 rd ra 0 (0x4 + if d then 0x80 else 0))
  | .fclass a d rd ra => some (a, rWord 0x20 rd ra 0 (0xb + if d then 0x80 else 0))
  | .fcvtL a d rd ra => some (a, rWord 0x20 rd ra 0 (0x10 + if d then 0x80 else 0))
  | .fcvtLu a d rd ra => some (a, rWord 0x20 rd ra 0 (0x11 + if d then 0x80 else 0))
  | .fcvtFl a d rd ra => some (a, rWord 0x20 rd ra 0 (0x12 + if d then 0x80 else 0))
  | .fcvtFlu a d rd ra => some (a, rWord 0x20 rd ra 0 (0x13 + if d then 0x80 else 0))
  | .fcvtP a d rd ra => some (a, rWord 0x20 rd ra 0 (0x14 + if d then 0x80 else 0))
  | .fmvGf a d rd ra => some (a, rWord 0x20 rd ra 0 (0x18 + if d then 0x80 else 0))
  | .fmvFg a d rd ra => some (a, rWord 0x20 rd ra 0 (0x19 + if d then 0x80 else 0))
  | .fma a d fd fa fb fc => some (a, 0x21 * 2 ^ 26 + fd.toNat * 2 ^ 21 + fa.toNat * 2 ^ 16 + fb.toNat * 2 ^ 11 + fc.toNat * 2 ^ 6 + 0 * 2 + if d then 1 else 0)
  | .fms a d fd fa fb fc => some (a, 0x21 * 2 ^ 26 + fd.toNat * 2 ^ 21 + fa.toNat * 2 ^ 16 + fb.toNat * 2 ^ 11 + fc.toNat * 2 ^ 6 + 1 * 2 + if d then 1 else 0)
  | .fnma a d fd fa fb fc => some (a, 0x21 * 2 ^ 26 + fd.toNat * 2 ^ 21 + fa.toNat * 2 ^ 16 + fb.toNat * 2 ^ 11 + fc.toNat * 2 ^ 6 + 2 * 2 + if d then 1 else 0)
  | .fnms a d fd fa fb fc => some (a, 0x21 * 2 ^ 26 + fd.toNat * 2 ^ 21 + fa.toNat * 2 ^ 16 + fb.toNat * 2 ^ 11 + fc.toNat * 2 ^ 6 + 3 * 2 + if d then 1 else 0)
  | .macQ15 a k ra rb => some (a, rWord 0x22 k ra rb 0x0)
  | .macQ31 a k ra rb => some (a, rWord 0x22 k ra rb 0x1)
  | .macQ63 a k ra rb => some (a, rWord 0x22 k ra rb 0x2)
  | .msuQ15 a k ra rb => some (a, rWord 0x22 k ra rb 0x4)
  | .msuQ31 a k ra rb => some (a, rWord 0x22 k ra rb 0x5)
  | .msuQ63 a k ra rb => some (a, rWord 0x22 k ra rb 0x6)
  | .accAdd a k ra rb => some (a, rWord 0x22 k ra rb 0xa)
  | .accClr a k => some (a, rWord 0x22 k 0 0 0x8)
  | .extQ15 a rd k => some (a, rWord 0x22 rd k 0 0x10)
  | .extQ31 a rd k => some (a, rWord 0x22 rd k 0 0x11)
  | .extQ63 a rd k => some (a, rWord 0x22 rd k 0 0x12)
  | .accRdl a rd k => some (a, rWord 0x22 rd k 0 0x14)
  | .accRdm a rd k => some (a, rWord 0x22 rd k 0 0x15)
  | .accRdh a rd k => some (a, rWord 0x22 rd k 0 0x16)
  | .accWrl a k ra => some (a, rWord 0x22 k ra 0 0x18)
  | .accWrm a k ra => some (a, rWord 0x22 k ra 0 0x19)
  | .accWrh a k ra => some (a, rWord 0x22 k ra 0 0x1a)
  | .bZ a ra d => some (a, uWord 0x30 ra d)
  | .bNz a ra d => some (a, uWord 0x31 ra d)
  | .bLt a ra d => some (a, uWord 0x32 ra d)
  | .bGe a ra d => some (a, uWord 0x33 ra d)
  | .jmp a rd d => some (a, uWord 0x34 rd d)
  | .jr a rd ra => some (a, rWord 0x35 rd ra 0 0x0)
  | .lpSet a level ra e => some (a, 0x36 * 2 ^ 26 + level.toNat * 2 ^ 24 + ra.toNat * 2 ^ 18 + e.toNat)
  | .mfcr a rd num => some (a, 0x38 * 2 ^ 26 + rd.toNat * 2 ^ 20 + num.toNat)
  | .mtcr a num ra => some (a, 0x39 * 2 ^ 26 + ra.toNat * 2 ^ 14 + num.toNat)
  | .sysCall a => some (a, rWord 0x3a 0 0 0 0x0)
  | .sysBrk a => some (a, rWord 0x3a 0 0 0 0x1)
  | .eret a => some (a, rWord 0x3a 0 0 0 0x8)
  | .wait a => some (a, rWord 0x3a 0 0 0 0x9)
  | .dzClr a => some (a, rWord 0x3a 0 0 0 0x10)
  | .cmCl a rd ra rb => some (a, rWord 0x3a rd ra rb 0x20)
  | .cmInv a rd ra rb => some (a, rWord 0x3a rd ra rb 0x21)
  | .cmCli a rd ra rb => some (a, rWord 0x3a rd ra rb 0x22)
  | .cmClR a rd ra rb => some (a, rWord 0x3a rd ra rb 0x24)
  | .cmInvR a rd ra rb => some (a, rWord 0x3a rd ra rb 0x25)
  | .cmCliR a rd ra rb => some (a, rWord 0x3a rd ra rb 0x26)
  | .cmClSw a rd ra rb => some (a, rWord 0x3a rd ra rb 0x28)
  | .cmInvSw a rd ra rb => some (a, rWord 0x3a rd ra rb 0x29)
  | .cmCliSw a rd ra rb => some (a, rWord 0x3a rd ra rb 0x2a)
  | .cmIsync a rd ra rb => some (a, rWord 0x3a rd ra rb 0x2c)
  | .cmLkfill a rd ra rb => some (a, rWord 0x3a rd ra rb 0x2e)
  | .tlbInvVa a rd ra rb => some (a, rWord 0x3a rd ra rb 0x30)
  | .tlbInvAsid a rd ra rb => some (a, rWord 0x3a rd ra rb 0x31)
  | .tlbInvAll a rd ra rb => some (a, rWord 0x3a rd ra rb 0x32)
  | .tlbInvPra a rd ra rb => some (a, rWord 0x3a rd ra rb 0x34)
  | .tlbInvPart a rd ra rb => some (a, rWord 0x3a rd ra rb 0x35)
  | .blkMv a rd ra rb _ => some (a, rWord 0x3b rd ra rb 0x0)
  | .blkCmp a rd ra rb _ => some (a, rWord 0x3b rd ra rb 0x1)
  | .blkCrc32 a rd ra rb _ => some (a, rWord 0x3b rd ra rb 0x2)
  | .blkCrc32c a rd ra rb _ => some (a, rWord 0x3b rd ra rb 0x3)
  | .blkCrc64 a rd ra rb _ => some (a, rWord 0x3b rd ra rb 0x4)
  | .cmpx a rd ra rb _ => some (a, rWord 0x3b rd ra rb 0x10)
  | .cphx a rd ra rb _ => some (a, rWord 0x3b rd ra rb 0x11)
  | _ => none

/-- The units that an instruction may run, if it is a long one. -/
def budgetOf : Instr → Nat
  | .blkMv _ _ _ _ k | .blkCmp _ _ _ _ k | .blkCrc32 _ _ _ _ k | .blkCrc32c _ _ _ _ k | .blkCrc64 _ _ _ _ k | .cmpx _ _ _ _ k
  | .cphx _ _ _ _ k => k
  | _ => 0

end Sys2Proof.Claims

/-! ### Instruction words, caches and translation -/

/-- 02 R55 to R59: the word of every instruction, as a bundle in memory holds it, is decoded to the very effect that the command of that instruction
stages; every field at every value. -/
def Obligations.EncodedWords : Prop :=
  ∀ (i : Instr) (at_ : Issue) (w : Nat), wordOf i = some (at_, w) →
    w < 2 ^ 32 ∧ ∃ mk, decWord (budgetOf i) w = some mk ∧ ∀ s, exec i s = State.done (s.stage at_ mk)

/-- 02 R55, R57: `ld.d g5, 64(g2)`, `bf.ext g10, g3, 12, 20`, `add g0, g0, g0`, `fma` of f1 to f4 in binary64, `mac.q31 acc1, g2, g3` and
`lp.set 2, g4, 5` have the words that the formats give. -/
def Obligations.EncodingExamples : Prop :=
  ∀ (a : Issue), wordOf (.ldD a 5 2 64) = some (a, 0x58508040) ∧ wordOf (.bfExt a 10 3 12 19) = some (a, 0x24A0CC4C) ∧
    wordOf (.add a 0 0 0) = some (a, 0) ∧ wordOf (.fma a true 1 2 3 4) = some (a, 0x84221901) ∧ wordOf (.macQ31 a 1 2 3) = some (a, 0x88108301) ∧
    wordOf (.lpSet a 2 4 5) = some (a, 0xDA100005)

namespace Sys2Proof.Claims

/-- LP n alone holds a line, at position k of its L2 and nowhere else; its data is where memory or that position has it (07 R185). -/
def SoleCopy (s : State) (n : Tri) (line k : Nat) : Prop :=
  (s.lp n).l2Find line = some k ∧ (∀ j, j ≠ k → ((s.lp n).l2.pos j).st = .i ∨ ((s.lp n).l2.pos j).line ≠ line) ∧
  (s.lp n).vbuf.length < 32 ∧ (∀ v ∈ (s.lp n).vbuf, v.line ≠ line) ∧ (∀ m, m ≠ n → (s.lp m).hasLine line = false) ∧ ∀ d, (s.l3Of d).find l3Sets line = none

/-- The arrays of the three cores of a triad (06 R144). -/
def coresOf (s : State) (n : Tri) : List CoreArr := [(s.lp n).lead, (s.lp n).second, (s.lp n).third]

end Sys2Proof.Claims

/-- 07 R201, R202: `cm.cl`, `cm.inv` and `cm.cli` change no register, and outside main memory nothing at all. Where the LP holds the only copy, a clean leaves
memory with the line's bytes and the line not modified, an invalidate leaves no copy, and only `cm.inv` gives up what was modified. -/
def Obligations.CacheLines : Prop :=
  ∀ (s : State) (i : Instr) (at_ : Issue) (act : CmAct) (va : Word) (r : Option Nat), lineOp s i = some (at_, act, va) → Ready s at_.lp →
    s.warm at_.lp → at_.last = true → at_.slot = 0 → unassigned i = false → levelOf s i ≤ (s.lp at_.lp).arch.pl → Drained s at_.lp → Unheld s at_.lp →
    s.cmXlat at_.lp (if act = .clean then .load else .store) va = .ok (r, {}) →
    ∃ t, exec i s = .next t ∧ SameRegs (s.lp at_.lp).arch (t.lp at_.lp).arch [] ∧ Sequential (s.lp at_.lp).arch (t.lp at_.lp).arch ∧
      (r = none → Executed s t at_.lp [] []) ∧
      ∀ abs k, r = some abs → SoleCopy s at_.lp (abs / 128) k →
        (∀ m, m ≠ at_.lp → t.lp m = s.lp m) ∧ (∀ a, t.reg a = s.reg a) ∧
        (act ≠ .clean → ∀ m, (t.lp m).hasLine (abs / 128) = false) ∧
        (act = .clean → (t.lp at_.lp).l2Find (abs / 128) = some k ∧ (t.lp at_.lp).l2St (abs / 128) ≠ .m) ∧
        (act ≠ .inv → ∀ a, a / 128 = abs / 128 → memByte t.mem a = s.byte a) ∧
        ∀ a, t.byte a = if act = .inv ∧ a / 128 = abs / 128 then memByte s.mem a else s.byte a

/-- 07 R203: a range operation stops at rb or at the next 64 KiB boundary and writes where it stopped to rd; an empty range does nothing else. -/
def Obligations.CacheRanges : Prop :=
  ∀ (s : State) (i : Instr) (at_ : Issue) (rd : Reg) (k : AccKind) (lo hi : Word), rangeOp s i = some (at_, rd, k, lo, hi) → Ready s at_.lp →
    s.warm at_.lp → at_.last = true → at_.slot = 0 → levelOf s i ≤ (s.lp at_.lp).arch.pl → Drained s at_.lp → Unheld s at_.lp →
    (lo.toNat < hi.toNat → ∃ x, s.cmXlat at_.lp k lo = .ok x) →
    ∃ t, exec i s = .next t ∧ SameRegs (s.lp at_.lp).arch (t.lp at_.lp).arch [.g rd.toNat] ∧
      SameSpecial (s.lpSealed at_.lp) (s.lp at_.lp).arch (t.lp at_.lp).arch [.g rd.toNat] [] ∧
      Sequential (s.lp at_.lp).arch (t.lp at_.lp).arch ∧
      (rd ≠ 0 → ((t.lp at_.lp).arch.rdG rd.toNat).toNat = if hi.toNat ≤ lo.toNat then hi.toNat else min hi.toNat ((lo.toNat / 65536 + 1) * 65536)) ∧
      (hi.toNat ≤ lo.toNat → Executed s t at_.lp [.g rd.toNat] [])

/-- 07 R204: an operation by set and way acts on the one position of the level-1, level-2 or level-3 array that ra names, invalidating or cleaning
it; a position that does not exist sets TRD_L2_STATUS bit 4 and changes no cache. -/
def Obligations.CacheSetWay : Prop :=
  ∀ (s : State) (i : Instr) (at_ : Issue) (inv : Bool) (a : Word), setWayOp s i = some (at_, inv, a) → Ready s at_.lp → s.warm at_.lp →
    at_.last = true → at_.slot = 0 → unassigned i = false → (s.lp at_.lp).arch.pl = 3 → Drained s at_.lp →
    Unheld s at_.lp →
    let level := a.toNat / 2 ^ 62
    let set := a.toNat / 2 ^ 4 % 2 ^ 17
    let way := a.toNat % 16
    let sets := if level < 2 then 128 else if level = 2 then 8192 else 131072
    let ways := if level < 2 then 4 else 16
    ∃ t, exec i s = .next t ∧ SameRegs (s.lp at_.lp).arch (t.lp at_.lp).arch [] ∧ Sequential (s.lp at_.lp).arch (t.lp at_.lp).arch ∧
      if a.toNat / 2 ^ 21 % 2 ^ 41 = 0 ∧ set < sets ∧ way < ways then
        (level = 0 → inv = true → ∀ c ∈ coresOf t at_.lp, smGet (fun _ => 0) c.l1i (set * 4 + way) = 0) ∧
        (level = 1 → inv = true → ∀ c ∈ coresOf t at_.lp, smGet (fun _ => 0) c.l1d (set * 4 + way) = 0) ∧
        (level = 2 → ((t.lp at_.lp).l2.pos (set * 16 + way)).st ≠ .m ∧ (inv = true → ((t.lp at_.lp).l2.pos (set * 16 + way)).st = .i)) ∧
        (level = 3 → (inv = true → ((t.l3Of (dieOf at_.lp)).pos (set * 16 + way)).st = .i) ∧
          ((s.l3Of (dieOf at_.lp)).find l3Sets ((s.l3Of (dieOf at_.lp)).pos (set * 16 + way)).line = some (set * 16 + way) →
            ((t.l3Of (dieOf at_.lp)).pos (set * 16 + way)).st ≠ .m))
      else bit (t.reg (aTrdL2Status at_.lp)) 4 = true ∧ Local s t at_.lp [] [] ∧
        (coresOf t at_.lp).map (fun c => (c.l1i, c.l1d)) = (coresOf s at_.lp).map (fun c => (c.l1i, c.l1d)) ∧ (t.lp at_.lp).l2 = (s.lp at_.lp).l2 ∧ t.l3 = s.l3 ∧ t.mem = s.mem

/-- 07 R205: `cm.isync` with nothing waiting to be performed changes no register and no byte. -/
def Obligations.InstructionSynchronisation : Prop :=
  ∀ (s : State) (at_ : Issue), Ready s at_.lp → at_.last = true → at_.slot = 0 → Drained s at_.lp → Unheld s at_.lp →
    ∃ t, exec (.cmIsync at_ 0 0 0) s = .next t ∧ Executed s t at_.lp [] [] ∧ Sequential (s.lp at_.lp).arch (t.lp at_.lp).arch

/-- 08 R227, R228: a TLB operation removes the entries it names, and no other, from every TLB of every LP, and changes no register and no byte. -/
def Obligations.TlbInvalidations : Prop :=
  ∀ (s : State) (i : Instr) (at_ : Issue) (gone : TlbEnt → Bool), tlbOp s i = some (at_, gone) → Ready s at_.lp → s.warm at_.lp →
    at_.last = true → at_.slot = 0 → unassigned i = false → levelOf s i ≤ (s.lp at_.lp).arch.pl → Drained s at_.lp → Unheld s at_.lp →
    (∀ m p, m ≠ at_.lp → p ≠ 0 → s.partBusy m p = false) →
    ∃ t, exec i s = .next t ∧ SameRegs (s.lp at_.lp).arch (t.lp at_.lp).arch [] ∧
      SameSpecial (s.lpSealed at_.lp) (s.lp at_.lp).arch (t.lp at_.lp).arch [] [] ∧ Sequential (s.lp at_.lp).arch (t.lp at_.lp).arch ∧
      (∀ m, (coresOf t m).map (·.tlbI) = (coresOf s m).map (fun c => c.tlbI.filter fun e => !gone e) ∧
        (coresOf t m).map (·.tlbD) = (coresOf s m).map (fun c => c.tlbD.filter fun e => !gone e) ∧ (t.lp m).tlb2 = (s.lp m).tlb2.filter fun e => !gone e) ∧
      (∀ m, m ≠ at_.lp → (t.lp m).arch = (s.lp m).arch) ∧ (∀ a, t.reg a = s.reg a) ∧ ∀ a, t.byte a = s.byte a

namespace Sys2Proof.Claims

/-! ### Commands that are no instruction -/

/-- What one command completes with: conditions on the state and the operands, and what holds of the next state then. -/
structure Event where
  pre : Prop
  post : State → Prop

/-- Every command of a table whose conditions hold completes, with the effect the table gives. -/
def Completes (base : State → Prop) (table : State → Instr → Option Event) : Prop :=
  ∀ (s : State) (i : Instr) (e : Event), base s → table s i = some e → e.pre → ∃ t, exec i s = .next t ∧ e.post t

/-- A calm state of the released module. -/
def Working (s : State) : Prop := s.calm = true ∧ s.kst.phase = .released

/-- Outside the registers listed, nothing that an LP, memory or a register holds has changed. -/
structure Only (s t : State) (rs : List Nat) : Prop where
  regs : ∀ a, a ∉ rs → t.reg a = s.reg a
  lps : t.lps = s.lps
  bytes : ∀ a, t.byte a = s.byte a

/-- Outside the registers listed and LP n, nothing that an LP, memory or a register holds has changed. -/
structure OnlyLp (s t : State) (n : Tri) (rs : List Nat) : Prop where
  regs : ∀ a, a ∉ rs → t.reg a = s.reg a
  others : ∀ m, m ≠ n → t.lp m = s.lp m
  bytes : ∀ a, t.byte a = s.byte a

/-- Field [h:l] one higher, at most at its largest value. -/
def upOne (s t : State) (a h l : Nat) : Prop := t.fld a h l = min (s.fld a h l + 1) (2 ^ (h + 1 - l) - 1)

/-- An event of a source would be reported and get a soft reaction of level 0 or 1 at a triad that qualifies (17 R442, R443). -/
def Soft (s : State) (src : Nat) : Prop :=
  s.fcu.errHold = false ∧ ∃ k n, srcClass src = some k ∧ s.fcuTarget k = some n ∧ s.fcuLevel k (s.fld (aFcuSrcCfg src) 1 0) ≤ 1

/-- Registers that the collector writes for a soft event of a source: its configuration and count, its class, the log's head and the pending
bits of the target. -/
def reportRegs (s : State) (src : Nat) : List Nat :=
  match srcClass src with
  | none => []
  | some k => [aFcuSrcCfg src, aFcuClassStat k, aFcuLogHead] ++ match s.fcuTarget k with
    | some n => (List.range 4).map (aTrdIntPend n)
    | none => []

/-- The collector has taken an event f and performed its soft reaction (17 R441 to R443, R446, R452): the source's SEEN and EVENTS, the class's
ACTIVE, UNACK, LAST_SRC and EVENTS, the log entry, and the vector posted. -/
def Reported (s t : State) (f : FaultInfo) : Prop :=
  ∀ k n, srcClass f.src = some k → s.fcuTarget k = some n →
    let lvl := s.fcuLevel k (s.fld (aFcuSrcCfg f.src) 1 0)
    let head := s.fld aFcuLogHead 31 0
    t.flag (aFcuSrcCfg f.src) 3 = true ∧ upOne s t (aFcuSrcCfg f.src) 63 48 ∧
    t.flag (aFcuClassStat k) 2 = true ∧ t.flag (aFcuClassStat k) 0 = true ∧ t.fld (aFcuClassStat k) 31 21 = f.src ∧
    upOne s t (aFcuClassStat k) 47 32 ∧
    t.fld aFcuLogHead 31 0 = (head + 1) % 2 ^ 32 ∧
    (∃ e, smGet (fun _ => none) t.fcu.log (head % 256) = some e ∧ e.seq = head ∧ e.src = f.src ∧ e.cls = k ∧ e.level = lvl ∧ e.held = false ∧
      e.tod = t.tod ∧ e.info = f) ∧
    t.pend n (if lvl = 0 then s.fld (aFcuClassCfg k) 39 32 else 33) = true

/-! ### Triads -/

/-- The roles that take part in voting, one bit each (06 R145, R148): all three of a triple; of a pair those that are not isolated. -/
def takingPart (s : State) (n : Tri) : Nat :=
  if s.mode n = 1 then 0b111
  else if (s.mode n = 2 ∨ s.mode n = 3) ∧ s.coreOf n .second = s.fld (aTrdState n) 28 24 then 0b101 else 0b011

/-- Commands of a triad (05 R127, 06 R148 to R174, 04 R117, 05 R125). -/
def triadEvent (s : State) : Instr → Option Event
  | .exceptionEntry n => some
    { pre := s.issues n = true ∧ (s.lp n).retried = false
      post := fun t =>
        (∀ v l fa h, s.nextEvent n = some (.vec v) → 32 ≤ v → (s.lp n).flushNear = false → (s.lp n).flushShared = false → CanEnter s n v l fa h →
          Entered s t n (s.lp n).arch v 0 0 0 l fa h ∧ t.pend n v = false ∧ (∀ w, w ≠ v → w < 256 → t.pend n w = s.pend n w) ∧
          ∀ m, m ≠ n → t.lp m = s.lp m) ∧
        (s.nextEvent n = none → (t.lp n).arch = (s.lp n).arch ∧ (t.lp n).records = (s.lp n).records ∧ OnlyLp s t n [aTrdPredCtl n] ∧
          (∀ c ∈ coresOf t n, ((s.lp n).flushNear = true → c.pred.bimodal = [] ∧ c.pred.stack = []) ∧
            ((s.lp n).flushShared = true → c.pred.global = [] ∧ c.pred.indirect = [] ∧ c.pred.gh = 0)) ∧
          ((s.lp n).flushNear = true ∨ (s.lp n).flushShared = true → t.flag (aTrdPredCtl n) 2 = false)) }
  | .voterRelease n b => some
    { pre := s.voting n = true ∧ (s.lp n).frozen = none ∧ (s.lp n).entry = none ∧ (s.lp n).haltReq = false ∧ (s.lp n).latent = [] ∧
        (∃ r rest, (s.lp n).records = r :: rest ∧ (s.lp n).roomFor r = true) ∧
        match b with
        | .agree => True
        | .odd _ _ _ regs => s.mode n = 1 ∧ regs = [] ∧ (s.lp n).rejoin = [] ∧ (∀ core, s.tooMany n core = false) ∧ Soft s (16 * n.val)
        | _ => False
      post := fun t => ∀ r rest, (s.lp n).records = r :: rest →
        (t.lp n).records = rest ∧ (t.lp n).voted = r.post ∧ (t.lp n).storeBuf = (s.lp n).storeBuf ++ r.stores ∧ (t.lp n).arch = (s.lp n).arch ∧
        (∀ m, m ≠ n → t.lp m = s.lp m) ∧ (∀ a, t.byte a = s.byte a) ∧ t.fld (aTrdState n) 35 34 = 0 ∧
        match b with
        | .odd role kind item _ =>
          let core := s.coreOf n role
          t.mode n = 2 ∧ t.fld (aTrdState n) 28 24 = core ∧
          (∃ x, (t.lp n).recov = .resync core x ∧ x.restart = false ∧ x.tgt = (t.lp n).lead) ∧
          (role ≠ .lead → ∀ k, t.coreOf n k = s.coreOf n k) ∧
          (role = .lead → t.coreOf n .lead = s.coreOf n .second ∧ t.coreOf n .second = s.coreOf n .third ∧ t.coreOf n .third = core) ∧
          (t.lp n).lead = (if role = .lead then (s.lp n).second else (s.lp n).lead) ∧
          t.reg (aTrdLastMismatch n) = BitVec.ofNat 64 (kind.toNat * 2 ^ 16 + 2 ^ 12 + roleBit role * 2 ^ 8 + item.toNat) ∧
          upOne s t (aTrdRasCount n) 15 0 ∧ upOne s t (aTrdRasCount n) 47 32 ∧ Reported s t { src := 16 * n.val } ∧
          ∀ a, a ∉ [aTrdState n, aTrdLastMismatch n, aTrdRasCount n] ++ reportRegs s (16 * n.val) → t.reg a = s.reg a
        | _ => ∀ a, a ≠ aTrdState n → t.reg a = s.reg a }
  | .instructionRetry n kind ⟨item, lost⟩ => some
    { pre := s.voting n = true ∧ (s.lp n).records ≠ [] ∧ (∀ r ∈ (s.lp n).records, r.evt = none ∧ r.trap = none) ∧
        s.fld (aTrdState n) 35 34 < 3 ∧ s.flag (aTrdState n) 31 = false ∧ (s.lp n).vsShadow = none ∧ (s.lp n).retryTold = false ∧
        (lost = [] → Soft s (16 * n.val + 1)) ∧
        (lost ≠ [] → Soft s (16 * n.val + 7) ∧ ∀ k, srcClass (16 * n.val + 7) = some k → s.fcuTarget k ≠ some n)
      post := fun t =>
        (lost = [] → (t.lp n).arch = (s.lp n).voted ∧ (t.lp n).voted = (s.lp n).voted ∧ (t.lp n).records = [] ∧
          (t.lp n).storeBuf = (s.lp n).storeBuf ∧ t.fld (aTrdState n) 35 34 = s.fld (aTrdState n) 35 34 + 1 ∧ t.mode n = s.mode n ∧
          upOne s t (aTrdRasCount n) 63 48 ∧
          t.reg (aTrdLastMismatch n) = BitVec.ofNat 64 (kind.toNat * 2 ^ 16 + 2 * 2 ^ 12 + takingPart s n * 2 ^ 8 + item.toNat) ∧
          Reported s t { src := 16 * n.val + 1 } ∧
          OnlyLp s t n ([aTrdState n, aTrdLastMismatch n, aTrdRasCount n] ++ reportRegs s (16 * n.val + 1))) ∧
        (lost ≠ [] → t.mode n = 5 ∧ t.checkstopped n = true ∧ t.flag (aTrdState n) 31 = true ∧ (t.lp n).records = [] ∧
          (t.lp n).voted = (s.lp n).voted ∧ (∀ i ∈ lost, (t.lp n).vsGet i.toNat = 0) ∧
          t.reg (aTrdLastMismatch n) = BitVec.ofNat 64 (kind.toNat * 2 ^ 16 + 3 * 2 ^ 12 + takingPart s n * 2 ^ 8 + item.toNat) ∧
          Reported s t { src := 16 * n.val + 7 } ∧
          OnlyLp s t n ([aTrdState n, aTrdLastMismatch n, aTrdExcStatus n] ++ reportRegs s (16 * n.val + 7))) }
  | .resyncFreeze n _ fails => some
    { pre := (s.lp n).records = [] ∧ fails = false ∧ ∃ core x, (s.lp n).recov = .resync core x ∧ x.restart = false ∧ core < 26
      post := fun t => ∀ core x, (s.lp n).recov = .resync core x →
        t.mode n = 1 ∧ t.coreOf n .third = core ∧ t.fld (aTrdState n) 28 24 = 0x1F ∧ t.coreOf n .lead = s.coreOf n .lead ∧
        t.coreOf n .second = (if s.coreOf n .second = s.fld (aTrdState n) 28 24 then s.coreOf n .third else s.coreOf n .second) ∧
        (t.lp n).third = (t.lp n).lead ∧ (t.lp n).recov = .none ∧ 32 ≤ (t.lp n).cycles - (s.lp n).cycles ∧
        (t.lp n).cycles ≤ (s.lp n).cycles + 96 ∧
        (t.lp n).arch = (s.lp n).arch ∧ (t.lp n).voted = (s.lp n).voted ∧ OnlyLp s t n [aTrdState n] }
  | .spareSubstitution n ok => some
    { pre := ok = true ∧ s.mode n = 3 ∧ ∃ core sp, (s.lp n).recov = .subst core sp none
      post := fun t => (∀ core sp, (s.lp n).recov = .subst core sp none →
          t.lp n = { s.lp n with recov := .subst core sp (some { tgt := (s.lp n).lead, touched := [], restart := false }) }) ∧
        upOne s t (aTrdRasCount n) 47 32 ∧ OnlyLp s t n [aTrdRasCount n] }
  | .trdCtlRecover n failed => some
    { pre := s.mode n = 5 ∧ s.domState n.val ≠ 3 ∧ (s.lp n).records = [] ∧ failed = [] ∧ ∃ a b c, s.ownCores n = [a, b, c]
      post := fun t => t.mode n = 6 ∧ t.checkstopped n = false ∧ (t.lp n).voted = (s.lp n).voted ∧
        (∀ a b c, s.ownCores n = [a, b, c] → t.coreOf n .lead = a ∧ t.coreOf n .second = b ∧ t.coreOf n .third = c) ∧
        OnlyLp s t n [aTrdState n, aTrdExcStatus n, aTrdSpare (8 * (n.val / 8))] }
  | .trdCtlStart n => some
    { pre := (s.mode n = 6 ∨ (s.mode n = 4 ∧ s.held n = true)) ∧ s.domState n.val ≠ 3 ∧ (s.lp n).vsShadow = none ∧ (s.lp n).vsLost = []
      post := fun t => t.mode n = (if s.mode n = 6 then 1 else 4) ∧ t.held n = false ∧ t.fld (aTrdState n) 35 34 = 0 ∧
        t.flag (aTrdState n) 31 = false ∧ (t.lp n).arch = (s.lp n).voted ∧ (t.lp n).voted = (s.lp n).voted ∧ (t.lp n).released = true ∧
        (∀ c ∈ coresOf t n, c.l1i = [] ∧ c.l1d = [] ∧ c.pred = Pred.reset) ∧ OnlyLp s t n [aTrdState n] }
  | .trdVsDataAccess n none => some
    { pre := s.domState n.val ≠ 3
      post := fun t => t.bus = (if s.vsOpen n then (s.lp n).vsGet (s.vsIndex n) else 0) ∧ Only s t [] }
  | .trdVsDataAccess n (some v) => some
    { pre := s.domState n.val ≠ 3
      post := fun t => OnlyLp s t n [] ∧ (t.lp n).arch = (s.lp n).arch ∧ (s.vsOpen n = false → t.lp n = s.lp n) ∧ (s.vsOpen n = true →
        let i := s.vsIndex n
        (1 ≤ i → i < 0x3F → (t.lp n).voted.rawG i = v) ∧ (0x40 ≤ i → i < 0x60 → (t.lp n).voted.rawF (i - 0x40) = v) ∧
        (i = 0x70 → (t.lp n).voted.pc = v &&& ~~~(15 : Word)) ∧ (i = 0x71 → (t.lp n).voted.npc = v &&& ~~~(15 : Word)) ∧
        ((0x74 ≤ i ∧ i < 0x78) ∨ (0x80 ≤ i ∧ i < 0x100) → (t.lp n).voted = (s.lp n).voted ∧ (t.lp n).vsShadow = (s.lp n).vsShadow) ∧
        i ∉ (t.lp n).vsLost) }
  | .flushNear n => some
    { pre := s.domState n.val ≠ 3
      post := fun t => t.lp n = { s.lp n with flushNear := true } ∧ t.flag (aTrdPredCtl n) 2 = true ∧ OnlyLp s t n [aTrdPredCtl n] }
  | .flushShared n => some
    { pre := s.domState n.val ≠ 3
      post := fun t => t.lp n = { s.lp n with flushShared := true } ∧ t.flag (aTrdPredCtl n) 2 = true ∧ OnlyLp s t n [aTrdPredCtl n] }
  | .trdIntPendWrite n k v => some
    { pre := True
      post := fun t => (∀ i, i < 64 → bit (t.reg (aTrdIntPend n k.val)) i =
          (bit (s.reg (aTrdIntPend n k.val)) i || (bit v i && decide (34 ≤ 64 * k.val + i)))) ∧ Only s t [aTrdIntPend n k.val] }
  | _ => none

end Sys2Proof.Claims

/-- 05 R127, R133, 06 R148 to R174, 04 R117, R118, 05 R125: the events of a triad. A boundary takes the first event that applies; the voter releases the oldest
record and corrects one odd core; a retry goes back to the voted state, unless a word of it is lost; the freeze of a resynchronisation makes the triad triple again; a substitution
goes on when the spare has passed its self-test; RECOVER re-forms a checkstopped triad and START starts it; the voted state is read and written by index;
a flush ordered waits for the boundary; pending bits are set. -/
def Obligations.TriadEvents : Prop := Completes Working triadEvent

namespace Sys2Proof.Claims

/-! ### Ticks, stores, devices and caches -/

/-- A boundary of which units take little note: no bundle or entry waits, no LP waits for its move, and no partition is or becomes Sealed. -/
structure PlainTick (s : State) : Prop where
  runs : s.tick.running = true ∧ s.pwr.todRun = true
  bound : s.nextBoundary < 2 ^ 64
  frozen : ∀ m, (s.lp m).frozen = none ∧ (s.lp m).entry = none ∧ (s.lp m).stopTick = false
  open_ : ∀ p, p ≤ 32 → s.sealed p = false ∧ bit (s.reg (aHubPartCfg p)) 63 = false
/-- No LP has a device access out, and no session is open. -/
def NoDevice (s : State) : Prop := (∀ m, (s.lp m).devReq = none ∧ (s.lp m).awaited = none ∧ (s.lp m).posted = []) ∧ s.spn.sessions = []
/-- No tick would be the fourth without an edge in follow mode (01 R35). -/
def NotLost (s : State) : Prop := s.fld aHubTickCfg 1 0 ≠ 1 ∨ s.tick.edge.isSome = true ∨ s.tick.missed < 3

/-- A boundary has taken place (01 R28, R30): its time and number, the period of the tick that begins, and the counters of every running unit copied
with the tick that has ended. -/
structure Boundary (s t : State) : Prop where
  tod : t.tod = s.nextBoundary ∧ t.reg aHubTickLastTod = BitVec.ofNat 64 s.nextBoundary
  num : t.reg aHubTickNum = s.reg aHubTickNum + 1
  period : t.tick.period = s.fld aHubTickPeriod 15 0
  bank : ∀ u w, u < 0x1D5 → cntUnit u = true → s.unitStopped u = false → 1 ≤ w → w < 16 →
    smGet (fun _ => 0) t.cnt.bank (16 * u + w) = smGet (fun _ => 0) s.cnt.live (16 * u + w)
  gen : t.fld aCntGen 63 32 = (s.reg aHubTickNum).toNat % 2 ^ 32 ∧ t.fld aCntGen 31 0 = (s.fld aCntGen 31 0 + 2) % 2 ^ 32

/-- The tick generator (01 R26 to R35). -/
def tickEvent (s : State) : Instr → Option Event
  | .tickBoundary => some
    { pre := PlainTick s ∧ NoDevice s ∧ NotLost s
      post := fun t => Boundary s t ∧ (∀ m, t.lp m = s.lp m) ∧ ∀ a, t.byte a = s.byte a }
  | .intervalExpiry k => some
    { pre := PlainTick s ∧ NoDevice s ∧ NotLost s ∧ ∃ c i, k = .quiet c ∧ smGet (fun _ => none) s.fcu.quiet c.val = some i ∧ i.ends s.nextBoundary = true
      post := fun t => Boundary s t ∧ ∀ c, k = .quiet c → t.flag (aFcuClassStat c.val) 2 = false ∧ t.fld (aFcuClassStat c.val) 4 3 = 0 ∧
        upOne s t (aFcuClassStat c.val) 63 48 ∧ smGet (fun _ => none) t.fcu.quiet c.val = none }
  | .quietIntervalExpiry c => some
    { pre := PlainTick s ∧ NoDevice s ∧ NotLost s ∧ ∃ i, smGet (fun _ => none) s.fcu.quiet c.val = some i ∧ i.ends s.nextBoundary = true
      post := fun t => Boundary s t ∧ t.flag (aFcuClassStat c.val) 2 = false ∧ t.fld (aFcuClassStat c.val) 4 3 = 0 ∧
        upOne s t (aFcuClassStat c.val) 63 48 ∧ smGet (fun _ => none) t.fcu.quiet c.val = none }
  | .hubTickPeriodWrite v => some
    { pre := True
      post := fun t => if 0x0500 ≤ v.toNat % 2 ^ 16 ∧ v.toNat % 2 ^ 16 ≤ 0xC800 then
          t.reg aHubTickPeriod = BitVec.ofNat 64 (v.toNat % 2 ^ 16) ∧ t.tick = s.tick ∧ Only s t [aHubTickPeriod]
        else t.flag aHubTickStatus 1 = true ∧ t.tick = s.tick ∧ Only s t [aHubTickStatus] }
  | .tickInEdge => some
    { pre := s.fld aHubTickCfg 1 0 = 1 ∧ s.tick.running = true ∧ s.tick.outLow = false
      post := fun t =>
        let b := s.tod + s.fld aHubTickCfg 27 16
        let d := b - (s.reg aHubTickLastTod).toNat
        if s.tick.period ≤ 2 * d ∧ 2 * d ≤ 3 * s.tick.period then t.nextBoundary = max b s.tod ∧ Only s t []
        else t.flag aHubTickStatus 2 = true ∧ t.tick = s.tick ∧ Only s t [aHubTickStatus] }
  | .tickInLost => some
    { pre := PlainTick s ∧ NoDevice s ∧ s.fld aHubTickCfg 1 0 = 1 ∧ s.tick.edge = none ∧ s.tick.missed = 3 ∧ s.fcu.quiet = [] ∧ Soft s 0x4C3
      post := fun t => Boundary s t ∧ t.flag aHubTickStatus 3 = true ∧ Reported s t { src := 0x4C3 } }
  | _ => none

/-- No bundle and no exception entry waits for anything. -/
def NoFrozen (s : State) : Prop := ∀ m, (s.lp m).frozen = none ∧ (s.lp m).entry = none

/-- A strict store or a posted write of LP n ends without success at the next boundary or with an error answer: what it reports and leaves. -/
def storeLost (s t : State) (n : Tri) (kind src addr part : Nat) : Prop :=
  Reported s t { src := src, info0 := addr, unit := n.val, part := part } ∧ t.flag (aTrdAseStatus n) 63 = true ∧
  t.fld (aTrdAseStatus n) 61 60 = kind ∧ t.fld (aTrdAseStatus n) 51 0 = addr ∧ (t.lp n).storeBuf = (s.lp n).storeBuf.drop 1 ∧ (t.lp n).stReq = none

/-- No cache holds a line twice (07 R185). -/
def OneCopy (s : State) (line : Nat) : Prop :=
  (∀ m j k, ((s.lp m).l2.pos j).st ≠ .i → ((s.lp m).l2.pos j).line = line → ((s.lp m).l2.pos k).st ≠ .i → ((s.lp m).l2.pos k).line = line → j = k) ∧
  ∀ d j k, ((s.l3Of d).pos j).st ≠ .i → ((s.l3Of d).pos j).line = line → ((s.l3Of d).pos k).st ≠ .i → ((s.l3Of d).pos k).line = line → j = k

/-- LP n waits with a bundle whose one instruction loads rd from a device, its access out (02 R54, 09 R251), nothing older holding it
back and the device's clock running. -/
structure LoadWaits (s : State) (n : Tri) (rd size : Nat) : Prop where
  bundle : ∃ e va ac top, e = { slot := e.slot, group := .memory, dests := [.g rd], reads := e.reads, mem := some (.load (.g rd) va size .zero false) } ∧
    (s.lp n).frozen = some { effs := [e], fetched := true, top := top, todo := some [{ slot := e.slot, op := .load (.g rd) va size .zero false, acc := ac }] } ∧
    (ac.region = .devPosted ∨ ac.region = .devStrict) ∧ (∀ x ∈ ac.fills, x = {}) ∧
    ∃ r, (s.lp n).devReq = some r ∧ r.slot = e.slot ∧ r.pc = (s.lp n).arch.pc ∧ isCtl r.addr = false ∧ s.devShut r.addr = false
  first : (s.lp n).unperformedDev = false ∧ (s.lp n).unperformed false = false

/-- Stores, devices, caches and register writes (09 R233 to R253, 07 R186 to R199, 01 R18). -/
def memoryEvent (s : State) : Instr → Option Event
  | .storePerformed n => some
    { pre := NoFrozen s ∧ ∃ st rest, (s.lp n).storeBuf = st :: rest ∧
        match st.kind with
        | .cache => (s.lp n).comb = [] ∧ (st.bytes.map (·.1)).Nodup ∧ ∀ b ∈ st.bytes, s.memOk b.1 = true ∧ Owns s n (b.1 / 128)
        | .nt => (s.lp n).comb = [] ∧ st.bytes ≠ [] ∧ st.bytes.length < 128 ∧ (st.bytes.map (·.1)).Nodup
        | .fence => (s.lp n).comb = []
        | .devPosted => True
        | .devStrict => (s.lp n).stReq = none
        | .ctl => st.addr = aHubTickPeriod ∧ st.bytes.length = 8
      post := fun t => ∀ st rest, (s.lp n).storeBuf = st :: rest →
        let req : DevReq := { addr := st.addr, size := st.bytes.length, slot := 0, part := st.part, due := none }
        let data := BitVec.ofNat 64 (leNat (st.bytes.map (·.2)))
        (t.lp n).storeBuf = (if st.kind = .devStrict then st :: rest else rest) ∧ (t.lp n).arch = (s.lp n).arch ∧
        (∀ m, m ≠ n → t.lp m = s.lp m) ∧
        (st.kind = .cache → ∀ a, t.byte a = match st.bytes.find? (fun b => b.1 = a) with | some b => b.2 | none => s.byte a) ∧
        (st.kind ≠ .cache → ∀ a, t.byte a = s.byte a) ∧
        (st.kind = .nt → (t.lp n).comb = [{ line := st.addr / 128, bytes := st.bytes, parts := 2 ^ st.part }]) ∧
        (st.kind = .devPosted → (t.lp n).posted = (s.lp n).posted ++ [req]) ∧ (st.kind = .devStrict → (t.lp n).stReq = some req) ∧
        (st.kind = .ctl → 0x0500 ≤ data.toNat % 2 ^ 16 → data.toNat % 2 ^ 16 ≤ 0xC800 →
          t.reg aHubTickPeriod = BitVec.ofNat 64 (data.toNat % 2 ^ 16) ∧ ∀ a, a ≠ aHubTickPeriod → t.reg a = s.reg a) }
  | .combiningBufferDrain n line => some
    { pre := NoFrozen s ∧ s.memOk (128 * line) = true ∧ OneCopy s line ∧
        ∃ c, (s.lp n).comb.find? (fun c => c.line = line) = some c ∧ (c.bytes.map (·.1)).Nodup ∧ ∀ b ∈ c.bytes, b.1 / 128 = line
      post := fun t => (t.lp n).comb = (s.lp n).comb.filter (fun c => c.line ≠ line) ∧ (∀ m, (t.lp m).arch = (s.lp m).arch) ∧
        (∀ a, (∀ m, a ≠ aTrdL2Status m) → t.reg a = s.reg a) ∧
        ∀ c, (s.lp n).comb.find? (fun c => c.line = line) = some c →
          (c.bytes ≠ [] → ∀ m, (t.lp m).hasLine line = false) ∧
          ∀ a, t.byte a = match c.bytes.find? (fun b => b.1 = a) with | some b => b.2 | none => s.byte a }
  | .deviceAccessAnswer n acc ok data => some
    { pre := (∀ m, (s.lp m).entry = none ∧ (m ≠ n ∨ acc ≠ .load → (s.lp m).frozen = none)) ∧
        match acc with
        | .load => ok = true ∧ ∃ rd size, LoadWaits s n rd size ∧ 0 < rd ∧ rd < 63 ∧ size ≤ 8
        | .store => ∃ r st, (s.lp n).awaited = some (r, st) ∧ s.devShut r.addr = false ∧ (ok = true → st.kind = .devStrict) ∧
            (ok = false → s.flag (aTrdAseStatus n) 63 = false ∧ Soft s (16 * n.val + 15) ∧ r.addr < 2 ^ 52)
        | .posted k => ∃ r, (s.lp n).posted[k]? = some r ∧ s.devShut r.addr = false ∧ (ok = false → Soft s 0x4C7)
      post := fun t => (∀ m, m ≠ n → t.lp m = s.lp m) ∧ (∀ a, t.byte a = s.byte a) ∧
        match acc with
        | .load => (∀ rd size, LoadWaits s n rd size → (t.lp n).arch.rawG rd = BitVec.ofNat 64 (data.toNat % 2 ^ (8 * size))) ∧
            (t.lp n).devReq = none ∧ (t.lp n).frozen = none ∧ (isLoopEnd (s.lp n).arch = false → (t.lp n).arch.pc = (s.lp n).arch.npc)
        | .store => (ok = true → t.lp n = { s.lp n with storeBuf := (s.lp n).storeBuf.drop 1, stReq := none } ∧ ∀ a, t.reg a = s.reg a) ∧
            (ok = false → ∀ r st, (s.lp n).awaited = some (r, st) → storeLost s t n 2 (16 * n.val + 15) r.addr r.part)
        | .posted k => (t.lp n).posted = (s.lp n).posted.eraseIdx k ∧ (ok = true → ∀ a, t.reg a = s.reg a) ∧
            (ok = false → ∀ r, (s.lp n).posted[k]? = some r → Reported s t { src := 0x4C7, info0 := r.addr, part := r.part }) }
  | .deviceTimeout n acc => some
    { pre := PlainTick s ∧ NotLost s ∧ s.fcu.quiet = [] ∧ s.spn.sessions = [] ∧ acc = .store ∧
        (∀ m, (s.lp m).devReq = none ∧ (s.lp m).posted = [] ∧ (m ≠ n → (s.lp m).awaited = none)) ∧
        s.flag (aTrdAseStatus n) 63 = false ∧ Soft s (16 * n.val + 14) ∧
        (s.lp n).storeBuf ≠ [] ∧ ∃ r d, (s.lp n).stReq = some r ∧ r.due = some d ∧ d ≤ s.nextBoundary ∧ r.addr < 2 ^ 52
      post := fun t => Boundary s t ∧ ∀ r, (s.lp n).stReq = some r → storeLost s t n 1 (16 * n.val + 14) r.addr r.part }
  | .cacheFill n line => some
    { pre := (s.lp n).l2Find line = none ∧ (∀ v ∈ (s.lp n).vbuf, v.line ≠ line) ∧ (∀ m, m ≠ n → (s.lp m).hasLine line = false) ∧
        (∀ d, (s.l3Of d).find l3Sets line = none) ∧ (∀ k, k / 16 = line % 8192 → ((s.lp n).l2.pos k).st = .i) ∧
        (∀ k, k / 16 = line % 131072 → ((s.l3Of (dieOf n)).pos k).st = .i) ∧
        s.memOk (128 * line) = true ∧ s.fillWaits n line = false ∧ (s.lp n).missWait = [] ∧
        ∃ r, (s.lp n).missOf line = some r ∧ r.own = false ∧ r.prefetch = false
      post := fun t => (t.lp n).missOf line = none ∧ (t.lp n).l2St line = .e ∧ ((t.l3Of (dieOf n)).find l3Sets line).isSome = true ∧
        (t.lp n).arch = (s.lp n).arch ∧ OnlyLp s t n [] }
  | .directoryRequest n line => some
    { pre := (s.l3Of (dieOf n)).find l3Sets line = none ∧ ∃ r, (s.lp n).missOf line = some r ∧ r.left = false ∧ r.own = false
      post := fun t => (∀ r, (t.lp n).missOf line = some r → r.left = true) ∧ (∀ m, (t.lp m).arch = (s.lp m).arch) ∧
        (∀ m, m ≠ n → (t.lp m).l2St line ≠ .m ∧ (t.lp m).l2St line ≠ .e) ∧ ((t.l3Of (dieOf n)).find l3Sets line).isSome = true ∧
        ∀ a, (∀ m, a ≠ aTrdL2Status m) → t.reg a = s.reg a }
  | .victimBufferAck n k => some
    { pre := k < (s.lp n).vbuf.length ∧ ∀ v, (s.lp n).vbuf[k]? = some v → (s.lp n).l2Find v.line = none ∧ v.toMem = true ∧ v.issued = false ∧ s.memOk (128 * v.line) = true ∧
        (∀ d, (s.l3Of d).find l3Sets v.line = none) ∧ (∀ m, m ≠ n → (s.lp m).hasLine v.line = false) ∧
        ∀ j w, (s.lp n).vbuf[j]? = some w → w.line = v.line → j = k
      post := fun t => (t.lp n).vbuf = (s.lp n).vbuf.eraseIdx k ∧ (t.lp n).arch = (s.lp n).arch ∧ OnlyLp s t n [] ∧
        ∀ v, (s.lp n).vbuf[k]? = some v → ∀ i, i < 128 → memByte t.mem (128 * v.line + i) = lineByte v.data i }
  | .d2dFlitFail die dir => some
    { pre := Soft s 0x4C2
      post := fun t => Reported s t { src := 0x4C2, idA := b2n dir, unit := die.val } ∧ Only s t (reportRegs s 0x4C2) }
  | .hubOrderModeWrite v => some
    { pre := True
      post := fun t => (∀ k, k ≤ 32 → bit (t.reg aHubOrderMode) k = bit v k) ∧ Only s t [aHubOrderMode] }
  | .registerWrite part addr size v => some
    { pre := (part ≠ 0 ∧ size = 8 ∧ addr.toNat % 8 = 0 → Soft s 0x4C0)
      post := fun t =>
        (size ≠ 8 ∨ addr.toNat % 8 ≠ 0 → Only s t []) ∧
        (size = 8 → addr.toNat % 8 = 0 → part ≠ 0 →
          Reported s t { src := 0x4C0, info0 := addr.toNat, part := part.toNat } ∧ Only s t (reportRegs s 0x4C0)) ∧
        (size = 8 → part = 0 → addr.toNat = aHubDevTimeout →
          t.fld aHubDevTimeout 7 0 = (if v.toNat % 256 = 0 then s.fld aHubDevTimeout 7 0 else v.toNat % 256) ∧ Only s t [aHubDevTimeout]) }
  | _ => none

end Sys2Proof.Claims

/-- 01 R26 to R35, 17 R448, 20 R502: the commands of the tick generator: a boundary with its snapshot of the counters, an interval that ends at it, a write of
the period, an edge of TICK_IN and its loss. -/
def Obligations.TickEvents : Prop := Completes Working tickEvent

/-- 09 R233 to R235, R245, R246, R250 to R253, 07 R186, R191, R197, 01 R18: a store is performed, a combining line drains, a device answers or does not, a miss is requested and
filled, a victim is acknowledged, and control registers are written. -/
def Obligations.MemoryEvents : Prop := Completes Working memoryEvent

namespace Sys2Proof.Claims

/-! ### Clocks, power, temperatures, memory links, faults -/

/-- A soft event that a command reports, with other registers it changes besides the collector's. -/
def Tells (s t : State) (f : FaultInfo) (rs : List Nat) : Prop := Reported s t f ∧ Only s t (rs ++ reportRegs s f.src)

/-- PWR_DOM of the spare cores, which follow the triad they are attached to (18 R473). -/
def spareDoms : List Nat := (List.range 8).map fun k => aPwrDom (32 + k)

/-- CLK_STATUS.REFSTATE (18 R459). -/
def refIs (s : State) (k : Nat) : Prop := s.fld aClkStatus 2 0 = k

/-- Clocks, gates, domains, sensors (18 R459 to R477, 21 R514, R521 to R528). -/
def powerEvent (s : State) : Instr → Option Event
  | .refclkMonitorTrip => some
    { pre := (s.fld aClkStatus 2 0 = 1 ∨ s.fld aClkStatus 2 0 = 2 ∨ s.fld aClkStatus 2 0 = 3) ∧ (s.fld aClkStatus 2 0 ≠ 3 → Soft s 0x4D4)
      post := fun t => t.flag aClkStatus 3 = false ∧
        (refIs s 1 → refIs t 2 ∧ t.pcieRefclk = .crystal ∧ t.pwr.unlocked = [] ∧ Tells s t { src := 0x4D4, idA := 1 } [aClkStatus]) ∧
        (refIs s 2 → refIs t 2 ∧ Tells s t { src := 0x4D4, idA := 2 } [aClkStatus]) ∧
        (refIs s 3 → refIs t 4 ∧ t.pcieRefclk = .stopped ∧ t.flag aClkStatus 5 = true ∧ t.flag aClkStatus 6 = true ∧ t.pwr.holdTod = s.tod ∧
          t.fcu.late = s.fcu.late ++ [{ src := 0x4D4, idA := 3 }] ∧ Only s t [aClkStatus]) }
  | .crystalMonitorTrip => some
    { pre := (s.fld aClkStatus 2 0 = 1 ∨ s.fld aClkStatus 2 0 = 2) ∧ (refIs s 1 ∨ s.flag aClkStatus 3 = true → Soft s 0x4D5)
      post := fun t => t.flag aClkStatus 4 = false ∧
        (refIs s 1 ∨ s.flag aClkStatus 3 = true → refIs t 3 ∧ Tells s t { src := 0x4D5, idA := s.fld aClkStatus 2 0 } [aClkStatus]) ∧
        (refIs s 2 → s.flag aClkStatus 3 = false → refIs t 4 ∧ t.pwr.holdTod = s.tod ∧ Only s t [aClkStatus]) }
  | .crystalStartCount => some
    { pre := s.flag aClkStatus 4 = false
      post := fun t => t.flag aClkStatus 4 = true ∧ Only s t [aClkStatus] ∧ (refIs s 3 → refIs t 1) ∧ (refIs s 0 → t.pwr.todRun = true ∧ refIs t 0) ∧
        (refIs s 2 → refIs t 2) }
  | .refclkJudgedSound => some
    { pre := True, post := fun t => t.flag aClkStatus 3 = true ∧ t.fld aClkStatus 2 0 = s.fld aClkStatus 2 0 ∧ Only s t [aClkStatus] }
  | .returnRef => some
    { pre := refIs s 2 ∧ s.flag aClkStatus 3 = true
      post := fun t => refIs t 1 ∧ t.pcieRefclk = .refclk ∧ t.pwr.unlocked = [] ∧ Only s t [aClkStatus] }
  | .clkPllUnlock pll => some
    { pre := ¬refIs s 0 ∧ Soft s 0x4D7
      post := fun t => Tells s t { src := 0x4D7, idA := pll.val } [] ∧ smGet (fun _ => false) t.pwr.unlocked pll.val = true }
  | .clkTrdFreqWrite n v => some
    { pre := s.flag (aClkTrdFreq n.val) 63 = false ∧ (s.lp n).records = [] ∧ (s.lp n).frozen = none
      post := fun t =>
        let new := v.toNat % 128
        let old := s.fld (aClkTrdFreq n.val) 6 0
        (new < 8 ∨ 104 < new → t.reg (aClkTrdFreq n.val) = s.reg (aClkTrdFreq n.val) ∧ t.pwr.freq = []) ∧
        (8 ≤ new → new ≤ 104 → t.fld (aClkTrdFreq n.val) 6 0 = new ∧ Only s t [aClkTrdFreq n.val] ∧
          (old ≤ new → 950 ≤ s.vdd (dieOf n) → t.flag (aClkTrdFreq n.val) 63 = false ∧ t.pwr.freq = [] ∧ t.vdd (dieOf n) = s.vdd (dieOf n)) ∧
          (old < new → s.vdd (dieOf n) < vddOf new → s.domState n.val ≠ 3 → s.mode n ≠ 0 →
            t.flag (aClkTrdFreq n.val) 63 = true ∧ t.vdd (dieOf n) = t.vddNeed (dieOf n) ∧ vddOf new ≤ t.vdd (dieOf n) ∧
            t.pwr.freq = [{ tri := n.val, old := old, new := new, avs := true, lower := false }])) }
  | .clkGateWrite v => some
    { pre := True
      post := fun t => Only s t [aClkGate 0, aClkGate 1, aClkStatus] ∧ t.fld aClkStatus 2 0 = s.fld aClkStatus 2 0 ∧
        ∀ b, b < 33 → b < 17 ∨ 19 < b →
          let refused := bit v b = false ∧ s.flag (aClkGate 0) b = true ∧ s.gateRefused b = true
          (t.flag (aClkGate 0) b = true ↔ bit v b = true ∨ refused) ∧
          (t.flag (aClkGate 1) b = true ↔ bit v b = false ∧
            (s.flag (aClkGate 1) b = true ∨ (s.flag (aClkGate 0) b = true ∧ s.gateRefused b = false))) ∧
          (refused → t.flag aClkStatus 7 = true) }
  | .gateClosure b forced => some
    { pre := s.flag (aClkGate 1) b.val = true ∧ (forced.isSome = true → Soft s 0x4D8 ∧
        (28 ≤ b.val → b.val < 32 → ∀ m, (s.lp m).devReq = none ∧ (s.lp m).stReq = none ∧ (s.lp m).posted = []))
      post := fun t => t.flag (aClkGate 1) b.val = false ∧ (forced = none → Only s t [aClkGate 1]) ∧
        ∀ p, forced = some p → Tells s t { src := 0x4D8, idA := b.val, part := p.toNat } [aClkGate 1] }
  | .cmdOff d v _ => some
    { pre := bit v 63 = true ∧ s.flag (aPwrDom d.val) 63 = false ∧ (s.offOk d.val = true → d.val < 32 ∨ (40 ≤ d.val ∧ d.val < 44))
      post := fun t => t.fld (aPwrDom d.val) 5 4 = bits v 5 4 ∧
        (s.offOk d.val = true → t.flag (aPwrDom d.val) 63 = true ∧ t.domState d.val = 3 ∧
          (d.val < 32 → let n := triOf d.val
            (∀ r, r < 64 → (t.lp n).voted.rawG r = 0) ∧ (t.lp n).records = [] ∧ (t.lp n).l2.ways = [] ∧
            ∀ line x, ((s.lp n).l2Mod line = some x ∨ ((s.lp n).l2Mod line = none ∧ (s.lp n).vbMod line = some x)) →
              s.memOk (128 * line) = true → (∀ m, m ≠ n → (s.lp m).hasLine line = false) →
              (∀ d, (s.l3Of d).find l3Sets line = none) → ∀ i, i < 128 → t.byte (128 * line + i) = lineByte x.1 i) ∧
          ∀ m, m ≠ triOf d.val ∨ 32 ≤ d.val → (t.lp m).arch = (s.lp m).arch) ∧
        (s.offOk d.val = false → t.flag (aPwrDom d.val) 62 = true ∧ t.flag (aPwrDom d.val) 63 = false ∧ t.domState d.val = s.domState d.val ∧
          Only s t [aPwrDom d.val]) }
  | .pwrDomainFail d => some
    { pre := d.val < 32 ∧ s.domState d.val = 0 ∧ s.domUsable d.val = true ∧ Soft s 0x4D9 ∧ ∀ k, s.fcuTarget k ≠ some (triOf d.val)
      post := fun t => Reported s t { src := 0x4D9, idA := d.val } ∧ t.domState d.val = 3 ∧ t.domUsable d.val = false ∧
        t.mode (triOf d.val) = 0 ∧ (t.lp (triOf d.val)).released = false ∧ ∀ m, m ≠ triOf d.val → (t.lp m).arch = (s.lp m).arch }
  | .idleEntry d => some
    { pre := s.idleOk d.val = true ∧ s.nextKnown d.val = none
      post := fun t => Only s t ([aPwrDom d.val, aPwrDom 62] ++ spareDoms) ∧ t.domState d.val =
        (if d.val = 60 then (if s.fld (aPwrDom d.val) 5 4 = 3 then 3 else 0) else min (s.fld (aPwrDom d.val) 5 4) (if d.val < 32 then 2 else 3)) }
  | .idleExit d => some
    { pre := d.val < 32 ∨ (44 ≤ d.val ∧ d.val < 48) ∨ d.val = 60
      post := fun t => Only s t ([aPwrDom d.val, aPwrDom 62] ++ spareDoms) ∧ (s.domUsable d.val = true → t.domState d.val = 0 ∧
        (s.domState d.val ≠ 0 → upOne s t (aPwrDom d.val) 31 16)) }
  | .todComparatorFire k => some
    { pre := s.flag (aClkTodcmpCfg k.val) 63 = true ∧ (s.reg (aClkTodcmpVal k.val)).toNat ≤ s.tod ∧ s.pwr.todRun = true
      post := fun t =>
        let n := triOf (s.fld (aClkTodcmpCfg k.val) 12 8)
        let v := s.fld (aClkTodcmpCfg k.val) 7 0
        t.flag (aClkTodcmpCfg k.val) 63 = false ∧ t.flag (aClkTodcmpCfg k.val) 62 = true ∧ t.pend n v = true ∧
        Only s t [aClkTodcmpCfg k.val, aTrdIntPend n (v / 64)] }
  | .sensorRead rs => some
    { pre := rs.length = 36 ∧ s.therm.trip = false ∧ (s.overTemp rs 115 = none →
        s.therm.armed = true → (s.fld aPwrThermCfg 7 0 : Int) ≤ temp (hottest ((List.range 5).map (s.dieTemp rs))) → Soft s 0x4E5)
      post := fun t =>
        let mx := hottest ((List.range 5).map (s.dieTemp rs))
        let warn : Int := s.fld aPwrThermCfg 7 0
        (s.overTemp rs 115 = none →
          t.fld aPwrThermStatus 7 0 = mx.toNat ∧ (∀ d, d < 5 → t.fld aPwrThermStatus (8 * d + 15) (8 * d + 8) = (s.dieTemp rs d).toNat) ∧
          t.therm.trip = false ∧ (s.therm.armed = true → warn ≤ temp mx → t.therm.armed = false ∧ t.therm.warn = true ∧
            ∃ u, Tells s t { src := 0x4E5, idA := mx.toNat, unit := u } [aPwrThermStatus]) ∧
          (s.therm.armed = true → temp mx < warn → t.therm = s.therm ∧ Only s t [aPwrThermStatus]) ∧
          (s.therm.armed = false → temp mx + 5 ≤ warn → t.therm.armed = true ∧ t.therm.warn = false)) ∧
        (∀ x, s.overTemp rs 115 = some x → t.therm.trip = true ∧ (s.canSave = false → t.therm.stopped = true) ∧
          (s.canSave = true → s.overTemp rs 125 = none →
            t.save.phase = .quiesce ∧ t.save.thermal = true ∧ t.save.stay = true ∧ t.save.cause = 2 + 256 * 9)) }
  | .i2cRead code => some
    { pre := True
      post := fun t => Only s t [] ∧ t.bus.toNat =
        (if code = 0 then s.fld aPwrThermStatus 7 0 else if code.toNat ≤ 4 then s.fld aPwrThermStatus (8 * code.toNat + 7) (8 * code.toNat)
          else if code = 5 then s.fld aPwrThermStatus 47 40 else if code = 0x10 then b2n s.therm.trip + 2 * b2n s.therm.warn else 0xFF) }
  | .pwrRailUv rail voltage => some
    { pre := s.kst.pwrok = true ∧ Soft s 0x4E4
      post := fun t => Tells s t { src := 0x4E4, idA := rail.toNat, idB := voltage.toNat } [] }
  | _ => none

/-- The answers of a voltage regulator to the one frequency change that waits for it (18 R467, 21 R514). -/
def regulatorEvent (s : State) : Instr → Option Event
  | .voltageWriteAcknowledge die => some
    { pre := ∃ f, s.pwr.freq = [f] ∧ f.avs = true ∧ f.lower = false ∧ f.old < f.new ∧ f.tri < 32 ∧ dieOf (triOf f.tri) = die ∧
        (s.lp (triOf f.tri)).records = [] ∧ (s.lp (triOf f.tri)).frozen = none
      post := fun t => ∀ f, s.pwr.freq = [f] → t.pwr.freq = [] ∧ t.flag (aClkTrdFreq f.tri) 63 = false ∧
        t.fld (aClkTrdFreq f.tri) 6 0 = s.fld (aClkTrdFreq f.tri) 6 0 ∧ Only s t [aClkTrdFreq f.tri] }
  | .avsWriteTimeout die => some
    { pre := (∃ f, s.pwr.freq = [f] ∧ f.avs = true ∧ f.old < 128 ∧ f.tri < 32 ∧ dieOf (triOf f.tri) = die) ∧ Soft s 0x4DA
      post := fun t => ∀ f, s.pwr.freq = [f] → t.pwr.freq = [] ∧ t.flag (aClkTrdFreq f.tri) 63 = false ∧ t.fld (aClkTrdFreq f.tri) 6 0 = f.old ∧
        Tells s t { src := 0x4DA, idA := s.vdd die, unit := die.val } [aClkTrdFreq f.tri] ∧ t.vdd die = t.vddNeed die }
  | _ => none

/-- Sources whose event costs a cache line: parity of an L1, errors of an L2 or an L3 that correction does not cover (07 R207). -/
def arrayLine (src : Nat) : Bool :=
  (decide (src < 0x200) && [8, 10, 11, 12].contains (src % 16)) || (decide (0x200 ≤ src) && decide (src < 0x240) && [1, 2, 3].contains (src % 16))

/-- Memory links, faults and their acknowledgement (10 R259, R262, 17 R441 to R447). -/
def faultTable (s : State) : Instr → Option Event
  | .memLaneDegrade m => some
    { pre := (s.linkState m.val = 2 → Soft s (0x242 + 8 * m.val)) ∧ (s.linkState m.val = 3 → Soft s (0x243 + 8 * m.val))
      post := fun t =>
        (s.linkState m.val = 2 → t.linkState m.val = 3 ∧ t.fld (aMemLinkStatus m.val) 11 8 = 4 ∧
          Tells s t { src := 0x242 + 8 * m.val } [aMemLinkStatus m.val]) ∧
        (s.linkState m.val = 3 → t.linkState m.val = 4 ∧ t.fld (aMemLinkStatus m.val) 11 8 = 0 ∧
          Tells s t { src := 0x243 + 8 * m.val } [aMemLinkStatus m.val]) ∧
        (s.linkState m.val ≠ 2 → s.linkState m.val ≠ 3 → Only s t []) }
  | .memLinkFail m => some
    { pre := s.linkUsable m.val = true → Soft s (0x243 + 8 * m.val)
      post := fun t => (s.linkUsable m.val = true → t.linkState m.val = 4 ∧ t.fld (aMemLinkStatus m.val) 11 8 = 0 ∧
          Tells s t { src := 0x243 + 8 * m.val } [aMemLinkStatus m.val]) ∧ (s.linkUsable m.val = false → Only s t []) }
  | .memCe addr => some
    { pre := s.memOk addr.toNat = true → Soft s (0x240 + 8 * s.linkOf addr.toNat)
      post := fun t => (s.memOk addr.toNat = true → Tells s t { src := 0x240 + 8 * s.linkOf addr.toNat } []) ∧
        (s.memOk addr.toNat = false → Only s t []) }
  | .memUe addr => some
    { pre := s.memOk addr.toNat = true → Soft s (0x241 + 8 * s.linkOf addr.toNat)
      post := fun t => (s.memOk addr.toNat = true → Tells s t { src := 0x241 + 8 * s.linkOf addr.toNat } [] ∧
          ∀ a, t.poisoned a = (s.poisoned a || decide (if s.fld (aMemLinkStatus (s.linkOf addr.toNat)) 7 4 = 2 then a / 128 = addr.toNat / 128
            else a / 32 = addr.toNat / 32))) ∧
        (s.memOk addr.toNat = false → Only s t [] ∧ t.poison = s.poison) }
  | .faultEvent src info0 idA idB unit part => some
    { pre := src.toNat = 0x610 ∨ (src.toNat < 0x600 ∧ ((srcClass src.toNat).isSome = true → s.rootAbsent src.toNat = false →
        arrayLine src.toNat = false ∧ Soft s src.toNat))
      post := fun t =>
        let f : FaultInfo := { src := src.toNat, info0 := info0.toNat, idA := idA.toNat, idB := idB.toNat, unit := unit.toNat, part := part.toNat }
        (src.toNat = 0x610 → upOne s t aFcuStatus 63 48 ∧ Only s t [aFcuStatus]) ∧
        (src.toNat < 0x600 → (srcClass src.toNat).isSome = true → s.rootAbsent src.toNat = false →
          (src.toNat ≠ 0x4C1 → Tells s t f []) ∧
          (src.toNat = 0x4C1 → Tells s t f [aHubTrsWorst (idA.toNat % 3)] ∧
            ([80, 240, 800].getD (idA.toNat % 3) 0) < t.fld (aHubTrsWorst (idA.toNat % 3)) 15 0)) ∧
        (src.toNat < 0x600 → srcClass src.toNat = none ∨ s.rootAbsent src.toNat = true → Only s t []) }
  | .unackWrite k => some
    { pre := True
      post := fun t => t.flag (aFcuClassStat k.val) 0 = false ∧ t.flag (aFcuClassStat k.val) 1 = false ∧
        t.flag (aFcuClassStat k.val) 2 = s.flag (aFcuClassStat k.val) 2 ∧ Only s t [aFcuClassStat k.val] }
  | _ => none

end Sys2Proof.Claims

/-- 18 R459 to R477, 21 R514, R521 to R528: the references with the clock that PCIE_REFCLK carries, PLLs, frequencies, gates, domains, comparators, sensors and rails; and a frequency that rises
waits for its voltage: with the acknowledge the change is done, without it the old STEP is back and AVS_FAIL is reported. -/
def Obligations.PowerEvents : Prop :=
  Completes Working powerEvent ∧
  Completes (fun s => State.calm { s with pwr := { s.pwr with freq := [] } } = true ∧ s.kst.phase = .released) regulatorEvent

/-- 10 R259, R262, 17 R441 to R443, R446, R447, R452: memory links degrade and fail, DRAM errors poison what they hit, and a fault event of any source is counted,
logged and answered with its soft reaction; an acknowledgement clears UNACK and ERR alone. -/
def Obligations.FaultEvents : Prop := Completes Working faultTable

/-- 17 R444, R445, R454: a reaction of level 3 with no save possible is a chip reset for cause 3: ERR_OUT_N is held, memory keeps its bytes and Keystone
is due at step 2. With every link of the map in use it starts a fault-ordered save instead (10 R263). An uncorrectable error in the collector's state of
a class resets the chip likewise. -/
def Obligations.ChipResetReactions : Prop :=
  ∀ (s : State) (src : BitVec 11) (k : Nat), Working s → s.fcu.errHold = false →
    (srcClass src.toNat = some k ∧ 0x4C0 ≤ src.toNat ∧ src.toNat < 0x600 ∧ s.fcuLevel k (s.fld (aFcuSrcCfg src.toNat) 1 0) = 3) ∨
      (src.toNat = 0x600 + k ∧ k < 16) →
    ∃ t, exec (.faultEvent src 0 0 0 0 0) s = .next t ∧ t.fcu.errHold = true ∧
      (s.canSave = false → t.kst.phase = .due 2 ∧ t.fld aKstStatus 18 16 = 3 ∧ t.mem = s.mem ∧ ∀ m, t.lp m = Lp.reset) ∧
      (s.canSave = true → t.save.phase = .quiesce ∧ t.save.cause = 2 + 256 * k ∧ t.save.stay = false ∧ (∀ m, (t.lp m).quiesced = true) ∧
        (src.toNat = 0x600 + k → t.flag (aFcuClassStat k) 0 = true ∧
          (smGet (fun _ => none) s.fcu.quiet k = none → t.fld (aFcuClassStat k) 4 3 = 3)))

namespace Sys2Proof.Claims

/-! ### Debug port -/

/-- The reply of the debug port (20 R507). -/
def Replies (t : State) (op : Nat) (q : DbgReq) (status : Nat) (addr data : Word) : Prop :=
  t.dbg = some { op := op, tag := q.tag.toNat, status := status, addr := addr.toNat, data := data.toNat }

/-- Registers that any debug request may change: the state of its domain and DBG_STATUS (18 R475, 20 R506). -/
def dbgRegs : List Nat := [aPwrDom 60, aDbgStatus]

/-- A debug request: locked out it is answered with status 4 (20 R508), a request to an LP that is not halted with status 3; else `ok` holds. -/
def debugCase (s t : State) (op : Nat) (q : DbgReq) (lead : Bool) (ok : Prop) : Prop :=
  let locked := s.flag aDbgCtl 0 = true ∧ ¬(op = 1 ∧ winBase 2 ≤ q.addr.toNat ∧ q.addr.toNat < winBase 5)
  let halted := q.triad.toNat < 32 ∧ s.halted (triOf q.triad.toNat) = true
  (locked → Replies t op q 4 q.addr q.data ∧ Only s t dbgRegs) ∧
  (¬locked → lead = true → ¬halted → Replies t op q 3 q.addr q.data ∧ Only s t dbgRegs) ∧
  (¬locked → (lead = true → halted) → ok)

/-- Requests and events of the debug port (20 R506 to R510, 06 R177 to R179). -/
def debugEvent (s : State) : Instr → Option Event
  | .halt q => some
    { pre := s.dbgHears q = true ∧ q.triad.toNat < 32 ∧ (s.lp (triOf q.triad.toNat)).frozen = none ∧ (s.lp (triOf q.triad.toNat)).entry = none ∧
        (s.lp (triOf q.triad.toNat)).retried = false ∧ (s.lp (triOf q.triad.toNat)).stepping = false ∧
        Soft s 0x4E1
      post := fun t =>
        let n := triOf q.triad.toNat
        debugCase s t 0x10 q false (
          (s.mode n = 0 ∨ s.mode n = 5 ∨ s.mode n = 6 ∨ s.checkstopped n = true → Replies t 0x10 q 3 q.addr q.data ∧ Only s t dbgRegs) ∧
          (1 ≤ s.mode n → s.mode n ≤ 4 → s.checkstopped n = false → Replies t 0x10 q 0 q.addr q.data ∧
            (t.lp n).arch = (s.lp n).arch ∧ (s.halted n = true → Only s t dbgRegs) ∧
            (s.halted n = false → (s.lp n).records = [] → t.halted n = true ∧ Reported s t { src := 0x4E1, unit := n.val } ∧
              OnlyLp s t n ([aTrdState n, aPwrDom n.val] ++ spareDoms ++ dbgRegs ++ reportRegs s 0x4E1)) ∧
            (s.halted n = false → (s.lp n).records ≠ [] → t.halted n = false ∧ (t.lp n).haltReq = true ∧
              OnlyLp s t n ([aPwrDom n.val] ++ spareDoms ++ dbgRegs)))) }
  | .dbgResume q => some
    { pre := s.dbgHears q = true
      post := fun t =>
        let n := triOf q.triad.toNat
        debugCase s t 0x11 q true (Replies t 0x11 q 0 q.addr q.data ∧ t.halted n = false ∧ t.lp n = { s.lp n with replay := [] } ∧
          OnlyLp s t n (aTrdState n :: dbgRegs)) }
  | .step q _ => some
    { pre := s.dbgHears q = true ∧
        let n := triOf q.triad.toNat
        (s.lp n).waiting = false ∧ s.nextEvent n = none ∧ s.warm n ∧ (s.lp n).flushNear = false ∧ (s.lp n).flushShared = false ∧
        (∃ fa, s.fetchFault n = .ok fa ∧ fa.addrs.length = 16 ∧ ∀ a ∈ fa.addrs, s.byte a = 0) ∧ ((s.lp n).arch.delay && isLoopEnd (s.lp n).arch) = false
      post := fun t =>
        let n := triOf q.triad.toNat
        debugCase s t 0x12 q true (Replies t 0x12 q 0 q.addr q.data ∧ SameRegs (s.lp n).arch (t.lp n).arch [] ∧
          Sequential (s.lp n).arch (t.lp n).arch ∧ (t.lp n).records.length = (s.lp n).records.length + 1 ∧ t.halted n = false ∧
          (t.lp n).haltReq = true ∧ (t.lp n).stepping = true ∧ OnlyLp s t n (aTrdState n :: dbgRegs)) }
  | .rdAbs q => some
    { pre := s.dbgHears q = true ∧ (isCtl q.addr.toNat = true → ∀ d, regDesc q.addr.toNat = some d → d.rc = 0 ∧ s.winShut q.addr.toNat = false ∧
        q.addr.toNat ≠ aRngData ∧ q.addr.toNat ≠ aDbgStatus ∧ q.addr.toNat ≠ aPwrDom 60)
      post := fun t =>
        let a := q.addr.toNat
        debugCase s t 1 q false (
          (s.absOk a = false → Replies t 1 q 1 q.addr 0 ∧ Only s t dbgRegs) ∧
          (∀ d, s.absOk a = true → isCtl a = true → regDesc a = some d → Replies t 1 q 0 q.addr (s.shown a d) ∧ Only s t dbgRegs) ∧
          (s.absOk a = true → isCtl a = false → (∀ i, i < 8 → s.badByte (a + i) = false) →
            Replies t 1 q 0 q.addr (BitVec.ofNat 64 (leNat ((List.range 8).map fun i => s.byte (a + i)))) ∧
            (∀ m, (t.lp m).arch = (s.lp m).arch) ∧ (∀ r, r ∉ dbgRegs → t.reg r = s.reg r) ∧ ∀ x, t.byte x = s.byte x)) }
  | .wrAbs q => some
    { pre := s.dbgHears q = true ∧ Soft s 0x4E2 ∧ (isCtl q.addr.toNat = true → q.addr.toNat = aHubOrderMode) ∧
        OneCopy s (q.addr.toNat / 128) ∧ OneCopy s ((q.addr.toNat + 7) / 128)
      post := fun t =>
        let a := q.addr.toNat
        debugCase s t 2 q false (
          (s.absOk a = false → Replies t 2 q 1 q.addr q.data ∧ Only s t dbgRegs) ∧
          (s.absOk a = true → Replies t 2 q 0 q.addr q.data ∧ Reported s t { src := 0x4E2, info0 := a } ∧ (∀ m, (t.lp m).arch = (s.lp m).arch) ∧
            (a = aHubOrderMode → (∀ k, k ≤ 32 → bit (t.reg a) k = bit q.data k) ∧ Only s t (a :: dbgRegs ++ reportRegs s 0x4E2)) ∧
            (isCtl a = false → ∀ x, t.byte x = if a ≤ x ∧ x < a + 8 then octet q.data.toNat (x - a) else s.byte x))) }
  | .rdReg q => some
    { pre := s.dbgHears q = true
      post := fun t =>
        debugCase s t 0x20 q true (Only s t dbgRegs ∧
          if q.addr.toNat < 0x200 then Replies t 0x20 q 0 q.addr ((s.lp (triOf q.triad.toNat)).vsGet q.addr.toNat) else Replies t 0x20 q 1 q.addr 0) }
  | .wrReg q => some
    { pre := s.dbgHears q = true ∧ Soft s 0x4E2
      post := fun t =>
        let n := triOf q.triad.toNat
        let i := q.addr.toNat
        debugCase s t 0x21 q true (
          (0x200 ≤ i → Replies t 0x21 q 1 q.addr q.data ∧ Only s t dbgRegs) ∧
          (i < 0x200 → Replies t 0x21 q 0 q.addr q.data ∧ Reported s t { src := 0x4E2, info0 := i, unit := n.val } ∧
            OnlyLp s t n (dbgRegs ++ reportRegs s 0x4E2) ∧ (t.lp n).replay.getLast? = some (.reg i q.data) ∧
            (1 ≤ i → i < 0x3F → (t.lp n).voted.rawG i = q.data ∧ (t.lp n).arch.rawG i = q.data) ∧
            (0x40 ≤ i → i < 0x60 → (t.lp n).voted.rawF (i - 0x40) = q.data ∧ (t.lp n).arch.rawF (i - 0x40) = q.data))) }
  | .rdVmem q => some
    { pre := s.dbgHears q = true ∧
        let n := triOf q.triad.toNat
        match s.leadAccess n .load q.addr with
        | .error _ => True
        | .ok ac => ac.region = .mem ∧ ∀ f ∈ ac.fills, f = {}
      post := fun t =>
        let n := triOf q.triad.toNat
        debugCase s t 0x22 q true (Only s t dbgRegs ∧
          match s.leadAccess n .load q.addr with
          | .error f => Replies t 0x22 q 2 (BitVec.ofNat 64 f.detail) (BitVec.ofNat 64 f.vec)
          | .ok ac => if s.consumesPoison n [] ac.addrs then Replies t 0x22 q 2 0 15
            else Replies t 0x22 q 0 q.addr (BitVec.ofNat 64 (leNat (s.ownBytes n [] ac.addrs)))) }
  | .wrVmem q => some
    { pre := s.dbgHears q = true ∧ Soft s 0x4E2 ∧ (s.lp (triOf q.triad.toNat)).storeBuf.length < 32 ∧
        match s.leadAccess (triOf q.triad.toNat) .store q.addr with
        | .error _ => True
        | .ok ac => ac.region = .mem ∧ ∀ f ∈ ac.fills, f = {}
      post := fun t =>
        let n := triOf q.triad.toNat
        debugCase s t 0x23 q true (
          match s.leadAccess n .store q.addr with
          | .error f => Replies t 0x23 q 2 (BitVec.ofNat 64 f.detail) (BitVec.ofNat 64 f.vec) ∧ Only s t dbgRegs
          | .ok ac => Replies t 0x23 q 0 q.addr q.data ∧ Reported s t { src := 0x4E2, info0 := q.addr.toNat, unit := n.val } ∧
            (t.lp n).arch = (s.lp n).arch ∧ (t.lp n).replay.getLast? = some (.mem q.addr 8 q.data) ∧ OnlyLp s t n (dbgRegs ++ reportRegs s 0x4E2) ∧
            ∃ st, (t.lp n).storeBuf = (s.lp n).storeBuf ++ [st] ∧ st.kind = .cache ∧ st.bytes = ac.addrs.zip (dataBytes q.data 8)) }
  | .rdCs q => some
    { pre := s.dbgHears q = true
      post := fun t =>
        let a := q.addr.toNat
        debugCase s t 0x24 q true (Only s t dbgRegs ∧
          (0x4000 ≤ a → a < 0x4400 → Replies t 0x24 q 0 q.addr (BitVec.ofNat 64 (s.kst.patch.words.getD (a - 0x4000) 0 % 2 ^ 144))) ∧
          (0x8000 ≤ a → a < 0x8040 → Replies t 0x24 q 0 q.addr (BitVec.ofNat 64 (s.kst.patch.matches_.getD (a - 0x8000) 0))) ∧
          (0x24400 ≤ a → Replies t 0x24 q 1 q.addr 0)) }
  | .lock => some
    { pre := s.winShut aDbgCtl = false
      post := fun t => t.flag aDbgCtl 0 = true ∧ Only s t [aDbgCtl] }
  | .servicePortConnect => some
    { pre := s.domUsable 60 = true ∧ s.flag aDbgStatus 0 = false ∧ Soft s 0x4E0
      post := fun t => t.flag aDbgStatus 0 = true ∧ Tells s t { src := 0x4E0, idA := 1 } dbgRegs }
  | .servicePortConnectionClose => some
    { pre := True
      post := fun t => t.flag aDbgStatus 0 = false ∧ Only s t [aDbgStatus] }
  | .debugRequestCrcError q op => some
    { pre := s.dbgHears q = true ∧ Soft s 0x4E3
      post := fun t => t.flag aDbgStatus 2 = true ∧ Replies t op.toNat q 5 q.addr q.data ∧
        Tells s t { src := 0x4E3, idA := if q.path = .jtag then 0 else 1 } dbgRegs }
  | _ => none

end Sys2Proof.Claims

/-- 20 R506 to R510, 06 R177 to R179: debug requests with their replies: refused while locked, or to an LP that is not halted; halt, resume and
single step; reads and writes of memory, registers and control stores, each write reported; the session and CRC errors. -/
def Obligations.DebugEvents : Prop := Completes Working debugEvent

namespace Sys2Proof.Claims

/-! ### Power failure, resets and the start -/

/-- A released module with clocks that run and nothing left over but a save. -/
def Steady (s : State) : Prop := State.calm { s with save := Save.reset } = true ∧ s.kst.phase = .released

/-- STATE of a save, in MEM_SAVE_STATUS and, where the save area is in use, its link not lost and its memory answering, in the header (10 R269, R271,
R276): the module's whole header as it stands. -/
def savedState (t : State) (k : Nat) : Prop :=
  t.save.state = k ∧ t.fld aMemSaveStatus 47 46 = k ∧
  (t.headerReach = true → (∀ i, i < 4096 → t.memOk (t.saveBase + i) = true) → memBytes t.mem t.saveBase 4096 = headerBytes t.save (t.reg aMemMap))

/-- The phases of a save (10 R263 to R272). -/
def saveEvent (s : State) : Instr → Option Event
  | .pfWarnNAssert => some
    { pre := s.save.phase = .none
      post := fun t => t.save.phase = .quiesce ∧ t.save.cause = 1 ∧ t.save.stay = true ∧ t.kst.pfWarn = true ∧ t.tick.outLow = true ∧
        t.flag aHubTickStatus 4 = true ∧ t.reg aHubTickNum = s.reg aHubTickNum + 1 ∧ t.save.tick = (t.reg aHubTickNum).toNat ∧
        t.fld aMemSaveStatus 55 48 = 1 ∧ t.fld aMemSaveStatus 47 46 = 0 ∧
        ∀ m, (t.lp m).quiesced = true ∧ (t.lp m).records = [] ∧ (t.lp m).asm = [] ∧ (t.lp m).voted = (t.lp m).arch ∧
          ((s.lp m).vsShadow = none → (s.lp m).entry = none → (∀ r ∈ (s.lp m).records, r.trap = none) → (t.lp m).voted = (s.lp m).voted) }
  | .quiesceStoreLimit => some
    { pre := s.save.phase = .quiesce ∧ ∀ m, ∀ st ∈ (s.lp m).storeBuf, st.kind = .devStrict
      post := fun t => t.save.phase = .quiesce ∧ (∀ a, t.byte a = s.byte a) ∧ ∀ m, (t.lp m).storeBuf = [] ∧ (t.lp m).arch = (s.lp m).arch ∧
        ((s.lp m).storeBuf ≠ [] → t.flag (aTrdAseStatus m) 63 = true) }
  | .quiesceEnd => some
    { pre := s.save.phase = .quiesce ∧ (∀ m, (s.lp m).storeBuf = [] ∧ (s.lp m).comb = [])
      post := fun t => t.save.phase = .contexts ∧ (s.saveArea = true → savedState t 1) ∧ (s.saveArea = false → Only s t []) }
  | .contextsWritten => some
    { pre := s.save.phase = .contexts
      post := fun t => t.save.phase = .persistent ∧ savedState t 2 ∧
        t.save.bytesP = 128 * (s.modLines.filter fun e => e.2 = true).length }
  | .persistentWritebackEnd => some
    { pre := s.save.phase = .persistent
      post := fun t => t.save.phase = .others ∧ savedState t 3 ∧
        t.save.bytesN = 128 * (s.modLines.filter fun e => e.2 = false).length }
  | .writebackEnd => some
    { pre := s.save.phase = .others ∧ s.refreshLeft ≠ [] ∧ s.save.lost = s.save.lostHdr
      post := fun t => t.save.phase = .selfRefresh ∧ t.mem = s.mem ∧ Only s t [] }
  | .selfRefreshAck m ok => some
    { pre := s.save.phase = .selfRefresh ∧ s.refreshTurn m.val = true ∧ ok = true ∧ s.save.lost = s.save.lostHdr
      post := fun t => t.mem = s.mem ∧
        (s.refreshLeft ≠ [m.val] → t.save.phase = .selfRefresh ∧ t.save.acked.testBit m.val = true ∧ m.val ∉ t.refreshLeft ∧ Only s t []) ∧
        (s.refreshLeft = [m.val] → t.kst.dram.testBit m.val = s.kst.dram.testBit m.val ∧ (s.save.stay = true → t.save.phase = .ended ∧ Only s t []) ∧
          (s.save.stay = false → t.kst.phase = .due 2 ∧ t.fld aKstStatus 18 16 = 3 ∧ t.fcu.errHold = true ∧ ∀ k, t.lp k = Lp.reset)) }
  | .pfWarnNQuiet => some
    { pre := s.save.phase = .ended ∧ s.save.stay = true ∧ s.save.thermal = false ∧ s.therm.trip = false
      post := fun t => t.kst.pfWarn = false ∧ t.kst.phase = .due 2 ∧ t.fld aKstStatus 18 16 = 4 ∧ t.kst.dram = s.kst.dram ∧ t.mem = s.mem ∧
        t.save.phase = .none ∧ ∀ m, t.lp m = Lp.reset }
  | _ => none

/-- None of the first k steps of a start from step n on fails (19 R482, R485). -/
def stepsPass (env : StartEnv) : Nat → State → Nat → Prop
  | 0, _, _ => True
  | k + 1, s, n => (s.kstOne env none n).2 = true ∧ stepsPass env k (s.kstOne env none n).1 (n + 1)

/-- A start as the environment lets it begin: RESET_N, PWROK and PF_WARN_N are inactive (19 R499). -/
def ready (s : State) : State := { s with kst := { s.kst with pwrok := true, resetN := true, pfWarn := false } }

/-- A chip reset for a cause has taken place: Keystone is due at a step, memory and the boot flash keep what they hold, every LP is at its reset
(19 R479, R480). -/
structure ChipReset (s t : State) (cause first : Nat) : Prop where
  due : t.kst.phase = .due first
  cause_ : t.fld aKstStatus 18 16 = cause
  keeps : t.mem = s.mem ∧ t.poison = s.poison ∧ t.kst.flashA = s.kst.flashA ∧ t.kst.flashB = s.kst.flashB ∧ t.tod = s.tod
  lps : ∀ m, t.lp m = Lp.reset
  idle : t.save.phase = .none ∧ t.css.rings = [] ∧ t.spn.sessions = [] ∧ t.cph.slots = [] ∧ t.cmp.queue = []

/-- Resets, the start and the journal (19 R479 to R499, 21 R517). -/
def startEvent (s : State) : Instr → Option Event
  | .resetNAssert => some { pre := True, post := fun t => ChipReset s t 1 2 ∧ t.kst.resetN = false }
  | .pwrokFall => some { pre := True, post := fun t => ChipReset s t 2 1 ∧ t.kst.pwrok = false }
  | .alwaysOnPowerGood => some
    { pre := True
      post := fun t => t.kst.phase = .due 1 ∧ t.kst.pwrok = true ∧ t.mem = s.mem ∧ t.kst.flashA = s.kst.flashA ∧ t.kst.flashB = s.kst.flashB ∧
        t.kst.aon = false ∧ t.tod = 0 ∧ (∀ a, t.reg a = ctlReset a) ∧ ∀ m, t.lp m = Lp.reset }
  | .vddAonFall => some
    { pre := True
      post := fun t => t.kst.phase = .due 1 ∧ t.kst.pwrok = false ∧ t.mem = s.mem ∧ t.kst.flashA = s.kst.flashA ∧ t.kst.flashB = s.kst.flashB ∧
        t.kst.aon = false ∧ t.tod = 0 ∧ (∀ a, t.reg a = ctlReset a) ∧ ∀ m, t.lp m = Lp.reset }
  | .chipReset env => some
    { pre := s.calm = true ∧ ∃ first, (first = 1 ∨ first = 2) ∧ s.kst.phase = .due first ∧ stepsPass env (21 - first) (ready s) first ∧
        (State.kstRun (ready s) env none (21 - first) first).raised = []
      post := fun t => t.kst.phase = .released ∧ t.flag aKstStatus 8 = true ∧ t.fld aKstStatus 4 0 = 20 ∧ t.tick.running = true ∧
        (∀ k, k < 20 → t.fld (aKstStep (k + 1)) 1 0 = 0) ∧
        (t.lp t.boot).released = true ∧ (t.lp t.boot).arch.psw = 0x0F000103 ∧ (t.lp t.boot).arch.part = 0 ∧ (t.lp t.boot).voted = (t.lp t.boot).arch ∧
        (t.lp t.boot).arch.npc = (t.lp t.boot).arch.pc + 16 ∧ t.held t.boot = false }
  | .keystoneStepLimit k env => some
    { pre := s.calm = true ∧ s.kst.phase = .due (k.val + 1) ∧ stepOptional (k.val + 1) = false
      post := fun t =>
        let att := min 3 (s.fld (aKstStep (k.val + 1)) 1 0 + 1)
        t.fld (aKstStep (k.val + 1)) 1 0 = att ∧ (att < 3 → t.kst.phase = .due 2 ∧ t.fld aKstStatus 18 16 = 5 ∧ t.mem = s.mem) ∧
        (att = 3 → t.kst.phase = .halted ∧ t.flag aKstStatus 9 = true ∧ t.fld aKstStatus 4 0 = k.val + 1) }
  | .journalFlashWrite => some
    { pre := s.calm = true ∧ s.kst.aon = true
      post := fun t => (s.jrnlChanged = false → t = s) ∧ (s.jrnlChanged = true →
        t.fld aKstJrnlGen 31 0 = (s.fld aKstJrnlGen 31 0 + 1) % 2 ^ 32 ∧ Only s t [aKstJrnlGen] ∧ t.kst.nextB = !s.kst.nextB ∧
        (s.kst.nextB = true → t.kst.flashA = s.kst.flashA) ∧ (s.kst.nextB = false → t.kst.flashB = s.kst.flashB) ∧
        ∃ c, (if s.kst.nextB then t.kst.flashB else t.kst.flashA) = some c ∧ c.gen = t.fld aKstJrnlGen 31 0 ∧ c.rest = s.kst.rest) }
  | .clearAttempts => some
    { pre := Working s
      post := fun t => (∀ k, k < 20 → t.fld (aKstStep (k + 1)) 1 0 = 0) ∧ Only s t ((List.range 20).map fun k => aKstStep (k + 1)) }
  | .retryOpt => some { pre := Working s, post := fun t => t.kst.rest.retryOpt = true ∧ Only s t [] }
  | .flush => some
    { pre := Working s
      post := fun t => t.fld aKstJrnlGen 31 0 = (s.fld aKstJrnlGen 31 0 + 1) % 2 ^ 32 ∧ Only s t [aKstJrnlGen] ∧ t.kst.nextB = !s.kst.nextB ∧
        ∃ c, (if s.kst.nextB then t.kst.flashB else t.kst.flashA) = some c ∧ c.gen = t.fld aKstJrnlGen 31 0 ∧ c.rest = s.kst.rest }
  | _ => none

end Sys2Proof.Claims

/-- 10 R263 to R272, R276: a power failure stops every LP at a boundary and the phases of the save follow one another, each recorded in MEM_SAVE_STATUS and
the header; once every link is settled the save is over, and quiet of PF_WARN_N or a fault-ordered reset leads to a chip reset. -/
def Obligations.SaveEvents : Prop := Completes Steady saveEvent

/-- 19 R479 to R494, R499, 21 R517: what each reset leaves; a start none of whose steps fails, with no fault event at its end, releases the boot LP at level M with the reset PSW; a mandatory step
that fails counts an attempt and starts again, or halts the start at the third; the journal reaches the flash. -/
def Obligations.StartEvents : Prop := Completes (fun _ => True) startEvent

namespace Sys2Proof.Claims

/-! ### Channel subsystem -/

/-- A doubleword as an observer reads it. -/
def wordAt (s : State) (a : Nat) : Nat := leNat ((List.range 8).map fun i => s.byte (a + i))
/-- Registers but those listed are as they were, and so is what every LP computes with. -/
def KeepsLps (s t : State) (rs : List Nat) : Prop :=
  (∀ a, a ∉ rs → (∀ m, a ≠ aTrdL2Status m) → t.reg a = s.reg a) ∧ ∀ m, (t.lp m).arch = (s.lp m).arch ∧ (t.lp m).storeBuf = (s.lp m).storeBuf

/-- Rings and journal entries are listed once. -/
def Listed (s : State) : Prop := smWf (fun _ => none) s.css.rings = true ∧ smWf (fun _ => none) s.css.jent = true
/-- No operation is in the journal, no port has a frame waiting, and no CLOSE waits. -/
def NoWork (s : State) : Prop := s.css.jent = [] ∧ (∀ p, (s.port p).queue = []) ∧ s.spn.closing = none

/-- Ring r can be served, is the one to be served, and its next entry is e; u is the state once it is fetched (11 R297, R300, R301). -/
structure Serves (s : State) (r : Nat) (q : Ring) (e : List Word) (u : State) : Prop where
  ring : s.ring r = some q
  fresh : q.admitted = none
  served : s.servable q = true ∧ s.servedNext r q = true
  entry : ∃ bs, s.hubRd q.part (q.sqBase + 64 * (q.consumed % 2 ^ q.log2)) 64 = (u, .ok bs) ∧ e = (List.range 8).map fun i => dword bs i |> BitVec.ofNat 64

/-- Completions of ring q can be written at an address that the hub reaches. -/
structure CanComplete (s : State) (q : Ring) (a : Nat) : Prop where
  open_ : q.noCq = false
  at_ : ∃ e, s.hubEntry q.part ((q.cqBase + 32 * (q.produced % 2 ^ q.log2)) / 2 ^ 28) true = .ok (e, false) ∧ bits e 2 1 = 0 ∧
    a = pmtAbs e (q.cqBase + 32 * (q.produced % 2 ^ q.log2))
  aligned : a % 32 = 0 ∧ q.cqBase % 4096 = 0
  memory : s.memOk a = true ∧ OneCopy s (a / 128)

/-- The completion written at `a` for an entry of ring q with no journal entry (11 R303): tag, status, flags, result, time stamp, phase, and how
many entries have been consumed. -/
def Completed (s t : State) (q : Ring) (a tag status : Nat) (ts : Bool) : Prop :=
  wordAt t a = (if ts then 4 * 2 ^ 40 else 0) + status * 2 ^ 32 + tag ∧ wordAt t (a + 8) = 0 ∧ wordAt t (a + 16) = 0 ∧
  wordAt t (a + 24) = (if q.produced / 2 ^ q.log2 % 2 = 0 then 2 ^ 63 else 0) + (if ts then s.tod / 256 % 2 ^ 39 * 2 ^ 24 else 0) + (q.consumed + 1) % 2 ^ 24

/-- The status with which an entry ends at once by the first checks of 11 R297, if it does. -/
def refused (s : State) (q : Ring) (e : List Word) : Option Nat :=
  if opAvail q.ver q.feat (subOp e) = false then some 0x12
  else if subReservedOk q.feat e = false then some 0x11
  else if subOp e = 0 then some 0
  else if subLen e = 0 ∧ subOp e ≠ 3 then some 0
  else if opEngine (subOp e) = true then none
  else match s.session (subPartner e) with
    | none => some 0x50
    | some x => if x.part ≠ q.part then some 0x50 else if x.sstate ≠ 2 ∧ x.sstate ≠ 3 then some 0x41 else none

/-- A journal entry for e of ring r as admission makes it (11 R308). -/
def Prepared (s t : State) (r : Nat) (q : Ring) (e : List Word) : Prop :=
  (t.ring r).map (·.consumed) = some ((q.consumed + 1) % 2 ^ 24) ∧
  ∀ k, s.nextSlot q.part = some k → ∃ j, t.jent q.part k = some j ∧ j.state = 1 ∧ j.tag = subTag e ∧ j.ring = r ∧
    j.part = q.part ∧ j.sub = e ∧ j.prepTod = s.tod ∧ j.dirty = true

/-- Admission of the next entry of ring r (11 R297 to R301): it ends with its status, goes to an engine's queue, or into the journal; while
that has no free slot the ring waits with the entry checked, and goes on at step 9 once one is free. -/
def admitted (s : State) (r : Nat) (want : Option Nat) : Event where
  pre := Listed s ∧
    ((∃ q e u, Serves s r q e u ∧ (want = none ∨ want = some (subOp e)) ∧ match refused s q e with
      | some _ => ∃ a, CanComplete u q a
      | none => opEngine (subOp e) = true ∨ (u.admitMove q e).2 = .journal) ∨
    ∃ q e, s.ring r = some q ∧ q.admitted = some e ∧ (want = none ∨ want = some (subOp e)) ∧ s.servable q = true ∧ s.servedNext r q = true)
  post t := (∀ q e, s.ring r = some q → q.admitted = some e → KeepsLps s t [] ∧ Prepared s t r q e) ∧ ∀ q e u, Serves s r q e u →
    KeepsLps s t [] ∧
    match refused s q e with
    | some st => ∀ a, CanComplete u q a → Completed s t q a (subTag e) st (subTs e && q.feat.testBit 1) ∧
        t.ring r = some { q with consumed := (q.consumed + 1) % 2 ^ 24, produced := (q.produced + 1) % 2 ^ 24, intPend := true }
    | none =>
      let x : EngReq := { ring := r, part := q.part, rt := q.rt, tag := subTag e, sub := e, warm := false }
      (opEngine (subOp e) = true → (t.ring r).map (·.consumed) = some ((q.consumed + 1) % 2 ^ 24)) ∧
      (subOp e = 0x18 → t.cph.queue = s.cph.queue ++ [x] ∧ t.cmp.queue = s.cmp.queue) ∧
      (subOp e = 0x10 ∨ subOp e = 0x11 → t.cmp.queue = s.cmp.queue ++ [x] ∧ t.cph.queue = s.cph.queue) ∧
      (opEngine (subOp e) = false → (s.nextSlot q.part).isSome = true → Prepared s t r q e) ∧
      (opEngine (subOp e) = false → s.nextSlot q.part = none → t.ring r = some { q with admitted := some e } ∧ t.css.jent = s.css.jent)

/-- Does an entry that names the control space refuse the increment of a partition-real address (08 R221)? -/
def namesCtl (s : State) (p pra : Nat) : Prop := ∃ c x, s.hubEntry p (pra / 2 ^ 28) true = .error (.code c (some x))

/-- Doorbell lines, ring commands, admission, journal (11 R283 to R309, R316, R532). -/
def ringEvent (s : State) : Instr → Option Event
  | .cssDblWrite line v => some
    { pre := namesCtl s (bits v 49 44) (bits v 43 7 * 128) → Soft s 0x4C4
      post := fun t =>
        let p := bits v 49 44
        let a := aCssDbl line.val
        let used := s.dblUsed line.val = true
        let was := s.flag a 63 = true
        KeepsLps s t (a :: reportRegs s 0x4C4) ∧
        (bit v 63 = true → ¬(was ∧ used) → s.dblLine p (bits v 43 7 * 128) = none → t.flag a 62 = true ∧ t.watch line.val = s.watch line.val) ∧
        (bit v 63 = true → ¬(was ∧ used) → ∀ l, s.dblLine p (bits v 43 7 * 128) = some l →
          (∀ k w, k ≠ line.val → (k, some w) ∈ s.css.watch → w.line ≠ l) →
          t.watch line.val = some { line := l, stale := false } ∧ t.flag a 63 = true ∧ t.fld a 49 44 = p ∧ t.fld a 43 7 = bits v 43 7) ∧
        (bit v 63 = false → used → t.flag a 62 = true ∧ t.watch line.val = s.watch line.val) ∧
        (bit v 63 = false → ¬used → t.watch line.val = none ∧ t.flag a 63 = false) }
  | .doorbellReread line => some
    { pre := Listed s ∧ ∃ w, s.watch line.val = some w ∧ s.memOk (128 * w.line) = true ∧ ∀ r q, s.ring r = some q → q.dbl = line.val → q.slot < 16 ∧
        let v := wordAt s (128 * w.line + 8 * q.slot)
        m24 v q.consumed ≤ 2 ^ q.log2 ∧ m24 q.produced (v / 2 ^ 24) ≤ 2 ^ q.log2
      post := fun t => KeepsLps s t [] ∧ (∀ a, t.byte a = s.byte a) ∧ ∀ w, s.watch line.val = some w →
        t.watch line.val = some { w with stale := false } ∧ ∀ r q, s.ring r = some q →
          let v := wordAt s (128 * w.line + 8 * q.slot)
          t.ring r = some (if q.dbl = line.val then { q with tail := v % 2 ^ 24, head := v / 2 ^ 24 % 2 ^ 24, irqOff := v.testBit 48 } else q) }
  | .createRing ring => some
    { pre := s.flag aCssRcmdStatus 63 = false ∧ (s.createCheck ring.toNat s.rcmdBlock = .error 4 → Soft s 0x4C4)
      post := fun t =>
        let r := ring.toNat
        let b := s.rcmdBlock
        Only s t (aCssRcmdStatus :: reportRegs s 0x4C4) ∧ (s.createCheck r b = .error 4 → t.fld aCssRcmdStatus 7 0 = 4 ∧ t.ring r = none) ∧ (∀ k, k ≠ r → t.ring k = s.ring k) ∧
        ((s.ring r).isSome = true → t.fld aCssRcmdStatus 7 0 = 1 ∧ t.ring r = s.ring r) ∧
        (s.ring r = none → blkOk b = false → t.fld aCssRcmdStatus 7 0 = 3 ∧ t.ring r = none) ∧
        (s.ring r = none → blkOk b = true → s.flag (aCssJrnl (bits (subW b 0) 5 0)) 63 = false → t.fld aCssRcmdStatus 7 0 = 8 ∧ t.ring r = none) ∧
        (∀ q, s.createCheck r b = .ok q → t.ring r = some q ∧ q.part = bits (subW b 0) 5 0 ∧ q.log2 = bits (subW b 0) 20 16 ∧
          q.sqBase = (subW b 1).toNat ∧ q.cqBase = (subW b 2).toNat ∧ q.state = 1 ∧ q.consumed = 0 ∧ q.produced = 0 ∧
          q.ver = min (bits (subW b 0) 27 24) 3 ∧ t.fld aCssRcmdStatus 7 0 = 0 ∧ t.fld aCssRcmdStatus 27 24 = q.ver ∧
          t.fld aCssRcmdStatus 23 8 = q.feat) }
  | .destroyRing ring => some
    { pre := s.flag aCssRcmdStatus 63 = false ∧ ∀ q, s.ring ring.toNat = some q → q.state ≠ 2 ∧ q.noCq = false
      post := fun t => Only s t [aCssRcmdStatus] ∧ (∀ k, k ≠ ring.toNat → t.ring k = s.ring k) ∧
        (s.ring ring.toNat = none → t.fld aCssRcmdStatus 7 0 = 2) ∧
        ∀ q, s.ring ring.toNat = some q →
          (s.ringBusy ring.toNat = false → t.ring ring.toNat = none ∧ t.fld aCssRcmdStatus 7 0 = 0 ∧ t.flag aCssRcmdStatus 63 = false) ∧
          (s.ringBusy ring.toNat = true → t.ring ring.toNat = some { q with state := 3 } ∧ t.flag aCssRcmdStatus 63 = true) }
  | .destroyEnd ring => some
    { pre := s.ringBusy ring.toNat = false ∧ ∃ q, s.ring ring.toNat = some q ∧ q.state = 3
      post := fun t => t.ring ring.toNat = none ∧ (∀ k, k ≠ ring.toNat → t.ring k = s.ring k) ∧ t.flag aCssRcmdStatus 63 = false ∧
        t.fld aCssRcmdStatus 7 0 = 0 ∧ Only s t [aCssRcmdStatus] }
  | .retargetRing ring => some
    { pre := s.flag aCssRcmdStatus 63 = false
      post := fun t =>
        let w := subW s.rcmdBlock 3
        Only s t [aCssRcmdStatus] ∧ (∀ k, k ≠ ring.toNat → t.ring k = s.ring k) ∧
        (s.ring ring.toNat = none → t.fld aCssRcmdStatus 7 0 = 2) ∧
        ∀ q, s.ring ring.toNat = some q →
          (blkWord3Ok w = true → t.ring ring.toNat = some { q with retarget := some (bit w 40, bits w 39 32, bits w 28 24) } ∧ t.fld aCssRcmdStatus 7 0 = 0) ∧
          (blkWord3Ok w = false → t.ring ring.toNat = some q ∧ t.fld aCssRcmdStatus 7 0 = 3) }
  | .resumeRing ring => some
    { pre := s.flag aCssRcmdStatus 63 = false ∧ ∀ q, s.ring ring.toNat = some q → q.state = 2 → q.owed = [] ∧
        (∀ e ∈ s.jents, e.2.2.ring = ring.toNat → e.2.2.state ≠ 3) ∧
        (s.arraysOk q.part q.log2 q.sqBase q.cqBase = none → Soft s 0x4C4)
      post := fun t => Only s t (aCssRcmdStatus :: reportRegs s 0x4C4) ∧ (∀ k, k ≠ ring.toNat → t.ring k = s.ring k) ∧
        (s.ring ring.toNat = none → t.fld aCssRcmdStatus 7 0 = 2) ∧
        ∀ q, s.ring ring.toNat = some q →
          (q.state ≠ 2 → t.fld aCssRcmdStatus 7 0 = 9 ∧ t.ring ring.toNat = some q) ∧
          (q.state = 2 → s.arraysOk q.part q.log2 q.sqBase q.cqBase = none → t.fld aCssRcmdStatus 7 0 = 4 ∧ t.ring ring.toNat = some q) ∧
          (∀ b, q.state = 2 → s.arraysOk q.part q.log2 q.sqBase q.cqBase = some b →
            t.fld aCssRcmdStatus 7 0 = 0 ∧ t.ring ring.toNat = some { q with state := 1, pers := b }) }
  | .queryRing ring => some
    { pre := s.flag aCssRcmdStatus 63 = false ∧ (∀ e ∈ s.jents, e.2.2.ring = ring.toNat → e.2.2.dirty = false) ∧
        s.memOk (s.fld aCssRcmdAddr 51 6 * 64) = true ∧ OneCopy s (s.fld aCssRcmdAddr 51 6 * 64 / 128)
      post := fun t =>
        let a := s.fld aCssRcmdAddr 51 6 * 64
        KeepsLps s t [aCssRcmdStatus] ∧ (∀ k, t.ring k = s.ring k) ∧
        (s.ring ring.toNat = none → t.fld aCssRcmdStatus 7 0 = 2) ∧
        ∀ q, s.ring ring.toNat = some q → t.fld aCssRcmdStatus 7 0 = 0 ∧
          wordAt t (a + 8) = q.sqBase % 2 ^ 64 ∧ wordAt t (a + 16) = q.cqBase % 2 ^ 64 ∧
          wordAt t (a + 32) = (if q.intPend then 2 ^ 51 else 0) + q.state % 8 * 2 ^ 48 + q.produced % 2 ^ 24 * 2 ^ 24 + q.consumed % 2 ^ 24 ∧
          wordAt t (a + 40) = (if q.irqOff then 2 ^ 48 else 0) + q.head % 2 ^ 24 * 2 ^ 24 + q.tail % 2 ^ 24 ∧
          ∀ x, x < a ∨ a + 64 ≤ x → t.byte x = s.byte x }
  | .cssJrnlWrite p v => some
    { pre := True
      post := fun t =>
        let a := aCssJrnl (p.val + 1)
        let new := v.toNat &&& 0x800FFFFFFFFF001F
        let n := new % 32
        let others := ((List.range 32).map fun i => if i ≠ p.val ∧ s.flag (aCssJrnl (i + 1)) 63 = true then 2 ^ s.fld (aCssJrnl (i + 1)) 4 0 else 0).sum
        Only s t [a, aCssStatus] ∧
        (new ≠ (s.reg a).toNat → s.partRing (p.val + 1) = true → t.flag aCssStatus 49 = true ∧ t.reg a = s.reg a) ∧
        (new ≠ (s.reg a).toNat → s.partRing (p.val + 1) = false → bit v 63 = true → n < 8 ∨ 16 < n ∨ 65536 < 2 ^ n + others →
          t.flag aCssStatus 49 = true ∧ t.reg a = s.reg a) ∧
        (new ≠ (s.reg a).toNat → s.partRing (p.val + 1) = false → bit v 63 = true → 8 ≤ n → n ≤ 16 → 2 ^ n + others ≤ 65536 →
          (t.reg a).toNat = new ∧ (∀ k, k < 65536 → t.jent (p.val + 1) k = none) ∧ ∀ q k, q ≠ p.val + 1 → k < 65536 → t.jent q k = s.jent q k) ∧
        (new ≠ (s.reg a).toNat → s.partRing (p.val + 1) = false → bit v 63 = false → (t.reg a).toNat = new) }
  | .entryAdmission ring => some (admitted s ring.toNat none)
  | .opNop ring => some (admitted s ring.toNat (some 0x00))
  | .opRead ring => some (admitted s ring.toNat (some 0x01))
  | .opWrite ring => some (admitted s ring.toNat (some 0x02))
  | .opControl ring => some (admitted s ring.toNat (some 0x03))
  | .opCompress ring => some (admitted s ring.toNat (some 0x10))
  | .opDecompress ring => some (admitted s ring.toNat (some 0x11))
  | .opCipher ring => some (admitted s ring.toNat (some 0x18))
  | .operationIssue p slot => some
    { pre := ∃ j x k, s.jent (p.val + 1) slot.toNat = some j ∧ j.state = 1 ∧ j.part = p.val + 1 ∧
        s.session (subPartner j.sub) = some x ∧ x.sstate = 2 ∧ s.issuedOf (subPartner j.sub) < issuedLimit x.rev ∧
        s.bestPath (subPartner j.sub) x = some k ∧ (s.port (x.path k).port).queue = [] ∧ Listed s ∧
        ((s.port (x.path k).port).credit1 = 0 ∨ (subOp j.sub ≠ 2 ∧ s.portOk (x.path k).port = true ∧ 0 < (s.port (x.path k).port).credit1 ∧
          (s.port (x.path k).port).unacked.length < 256 ∧ s.spanStarved (x.path k).port (p.val + 1) = false ∧ ∀ e ∈ s.jents, s.sendable (x.path k).port e.2.2 = false))
      post := fun t => Only s t [] ∧ ∀ j x k, s.jent (p.val + 1) slot.toNat = some j → s.session (subPartner j.sub) = some x →
        s.bestPath (subPartner j.sub) x = some k →
        let port := (x.path k).port
        let sent := if (s.port port).credit1 = 0 then 0 else 1
        t.jent (p.val + 1) slot.toNat =
          some { j with state := 2, seq := x.nextSeq, epoch := x.epoch, path := k, session := subPartner j.sub, sent := sent, resume := false, dirty := true } ∧
        (t.session (subPartner j.sub)).map (·.nextSeq) = some ((x.nextSeq + 1) % 2 ^ 64) ∧
        (sent = 0 → t.port port = s.port port) ∧
        (sent = 1 → (t.port port).credit1 + 1 = (s.port port).credit1 ∧ ∃ f, (t.port port).unacked = (s.port port).unacked ++ [f] ∧ f.stype = 0x10 ∧
          f.lsn = (s.port port).nextLsn ∧ f.dst = (x.path k).faddr ∧ f.src = s.portAddr port ∧ f.rev = x.rev ∧ f.epoch = x.epoch ∧ f.session = subPartner j.sub ∧ f.seq = x.nextSeq ∧ f.payload = []) }
  | .hubPmtWriteResume p v => some
    { pre := NoWork s ∧ (∀ r q, s.ring r = some q → q.owed = []) ∧ Listed s
      post := fun t => Only s t [aHubPmt (p.val + 1)] ∧ t.flag (aHubPmt (p.val + 1)) 63 = bit v 63 ∧
        t.fld (aHubPmt (p.val + 1)) 51 16 = bits v 51 16 ∧ t.css.deferred.testBit (p.val + 1) = (s.css.deferred.testBit (p.val + 1) && !bit v 63) ∧
        ∀ q, q ≠ p.val + 1 → t.css.deferred.testBit q = s.css.deferred.testBit q }
  | .journalWriteback p slot => some
    { pre := s.flag (aCssJrnl (p.val + 1)) 63 = true ∧
        let a := s.fld (aCssJrnl (p.val + 1)) 51 16 * 65536 + 128 * slot.toNat
        s.memOk a = true ∧ OneCopy s (a / 128) ∧ ∃ j, s.jent (p.val + 1) slot.toNat = some j ∧ j.dirty = true
      post := fun t =>
        let a := s.fld (aCssJrnl (p.val + 1)) 51 16 * 65536 + 128 * slot.toNat
        KeepsLps s t [] ∧ (∀ x, x / 128 ≠ a / 128 → t.byte x = s.byte x) ∧ ∀ j, s.jent (p.val + 1) slot.toNat = some j →
          t.jent (p.val + 1) slot.toNat = some { j with dirty := false } ∧
          wordAt t a = j.tag % 2 ^ 32 * 2 ^ 32 + j.ring % 2 ^ 14 * 2 ^ 16 + j.part % 2 ^ 6 * 2 ^ 8 + j.state % 8 ∧ wordAt t (a + 8) = j.seq % 2 ^ 64 ∧
          wordAt t (a + 0x28) = j.result % 2 ^ 64 ∧ ∀ i, i < 8 → wordAt t (a + 0x40 + 8 * i) = (subW j.sub i).toNat }
  | _ => none

end Sys2Proof.Claims

/-- 11 R283 to R309, R316, R532: doorbell lines, the five ring commands with their results, admission of entries of every opcode with the checks of R297 in order, the issue of
an operation, the journal's registers and write-back, and what a deferred partition waits for. -/
def Obligations.RingEvents : Prop := Completes Working ringEvent

namespace Sys2Proof.Claims

/-! ### Span ports and sessions -/

/-- A Span event (12 R324): with the queue VALID it is written at the next entry, or sets OVERFLOW where the queue is full. -/
def Queued (s t : State) (type path port session faddr word1 : Nat) : Prop :=
  let q := 2 ^ (s.fld aSpnEvqBase 3 0 + 4)
  let e := s.fld aSpnEvqCtl 39 20
  let a := s.fld aSpnEvqBase 51 12 * 4096 + 16 * (e % q)
  s.flag aSpnEvqBase 63 = true →
    if (e + 2 ^ 20 - s.fld aSpnEvqCtl 19 0) % 2 ^ 20 = q then t.flag aSpnEvqCtl 63 = true ∧ t.fld aSpnEvqCtl 39 20 = e
    else t.fld aSpnEvqCtl 39 20 = (e + 1) % 2 ^ 20 ∧ (s.memOk a = true → OneCopy s (a / 128) →
      wordAt t a = (if e / q % 2 = 0 then 2 ^ 63 else 0) + type % 256 * 2 ^ 48 + path % 8 * 2 ^ 45 + port % 32 * 2 ^ 40 + session % 4096 * 2 ^ 24
        + faddr % 2 ^ 24 ∧ wordAt t (a + 8) = word1 % 2 ^ 64)

/-- No path of a session lies on port p. -/
def NoPath (s : State) (p : Nat) : Prop := ∀ e ∈ s.pathList, e.2.2.port ≠ p
/-- The port was not touched by anything that waits to leave it. -/
def PortIdle (s : State) (p : Nat) : Prop := (s.port p).queue = [] ∧ ∀ e ∈ s.jents, s.sendable p e.2.2 = false
/-- The windows of the Span ports answer. -/
def SpanOpen (s : State) : Prop := s.winShut aSpnScmd = false

/-- Link layer of the ports and the fabric's reports (12 R320 to R324, R331). -/
def portEvent (s : State) : Instr → Option Event
  | .spnLaneDegrade port => some
    { pre := NoPath s port.val ∧ (s.portState port.val = 2 → Soft s (0x2C0 + 8 * port.val)) ∧ (s.portState port.val = 3 → Soft s (0x2C1 + 8 * port.val))
      post := fun t =>
        let p := port.val
        let runs := s.gateRuns (20 + p / 8) = true
        (runs → s.portState p = 2 → t.portState p = 3 ∧ t.port p = s.port p ∧ Queued s t 3 0 p 0 (s.fld (aSpnPortStatus p) 47 24) 3 ∧
          Reported s t { src := 0x2C0 + 8 * p, idA := p }) ∧
        (runs → s.portState p = 3 → t.portState p = 4 ∧ t.port p = SpanPort.reset ∧ Queued s t 3 0 p 0 (s.fld (aSpnPortStatus p) 47 24) 4 ∧
          Reported s t { src := 0x2C1 + 8 * p, idA := p }) ∧
        (¬runs ∨ (s.portState p ≠ 2 ∧ s.portState p ≠ 3) → Only s t []) }
  | .spnPortFail port cause => some
    { pre := NoPath s port.val ∧ (s.portOk port.val = true → Soft s (0x2C1 + 8 * port.val))
      post := fun t =>
        let p := port.val
        (s.portOk p = true → t.portState p = 4 ∧ t.port p = SpanPort.reset ∧ Queued s t 3 0 p 0 (s.fld (aSpnPortStatus p) 47 24) 4 ∧
          Reported s t { src := 0x2C1 + 8 * p, idA := p, idB := cause.toNat }) ∧ (s.portOk p = false → Only s t []) }
  | .portRetrain port ok => some
    { pre := NoPath s port.val ∧ (ok = false → s.portState port.val = 1 → Soft s (0x2C2 + 8 * port.val))
      post := fun t =>
        let p := port.val
        let runs := s.gateRuns (20 + p / 8) = true
        (runs → s.portState p = 1 ∨ s.portState p = 4 → ok = true → t.portState p = 2 ∧ Queued s t 3 0 p 0 (s.fld (aSpnPortStatus p) 47 24) 2 ∧
          (if 0 < Config.spanCredit s.free ∧ s.spanStarved p 0 = false then (t.port p).unacked else (t.port p).queue).map (fun f => (f.lsn, f.vc, f.dst, f.words)) =
            [(0, 0, 0xFFFFFE, [Config.moduleName, p])] ∧ (t.port p).rxLsn = 0) ∧
        (runs → s.portState p = 1 → ok = false → t.portState p = 4 ∧ Queued s t 3 0 p 0 (s.fld (aSpnPortStatus p) 47 24) 4 ∧
          Reported s t { src := 0x2C2 + 8 * p, idA := p }) ∧
        (¬runs ∨ (s.portState p ≠ 1 ∧ s.portState p ≠ 4) → Only s t []) }
  | .replayReq port lsn => some
    { pre := NoPath s port.val ∧ (replaySpent (s.port port.val).unacked lsn.toNat = true → Soft s (0x2C1 + 8 * port.val))
      post := fun t =>
        let p := port.val
        let fs := (s.port p).unacked
        let kept := fs.any (fun f => f.lsn = lsn.toNat) = true
        (s.portOk p = false ∨ ¬kept → Only s t [] ∧ t.port p = s.port p) ∧
        (s.portOk p = true → kept → (∀ f ∈ fs, f.replays < 8) → upOne s t (aSpnPortStatus p) 63 48 ∧ Only s t [aSpnPortStatus p] ∧
          t.port p = { s.port p with unacked := fs.takeWhile (fun f => f.lsn ≠ lsn.toNat) ++
            (fs.dropWhile fun f => f.lsn ≠ lsn.toNat).map fun f => { f with replays := f.replays + 1 } }) ∧
        (s.portOk p = true → kept → replaySpent fs lsn.toNat = true → t.portState p = 4 ∧ t.port p = SpanPort.reset ∧
          Reported s t { src := 0x2C1 + 8 * p, idA := p, idB := 2 }) }
  | .ackTimeoutReplay port => some
    { pre := s.portOk port.val = true ∧ (s.port port.val).unacked ≠ [] ∧ ∀ f ∈ (s.port port.val).unacked, f.replays < 8
      post := fun t => upOne s t (aSpnPortStatus port.val) 63 48 ∧ Only s t [aSpnPortStatus port.val] ∧
        t.port port.val = { s.port port.val with unacked := (s.port port.val).unacked.map fun f => { f with replays := f.replays + 1 } } }
  | .frameReceive port ⟨kind, vc1⟩ lsn ack cr0 cr1 => some
    { pre := s.portOk port.val = true ∧ PortIdle s port.val ∧ (s.port port.val).uncorr < 16 ∧ (s.port port.val).rxLsn < 4096
      post := fun t =>
        let p := port.val
        let q := s.port p
        let behind := (q.rxLsn + 4096 - lsn.toNat % 4096) % 4096
        let old := kind = 0 ∧ 1 ≤ behind ∧ behind ≤ 2048
        let next := kind = 0 ∧ lsn.toNat = q.rxLsn
        let acked := if q.unacked.any (fun f => f.lsn = ack.toNat) then (q.unacked.dropWhile fun f => f.lsn ≠ ack.toNat).drop 1 else q.unacked
        (old → Only s t [] ∧ t.port p = q) ∧
        (kind = 3 → Only s t [] ∧ t.port p = { q with unacked := acked, credit0 := q.credit0 + cr0.toNat, credit1 := q.credit1 + cr1.toNat }) ∧
        (next → Only s t [] ∧ (t.port p).rxLsn = (q.rxLsn + 1) % 4096 ∧ (t.port p).asked = none ∧ (t.port p).unacked = acked ∧
          (t.port p).credit0 = q.credit0 + cr0.toNat ∧ (t.port p).credit1 = q.credit1 + cr1.toNat ∧
          ∃ f, (t.port p).link = some f ∧ f.kind = 1 ∧ f.ctl = 2 ∧ f.src = s.portAddr p ∧ f.ack = q.rxLsn ∧
            f.cr0 = min 255 (q.ret0 + if vc1 = true then 0 else 1) ∧ f.cr1 = min 255 (q.ret1 + if vc1 = true then 1 else 0)) ∧
        (¬old → ¬next → kind ≠ 3 → Only s t [aSpnPortStatus p] ∧ (t.port p).asked = some q.rxLsn ∧ (t.port p).rxLsn = q.rxLsn ∧
          (t.port p).unacked = q.unacked ∧ (t.port p).credit0 = q.credit0 ∧ (t.port p).credit1 = q.credit1 ∧
          (q.asked = some q.rxLsn → (t.port p).link = q.link) ∧
          (q.asked ≠ some q.rxLsn → ∃ f, (t.port p).link = some f ∧ f.kind = 1 ∧ f.ctl = 1 ∧ f.lsn = q.rxLsn) ∧
          (t.port p).uncorr = (if kind = 2 then q.uncorr + 1 else q.uncorr) ∧
          (kind = 2 → upOne s t (aSpnPortStatus p) 23 8) ∧ (kind ≠ 2 → t.reg (aSpnPortStatus p) = s.reg (aSpnPortStatus p))) }
  | .fabricLogin port peer v => some
    { pre := s.portOk port.val = true ∧ (peer = true → s.spn.sessions = [])
      post := fun t =>
        let p := port.val
        (peer = false → t.fld (aSpnPortStatus p) 47 24 = bits v 23 0 ∧ t.portState p = s.portState p ∧ Only s t [aSpnPortStatus p]) ∧
        (peer = true → let mine := if Config.moduleName < v.toNat then 1 else 2
          t.fld (aSpnPortStatus p) 47 24 = mine ∧ Queued s t 1 0 p 0 (3 - mine) v.toNat) }
  | .arrive port faddr name => some
    { pre := s.portOk port.val = true ∧ ∀ e ∈ s.pathList, e.2.2.faddr = faddr.toNat → e.2.2.pstate ≠ 3
      post := fun t => Queued s t 1 0 port.val 0 faddr.toNat name.toNat ∧ KeepsLps s t [aSpnEvqCtl] ∧ t.spn.sessions = s.spn.sessions }
  | .depart port faddr => some
    { pre := s.portOk port.val = true ∧ ∀ e ∈ s.pathList, e.2.2.faddr = faddr.toNat → e.2.2.pstate ≠ 2
      post := fun t => Queued s t 2 0 port.val 0 faddr.toNat 0 ∧ KeepsLps s t [aSpnEvqCtl] ∧ t.spn.sessions = s.spn.sessions }
  | _ => none

/-- Session i is x, with eight path places, and nothing is under way. -/
def Holds (s : State) (i : Nat) (x : Session) : Prop := s.session i = some x ∧ x.paths.length = 8 ∧ NoWork s
/-- Session i alone is open, and of its intervals none but those that `keep` leaves runs. -/
def AloneAt (s : State) (i : Nat) (x : Session) : Prop :=
  PlainTick s ∧ (∀ m, (s.lp m).devReq = none ∧ (s.lp m).awaited = none ∧ (s.lp m).posted = []) ∧ NotLost s ∧ s.spn.sessions = [(i, some x)] ∧ Holds s i x
/-- A path that is failed (12 R331). -/
def downPath (p : Path) : Path := { p with pstate := 3, login := none, ka := none, tx := false, rx := false }
/-- An interval that ends at the next boundary. -/
def endsNow (s : State) (v : Option Ival) : Prop := ∃ i d, v = some i ∧ i.due = some d ∧ d ≤ s.nextBoundary

/-- Sessions, their logins and what partners send (12 R325 to R335, 11 R311 to R314, R533). -/
def sessionEvent (s : State) : Instr → Option Event
  | .openSess session addr => some
    { pre := SpanOpen s ∧ s.flag aSpnScmdStatus 63 = false ∧ ∀ p, (s.port p).queue = []
      post := fun t =>
        let i := session.toNat
        let w := fun k => wordAt s (addr.toNat + 8 * k)
        let b := (List.range 32).map fun k => BitVec.ofNat 64 (w k)
        let part := w 1 / 2 ^ 8 % 64
        Only s t [aSpnScmdStatus] ∧
        ((s.session i).isSome = true → t.fld aSpnScmdStatus 7 0 = 1 ∧ t.session i = s.session i) ∧
        (s.session i = none → sessBlkOk b = false → t.fld aSpnScmdStatus 7 0 = 3 ∧ t.session i = none) ∧
        (s.session i = none → sessBlkOk b = true → s.flag (aCssJrnl part) 63 = false → t.fld aSpnScmdStatus 7 0 = 4 ∧ t.session i = none) ∧
        (s.session i = none → sessBlkOk b = true → s.flag (aCssJrnl part) 63 = true → t.fld aSpnScmdStatus 7 0 = 0 ∧
          ∃ x, t.session i = some x ∧ x.name.toNat = w 0 ∧ x.part = part ∧ x.revMask = w 1 % 256 ∧ x.sstate = 1 ∧ x.nextSeq = 1 ∧ x.ackMark = 0 ∧
            x.epoch = s.kst.rest.epoch ∧ t.kst.rest.epoch = (if s.kst.rest.epoch + 1 = 2 ^ 32 then 1 else s.kst.rest.epoch + 1) ∧
            ∀ k, k < 8 → (x.path k).valid = (w (4 + k)).testBit 63 ∧ ((x.path k).valid = true → (x.path k).port = w (4 + k) / 2 ^ 48 % 32 ∧
              (x.path k).faddr = w (4 + k) % 2 ^ 24 ∧ (x.path k).pstate = if s.portState (x.path k).port = 2 ∨ s.portState (x.path k).port = 3 then 1 else 3)) }
  | .modifySess session addr => some
    { pre := SpanOpen s ∧ s.flag aSpnScmdStatus 63 = false ∧ NoWork s ∧ ∀ x, s.session session.toNat = some x → x.paths.length = 8 ∧ x.sstate ≠ 4
      post := fun t =>
        let i := session.toNat
        let w := fun k => wordAt s (addr.toNat + 8 * k)
        let b := (List.range 32).map fun k => BitVec.ofNat 64 (w k)
        (s.session i = none → t.fld aSpnScmdStatus 7 0 = 2 ∧ Only s t [aSpnScmdStatus]) ∧
        ∀ x, s.session i = some x →
          let same := w 0 = x.name.toNat ∧ w 1 / 2 ^ 8 % 64 = x.part ∧ w 1 % 256 = x.revMask
          (sessBlkOk b = false ∨ ¬same → t.fld aSpnScmdStatus 7 0 = 3 ∧ t.session i = some x ∧ Only s t [aSpnScmdStatus]) ∧
          (sessBlkOk b = true → same → t.fld aSpnScmdStatus 7 0 = 0 ∧ ∃ y, t.session i = some y ∧ y.name = x.name ∧ y.nextSeq = x.nextSeq ∧
            (∀ k j, k < 8 → (y.path k).valid = true → x.placeOf (y.path k) = some j → (y.path k).pstate = (x.path j).pstate) ∧
            ∀ k, k < 8 → (y.path k).valid = (w (4 + k)).testBit 63 ∧ ((y.path k).valid = true → (y.path k).port = w (4 + k) / 2 ^ 48 % 32 ∧
              (y.path k).faddr = w (4 + k) % 2 ^ 24)) }
  | .closeSess session => some
    { pre := SpanOpen s ∧ s.flag aSpnScmdStatus 63 = false ∧ NoWork s
      post := fun t =>
        let i := session.toNat
        (s.session i = none → t.fld aSpnScmdStatus 7 0 = 2 ∧ Only s t [aSpnScmdStatus]) ∧
        ∀ x, s.session i = some x → t.session i = none ∧ (∀ k, k ≠ i → t.session k = s.session k) ∧ t.reg aSpnScmdStatus = 0 ∧
          (x.sstate ≠ 4 → Queued s t 0x20 0 0 i 0 0) }
  | .sessionQuery session addr => some
    { pre := SpanOpen s ∧ s.flag aSpnScmdStatus 63 = false ∧ addr.toNat % 256 = 0 ∧ s.memOk addr.toNat = true ∧ OneCopy s (addr.toNat / 128) ∧
        OneCopy s (addr.toNat / 128 + 1)
      post := fun t =>
        let i := session.toNat
        let a := addr.toNat
        (s.session i = none → t.fld aSpnScmdStatus 7 0 = 2 ∧ Only s t [aSpnScmdStatus]) ∧
        ∀ x, s.session i = some x → t.fld aSpnScmdStatus 7 0 = 0 ∧ KeepsLps s t [aSpnScmdStatus] ∧ (∀ y, y / 256 ≠ a / 256 → t.byte y = s.byte y) ∧
          wordAt t a = x.name.toNat ∧ wordAt t (a + 8) = x.epoch % 2 ^ 32 * 2 ^ 32 + x.rev % 16 * 2 ^ 24 + x.sstate % 16 * 2 ^ 16 + x.part % 64 * 2 ^ 8
            + x.revMask % 256 ∧ wordAt t (a + 16) = x.nextSeq % 2 ^ 64 ∧ wordAt t (a + 24) = x.ackMark % 2 ^ 64 }
  | .loginAccept session path mask name => some
    { pre := ∃ x, Holds s session.toNat x ∧ (x.path path.val).valid = true ∧ (x.path path.val).pstate = 1 ∧ x.sstate ≠ 4 ∧
        s.portOk (x.path path.val).port = true ∧ Soft s (0x2C4 + 8 * (x.path path.val).port)
      post := fun t => ∀ x, s.session session.toNat = some x →
        let i := session.toNat
        let k := path.val
        let p := x.path k
        let refused := fun (reason : Nat) => (∃ y, t.session i = some y ∧ (y.path k).pstate = 3 ∧ y.sstate = x.sstate) ∧
          Queued s t 0x12 k p.port i p.faddr reason ∧ Reported s t { src := 0x2C4 + 8 * p.port, idA := i, idB := k }
        ((∀ r, 3 ≤ r → r ≤ 5 → ¬(x.revMask.testBit r = true ∧ mask.toNat.testBit r = true)) → refused 2) ∧
        ∀ r, 3 ≤ r → r ≤ 5 → x.revMask.testBit r = true → mask.toNat.testBit r = true →
          (∀ r', r < r' → r' ≤ 5 → ¬(x.revMask.testBit r' = true ∧ mask.toNat.testBit r' = true)) →
          (name ≠ x.name → refused 3) ∧
          (name = x.name → x.rev ≠ 0 → x.rev ≠ r → refused 4) ∧
          (name = x.name → x.rev = 0 ∨ x.rev = r → Queued s t 0x10 k p.port i p.faddr 0 ∧ ∃ y, t.session i = some y ∧ y.sstate = 2 ∧ y.rev = r ∧
            y.loggedIn = true ∧ y.wait = none ∧ y.resume = none ∧ (y.path k).pstate = 2 ∧ (y.path k).login = none) }
  | .loginReject session path reason => some
    { pre := ∃ x, Holds s session.toNat x ∧ (x.path path.val).pstate = 1 ∧ x.sstate ≠ 4 ∧ Soft s (0x2C4 + 8 * (x.path path.val).port) ∧
        (1 ≤ reason.toNat ∧ reason.toNat ≤ 5 ∨ Soft s (0x2C3 + 8 * (x.path path.val).port))
      post := fun t => ∀ x, s.session session.toNat = some x →
        let p := x.path path.val
        (reason ≠ 1 → Queued s t 0x12 path.val p.port session.toNat p.faddr reason.toNat) ∧
        (1 ≤ reason.toNat → reason.toNat ≤ 5 → Reported s t { src := 0x2C4 + 8 * p.port, idA := session.toNat, idB := path.val }) ∧
        ∃ y, t.session session.toNat = some y ∧ (y.path path.val).pstate = 3 ∧ y.sstate = if reason = 1 then 4 else x.sstate }
  | .loginTimeout session path => some
    { pre := ∃ x, AloneAt s session.toNat x ∧ (x.path path.val).valid = true ∧ (x.path path.val).pstate = 1 ∧ x.sstate ≠ 4 ∧ x.wait = none ∧ x.resume = none ∧
        (x.path path.val).ka = none ∧ endsNow s (x.path path.val).login
      post := fun t => Boundary s t ∧ ∀ x, s.session session.toNat = some x → ∃ y, t.session session.toNat = some y ∧
        ((x.path path.val).sends < 5 → (y.path path.val).pstate = 1 ∧ (y.path path.val).sends = (x.path path.val).sends + 1) ∧
        (5 ≤ (x.path path.val).sends → (y.path path.val).pstate = 3) }
  | .keepaliveTimeout session path => some
    { pre := ∃ x, AloneAt s session.toNat x ∧ (x.path path.val).valid = true ∧ (x.path path.val).pstate = 2 ∧ x.sstate = 2 ∧ x.wait = none ∧ x.resume = none ∧
        (x.path path.val).login = none ∧ endsNow s (x.path path.val).ka
      post := fun t => Boundary s t ∧ ∃ y, t.session session.toNat = some y ∧ (y.path path.val).pstate = 3 }
  | .pathWaitExpiry session => some
    { pre := ∃ x, AloneAt s session.toNat x ∧ x.sstate ≠ 4 ∧ endsNow s x.wait
      post := fun t => Boundary s t ∧ ∃ y, t.session session.toNat = some y ∧ y.sstate = 4 ∧ y.wait = none ∧ Queued s t 0x20 0 0 session.toNat 0 0 }
  | .resumeTicksExpiry session => some
    { pre := ∃ x, AloneAt s session.toNat x ∧ x.sstate ≠ 4 ∧ endsNow s x.resume
      post := fun t => Boundary s t ∧ ∃ y, t.session session.toNat = some y ∧ y.sstate = 4 ∧ y.resume = none ∧ Queued s t 0x20 0 0 session.toNat 0 0 }
  | .logout session path whole => some
    { pre := ∃ x, Holds s session.toNat x ∧ (x.path path.val).valid = true ∧ x.sstate ≠ 4
      post := fun t => ∀ x, s.session session.toNat = some x → ∃ y, t.session session.toNat = some y ∧ (whole = true → y.sstate = 4) ∧
        (whole = true ∨ (x.path path.val).pstate = 2 → (y.path path.val).pstate = 3) ∧
        (whole = false → (x.path path.val).pstate ≠ 2 → y.sstate = x.sstate ∧ (y.path path.val).pstate = (x.path path.val).pstate) ∧ y.nextSeq = x.nextSeq ∧
        (whole = false → (x.path path.val).pstate = 2 →
          Queued s t 0x11 path.val (x.path path.val).port session.toNat (x.path path.val).faddr 0) }
  | .pathFailed session path => some
    { pre := ∃ x, Holds s session.toNat x ∧ (x.path path.val).valid = true ∧ (x.path path.val).pstate = 2 ∧ x.sstate = 2
      post := fun t => ∀ x, s.session session.toNat = some x →
        Queued s t 0x11 path.val (x.path path.val).port session.toNat (x.path path.val).faddr 0 ∧
        ∃ y, t.session session.toNat = some y ∧ y.path path.val = downPath (x.path path.val) ∧ (∀ k, k ≠ path.val → y.path k = x.path k) ∧
          ((∃ k, k < 8 ∧ k ≠ path.val ∧ (x.path k).valid = true ∧ (x.path k).pstate = 2) → y.sstate = 2) ∧
          ((∀ k, k < 8 → k ≠ path.val → ¬((x.path k).valid = true ∧ (x.path k).pstate = 2)) → y.sstate = 3 ∧
            y.wait = some { ticks := if s.fld aCssCfg 15 0 = 0 then 500 else s.fld aCssCfg 15 0, due := none }) }
  | .keepalive session path => some
    { pre := ∃ x, s.session session.toNat = some x ∧ x.paths.length = 8
      post := fun t => Only s t [] ∧ ∀ x, s.session session.toNat = some x → ∃ y, t.session session.toNat = some y ∧ (y.path path.val).rx = true ∧
        (y.path path.val).pstate = (x.path path.val).pstate ∧
        ((x.path path.val).pstate = 2 → (y.path path.val).ka = some { ticks := max 1 (s.fld aSpnCfg 7 0), due := none }) }
  | .answer session path seq epoch count result => some
    { pre := Listed s ∧ ∃ x q k j, s.session session.toNat = some x ∧ x.paths.length = 8 ∧ x.sstate ≠ 4 ∧ (x.path path.val).valid = true ∧
        s.findOp session.toNat seq.toNat epoch.toNat = some (q, k, j) ∧ k < 65536 ∧ count.toNat ≤ subLen j.sub ∧ s.spn.closing = none ∧
        (∀ r, s.ring j.ring = some r → r.state = 2 ∧ r.noCq = false)
      post := fun t => Only s t [] ∧ ∀ q k j, s.findOp session.toNat seq.toNat epoch.toNat = some (q, k, j) →
        (j.held ≠ [] → j.ans = none → t.jent q k = some { j with ans := some (count.toNat, result.toNat) }) ∧
        (j.held = [] → t.jent q k = some
          { j with state := 3, pstatus := if j.redrives = 0 then 0 else 0x40, unknown := false, result := count.toNat, aux := result.toNat, dirty := true }) }
  | .data session path seq epoch frameNo bytes => some
    { pre := Listed s ∧ ∃ x q k j, s.session session.toNat = some x ∧ x.sstate ≠ 4 ∧ (x.path path.val).valid = true ∧
        s.findOp session.toNat seq.toNat epoch.toNat = some (q, k, j) ∧ k < 65536 ∧ subOp j.sub = 1 ∧ subList j.sub = false ∧
        bytes.length = min 8192 (subLen j.sub - 8192 * frameNo.toNat) ∧ bytes ≠ [] ∧ (s.deferredFor q = false →
          let lo := subBuf j.sub + 8192 * frameNo.toNat
          lo / 2 ^ 28 = (lo + bytes.length - 1) / 2 ^ 28 ∧ ∃ e, s.hubEntry q (lo / 2 ^ 28) true = .ok (e, false) ∧ bits e 2 1 = 0 ∧
            ∀ b, b < bytes.length → s.memOk (pmtAbs e lo + b) = true ∧ OneCopy s ((pmtAbs e lo + b) / 128))
      post := fun t => KeepsLps s t [] ∧ ∀ q k j, s.findOp session.toNat seq.toNat epoch.toNat = some (q, k, j) →
        let lo := subBuf j.sub + 8192 * frameNo.toNat
        (s.deferredFor q = true → t.jent q k = some { j with held := j.held ++ [(frameNo.toNat, bytes)] } ∧ ∀ x, t.byte x = s.byte x) ∧
        ∀ e, s.deferredFor q = false → s.hubEntry q (lo / 2 ^ 28) true = .ok (e, false) →
          (∀ x, t.byte x = match bytes[x - pmtAbs e lo]? with | some b => if pmtAbs e lo ≤ x then b else s.byte x | none => s.byte x) ∧
          t.jent q k = some { j with result := max j.result (8192 * frameNo.toNat + bytes.length), dirty := true } }
  | _ => none

end Sys2Proof.Claims

/-- 12 R320 to R324, R331: a port degrades, fails and trains again, replays frames and takes frames in order; the fabric's answers and reports go to the event
queue. -/
def Obligations.PortEvents : Prop := Completes Working portEvent

/-- 12 R325 to R335, 11 R311 to R314, R533: the four session commands with their results, logins, paths that fail, intervals that end, answers and data of operations. -/
def Obligations.SessionEvents : Prop := Completes Working sessionEvent

namespace Sys2Proof.Claims

/-! ### PCIe -/

/-- Partition byte of a requester ID in the table of its segment, as a root port finds it (12 R339). -/
def requester (s : State) (seg rid : Nat) : Option Nat :=
  let held := smGet (fun _ => 0) s.pci.rid (65536 * seg + rid)
  let a := s.fld (aPciRidt seg) 51 16 * 65536 + rid
  if s.flag (aPciRidt seg) 63 = false then none
  else if held ≠ 0 then some (held - 1)
  else if s.memOk a = true ∧ s.badByte a = false then some (s.byte a).toNat
  else none

/-- The partition that an inbound request at an address is let through for, if it is. -/
def requesterPart (s : State) (seg rid addr : Nat) : Option Nat :=
  (requester s seg rid).bind fun p => if 1 ≤ p ∧ p ≤ 32 ∧ addr < 2 ^ 44 then some p else none

/-- n bytes at a partition-real address, inside one increment that the hub has translated before, lie in main memory from A on. -/
def Region (s : State) (p pra n A : Nat) (write : Bool) : Prop :=
  pra % 2 ^ 28 + n ≤ 2 ^ 28 ∧ ∃ e, s.hubEntry p (pra / 2 ^ 28) write = .ok (e, false) ∧ bits e 2 1 = 0 ∧ A = pmtAbs e pra ∧
    ∀ i, i < n → s.memOk (A + i) = true ∧ if write then OneCopy s ((A + i) / 128) else s.badByte (A + i) = false

/-- The bytes `out` stand at A on, and every other byte is as it was. -/
def Wrote (s t : State) (A : Nat) (out : List Byte) : Prop :=
  ∀ x, t.byte x = match out[x - A]? with | some b => if A ≤ x then b else s.byte x | none => s.byte x

/-- A configuration request has ended: BUSY is 0, STATUS tells how, and a read that failed shows all ones (12 R338). -/
def CfgEnded (s t : State) (write : Bool) (status data : Nat) (rs : List Nat) : Prop :=
  t.pci.req = none ∧ t.flag aPciCfgData 63 = false ∧ t.fld aPciCfgData 62 60 = status ∧
  (write = false → t.fld aPciCfgData 31 0 = if status = 0 then data % 2 ^ 32 else 2 ^ 32 - 1) ∧ Only s t (aPciCfgData :: rs)

/-- A configuration request of either kind to the address `a` has been issued, or has ended at once (12 R338). -/
def CfgIssued (s t : State) (write : Bool) (a : Word) (data : Nat) (rs : List Nat) : Prop :=
  (s.cfgRoot a = none → CfgEnded s t write 1 0 rs) ∧
  ∀ r, s.cfgRoot a = some r →
    (bits a 39 32 ≠ 0 → s.rootUp (bits a 41 40) r = false → CfgEnded s t write 5 0 rs) ∧
    (bits a 39 32 = 0 ∨ s.rootUp (bits a 41 40) r = true → t.flag aPciCfgData 63 = true ∧ Only s t (aPciCfgData :: rs) ∧
      t.pci.req = some { write := write, seg := bits a 41 40, root := r, data := data, retryEnd := none })

/-- A root port whose link is up and whose port's clock runs (12 R341, 18 R468). -/
def rootRuns (s : State) (n r : Nat) : Bool := s.rootUp n r && s.gateRuns (28 + n)

/-- Root ports, their requesters and configuration (12 R336 to R342). -/
def pcieEvent (s : State) : Instr → Option Event
  | .inboundRequest n r rid addr req claim => some
    { pre := rootRuns s n.val r.val = true → req ≠ .intx → req ≠ .translate → match requesterPart s n.val rid.toNat addr.toNat with
        | none => Soft s (0x3C3 + 8 * (4 * n.val + r.val))
        | some p => (∀ d, req = .write d → ¬(0xFFFFFF00000 ≤ addr.toNat ∧ addr.toNat < 0xFFFFFF10000)) ∧
            ((∃ d A, req = .write d ∧ Region s p addr.toNat d.length A true) ∨ (∃ k A, req = .read k ∧ Region s p addr.toNat k A false) ∨
              (Soft s (0x3C3 + 8 * (4 * n.val + r.val)) ∧ ∃ e, s.hubEntry p (addr.toNat / 2 ^ 28) (match req with | .write _ => true | _ => false) = .ok (e, false) ∧
                bits e 2 1 ≠ 0))
      post := fun t =>
        let no : FaultInfo := { src := 0x3C3 + 8 * (4 * n.val + r.val), info0 := addr.toNat, idA := n.val, idB := rid.toNat }
        (rootRuns s n.val r.val = false ∨ req = .intx ∨ req = .translate → Only s t []) ∧
        (rootRuns s n.val r.val = true → req ≠ .intx → req ≠ .translate →
          (requesterPart s n.val rid.toNat addr.toNat = none → Tells s t no []) ∧
          ∀ p, requesterPart s n.val rid.toNat addr.toNat = some p →
            (∀ d A, req = .write d → Region s p addr.toNat d.length A true → KeepsLps s t [] ∧ Wrote s t A d) ∧
            (∀ k A, req = .read k → Region s p addr.toNat k A false → Only s t [] ∧
              t.bus = BitVec.ofNat 64 (leNat ((List.range (min k 8)).map fun i => s.byte (A + i)))) ∧
            (∀ e, s.hubEntry p (addr.toNat / 2 ^ 28) (match req with | .write _ => true | _ => false) = .ok (e, false) → bits e 2 1 ≠ 0 →
              match s.devClaimedBy (pmtAbs e addr.toNat) with
              | none => Tells s t no []
              | some (m, _) => claim < 65536 → if requester s m claim = some p then Only s t [] else Tells s t no [])) }
  | .messageInterrupt n r rid off data => some
    { pre := rootRuns s n.val r.val = true → off.toNat < 65536 ∧ match requesterPart s n.val rid.toNat (0xFFFFFF00000 + off.toNat) with
        | none => Soft s (0x3C3 + 8 * (4 * n.val + r.val))
        | some _ => Soft s (0x3C4 + 8 * (4 * n.val + r.val))
      post := fun t =>
        let a := 0xFFFFFF00000 + off.toNat
        let lp := triOf (off.toNat / 16)
        (rootRuns s n.val r.val = false → Only s t []) ∧
        (rootRuns s n.val r.val = true →
          (requesterPart s n.val rid.toNat a = none →
            Tells s t { src := 0x3C3 + 8 * (4 * n.val + r.val), info0 := a, idA := n.val, idB := rid.toNat } []) ∧
          ∀ p, requesterPart s n.val rid.toNat a = some p →
            let legal := off.toNat % 16 = 0 ∧ off.toNat / 16 < 32 ∧ 48 ≤ data.toNat ∧ data.toNat < 256 ∧ bits (s.lp lp).arch.part 5 0 = p
            (legal → t.pend lp data.toNat = true ∧ (∀ v, v < 256 → v ≠ data.toNat → t.pend lp v = s.pend lp v) ∧
              Only s t [aTrdIntPend lp (data.toNat / 64)]) ∧
            (¬legal → Tells s t { src := 0x3C4 + 8 * (4 * n.val + r.val), info0 := a, idA := n.val, idB := rid.toNat } [])) }
  | .pciCfgAddrWrite v => some
    { pre := s.winShut aPciCfgAddr = false
      post := fun t =>
        let a := v &&& 0x3FFFF00FFFC
        (s.flag aPciCfgData 63 = true → Only s t [] ∧ t.pci = s.pci) ∧
        (s.flag aPciCfgData 63 = false → t.reg aPciCfgAddr = a ∧ CfgIssued s t false a (s.fld aPciCfgData 31 0) [aPciCfgAddr]) }
  | .pciCfgDataWrite v => some
    { pre := s.winShut aPciCfgData = false
      post := fun t =>
        (s.flag aPciCfgData 63 = true → Only s t [] ∧ t.pci = s.pci) ∧
        (s.flag aPciCfgData 63 = false → t.fld aPciCfgData 31 0 = v.toNat % 2 ^ 32 ∧
          CfgIssued s t true (s.reg aPciCfgAddr) (v.toNat % 2 ^ 32) []) }
  | .configCompletion ans => some
    { pre := True
      post := fun t => (s.pci.req = none → Only s t []) ∧
        (∀ q, s.pci.req = some q → s.gateRuns (28 + q.seg) = false → Only s t [] ∧ t.pci = s.pci) ∧
        ∀ q, s.pci.req = some q → s.gateRuns (28 + q.seg) = true →
        let a := s.reg aPciCfgAddr
        let k := 1024 * (4 * q.seg + q.root) + bits a 11 2
        let old := smGet (fun _ => 0) s.pci.cfg k
        match ans with
        | .success d =>
          (bits a 39 32 ≠ 0 → CfgEnded s t q.write 0 d.toNat [] ∧ t.pci.cfg = s.pci.cfg) ∧
          (bits a 39 32 = 0 → q.write = false → CfgEnded s t false 0 old [] ∧ t.pci.cfg = s.pci.cfg) ∧
          (bits a 39 32 = 0 → q.write = true → CfgEnded s t true 0 0 [] ∧
            (∀ i, i < 4 → smGet (fun _ => 0) t.pci.cfg k / 2 ^ (8 * i) % 256 =
              (if bit a (12 + i) = true then q.data else old) / 2 ^ (8 * i) % 256) ∧
            ∀ j, j ≠ k → smGet (fun _ => 0) t.pci.cfg j = smGet (fun _ => 0) s.pci.cfg j)
        | .unsupported => CfgEnded s t q.write 1 0 []
        | .abort => CfgEnded s t q.write 2 0 []
        | .timeout => CfgEnded s t q.write 4 0 []
        | .retry =>
          (q.write = true → CfgEnded s t true 3 0 []) ∧
          (q.write = false → q.retryEnd = none → Only s t [] ∧ t.pci.req = some { q with retryEnd := some (s.tod + 256000000) }) ∧
          ∀ e, q.write = false → q.retryEnd = some e →
            (e ≤ s.tod → CfgEnded s t false 3 0 []) ∧ (s.tod < e → Only s t [] ∧ t.pci.req = some q) }
  | .invRid n => some
    { pre := s.winShut (aPciRidt n.val) = false
      post := fun t => Only s t [] ∧
        ∀ k, smGet (fun _ => 0) t.pci.rid k = if k / 65536 = n.val then 0 else smGet (fun _ => 0) s.pci.rid k }
  | .pciLinkDown n r => some
    { pre := NoFrozen s ∧ (∀ m, (s.lp m).devReq = none ∧ (s.lp m).stReq = none ∧ (s.lp m).posted = []) ∧
        (rootRuns s n.val r.val = true → Soft s (0x3C0 + 8 * (4 * n.val + r.val)))
      post := fun t => (rootRuns s n.val r.val = false → Only s t []) ∧
        (rootRuns s n.val r.val = true → t.rootUp n.val r.val = false ∧ (∀ m q, m < 4 → q < 4 → (m, q) ≠ (n.val, r.val) → t.rootUp m q = s.rootUp m q) ∧
          Tells s t { src := 0x3C0 + 8 * (4 * n.val + r.val), idA := 4 * n.val + r.val } [aPciCfgData] ∧
          ∀ q, s.pci.req = some q →
            (q.seg = n.val ∧ q.root = r.val → t.pci.req = none ∧ t.flag aPciCfgData 63 = false ∧ t.fld aPciCfgData 62 60 = 5) ∧
            (¬(q.seg = n.val ∧ q.root = r.val) → t.pci.req = some q)) }
  | .aerErrorReported n r rid uncorr fatal => some
    { pre := NoFrozen s ∧ (∀ m, (s.lp m).devReq = none ∧ (s.lp m).stReq = none ∧ (s.lp m).posted = []) ∧
        (rootRuns s n.val r.val = true → Soft s ((if uncorr then 0x3C2 else 0x3C1) + 8 * (4 * n.val + r.val)) ∧
          (uncorr = true → fatal = true → Soft s (0x3C0 + 8 * (4 * n.val + r.val)) ∧ ∀ k, k < 16 → s.fld (aFcuClassCfg k) 41 40 ≤ 1))
      post := fun t => (rootRuns s n.val r.val = false → Only s t []) ∧
        (rootRuns s n.val r.val = true →
          (uncorr = true → fatal = true → t.rootUp n.val r.val = false) ∧
          (¬(uncorr = true ∧ fatal = true) → t.rootUp n.val r.val = true ∧
            Tells s t { src := (if uncorr then 0x3C2 else 0x3C1) + 8 * (4 * n.val + r.val), idA := 4 * n.val + r.val, idB := rid.toNat } [])) }
  | _ => none

/-! ### Partitions -/

/-- The partition registers as a write would leave them: configurations, quotas and reservations by partition. -/
structure Plan where
  cfg : Nat → Word
  l3q : Nat → Word
  res : Nat → Word

/-- As they stand. -/
def planOf (s : State) : Plan where
  cfg p := s.reg (aHubPartCfg p)
  l3q p := s.reg (aHubPartL3q p)
  res p := s.reg (aHubPartRes p)

/-- A unit is dedicated to two partitions (15 R419). -/
def Plan.twice (r : Plan) : Prop := ∃ p q u, 1 ≤ p ∧ p < q ∧ q ≤ 32 ∧ 32 ≤ u ∧ u < 48 ∧ bit (r.cfg p) u = true ∧ bit (r.cfg q) u = true
/-- A Sealed partition would have no way of a die's L3, or share one with another Sealed partition (15 R416). -/
def Plan.shares (r : Plan) : Prop :=
  ∃ p d, 1 ≤ p ∧ p ≤ 32 ∧ d < 4 ∧ bit (r.cfg p) 63 = true ∧ ((∀ w, w < 16 → bit (r.l3q p) (16 * d + w) = false) ∨
    ∃ q w, 1 ≤ q ∧ q ≤ 32 ∧ q ≠ p ∧ bit (r.cfg q) 63 = true ∧ w < 16 ∧ bit (r.l3q p) (16 * d + w) = true ∧ bit (r.l3q q) (16 * d + w) = true)
/-- Reservations of Sealed partitions exceed a capacity at the period in force (15 R417). -/
def Plan.exceeds (s : State) (r : Plan) : Prop :=
  let sum := fun (h l : Nat) => ((List.range 32).map fun i => if bit (r.cfg (i + 1)) 63 = true then bits (r.res (i + 1)) h l else 0).sum
  s.tick.period * 625 * s.mapLinks.length / 256 < sum 23 0 ∨ s.tick.period * 50000 / 262144 < sum 39 24

/-- A write of a partition register that is refused (15 R416) or taken. -/
def Planned (s t : State) (a : Nat) (v : Word) (bad : Prop) : Prop :=
  (bad → t.flag aHubPartStatus 1 = true ∧ Only s t [aHubPartStatus]) ∧ (¬bad → t.reg a = v ∧ Only s t [a]) ∧ t.part = s.part

/-- Writes of the partition registers (15 R415 to R419). -/
def partitionEvent (s : State) : Instr → Option Event
  | .hubPartCfgWrite p v => some
    { pre := True
      post := fun t =>
        let new := v &&& 0x8000FFFF00000000
        let r : Plan := { planOf s with cfg := fun q => if q = p.val + 1 then new else s.reg (aHubPartCfg q) }
        Planned s t (aHubPartCfg (p.val + 1)) new (r.twice ∨ (bit v 63 = true ∧ (r.shares ∨ s.flag aMemMap 63 = false ∨ r.exceeds s))) }
  | .hubPartL3qWrite p v => some
    { pre := True
      post := fun t => Planned s t (aHubPartL3q (p.val + 1)) v
        (Plan.shares { planOf s with l3q := fun q => if q = p.val + 1 then v else s.reg (aHubPartL3q q) }) }
  | .hubPartResWrite p v => some
    { pre := True
      post := fun t => Planned s t (aHubPartRes (p.val + 1)) (v &&& 0xFFFFFFFFFF)
        (s.flag aMemMap 63 = false ∨
          Plan.exceeds s { planOf s with res := fun q => if q = p.val + 1 then v &&& 0xFFFFFFFFFF else s.reg (aHubPartRes q) }) }
  | _ => none

end Sys2Proof.Claims

/-- 12 R337 to R341: inbound requests are let through by the requester tables, message interrupts are posted, configuration requests are issued and end, and
links go down. -/
def Obligations.PcieEvents : Prop := Completes Working pcieEvent

/-- 15 R415 to R417, R419: writes of HUB_PART_CFG, L3Q and RES are taken, or refused with CFG_BAD where they would break a rule of Sealed partitions; what is in force does
not change before the next boundary. -/
def Obligations.PartitionEvents : Prop := Completes Working partitionEvent

namespace Sys2Proof.Claims

/-! ### Compression engines -/

/-- Ring request `r` can be answered with a completion at `a`: nothing defers it, and no reservation can run out of slots (11 R303, R532, 15 R417). -/
def CanAnswer (s : State) (r : EngReq) (q : Ring) (a : Nat) : Prop :=
  s.ring r.ring = some q ∧ q.state ≠ 2 ∧ s.css.deferred.testBit q.part = false ∧ s.memReserved q.part = false ∧ CanComplete s q a

/-- The completion of engine request `r`, written at `a` (11 R303, R304, 13 R350, 14 R390). -/
def Answered (s t : State) (r : EngReq) (q : Ring) (a status result aux : Nat) : Prop :=
  wordAt t a = (if r.warm then 2 ^ 43 else 0) + (if subTs r.sub then 2 ^ 42 else 0) + status * 2 ^ 32 + r.tag % 2 ^ 32 ∧
  wordAt t (a + 8) = result % 2 ^ 64 ∧ wordAt t (a + 16) = aux % 2 ^ 64 ∧
  wordAt t (a + 24) = (if q.produced / 2 ^ q.log2 % 2 = 0 then 2 ^ 63 else 0) + (if subTs r.sub then s.tod / 256 % 2 ^ 39 * 2 ^ 24 else 0) + q.consumed % 2 ^ 24 ∧
  t.ring r.ring = some { q with produced := (q.produced + 1) % 2 ^ 24, intPend := true }

/-- No class would answer any event with more than an interrupt (17 R442, R446). -/
def Gentle (s : State) : Prop := (∀ src k, srcClass src = some k → Soft s src) ∧ ∀ k, k < 16 → s.fld (aFcuClassCfg k) 41 40 ≤ 1

/-- Engine e takes requests of partition p (13 R344, R375, 15 R419). -/
def Takes (s : State) (p e : Nat) : Prop := e < 8 ∧ s.cmpAvail e = true ∧ s.mayUse false p e = true

/-- Engine e serves request q, whose codec c is ready. -/
structure Serving (s : State) (e : Nat) (q : CmpReq) (c : Codec) : Prop where
  next : nextRes (s.cmpRes e) = some q
  codec : q.codec = some c
  hist : q.needHist = 0
  works : s.flag aCmpStatus (8 + e) = false ∧ s.deferredFor q.req.part = false

/-- The next slice of q, in one stretch: its codec reads from B and gives `out`, for A on. A decompression whose source does not give 64 KiB of
output goes on while more source follows (13 R344). -/
def SliceOf (s : State) (q : CmpReq) (c : Codec) (A : Nat) (c' : Codec) (used : Nat) (out : List Byte) (ev : Stretch) : Prop :=
  let n := match c with | .comp k => min q.srcLen (k.needBytes 65536) | .dec _ => min q.srcLen 65536
  let room := match c with | .comp _ => q.dstLen | .dec _ => min q.dstLen 65536
  (∃ B, Region s q.req.part q.src n B false ∧
    c.work ((List.range n).map fun i => s.byte (B + i)) (q.srcLen - n) room (decide (room = q.dstLen)) 65536 = (c', used, out, ev)) ∧
  Region s q.req.part q.dst out.length A true ∧
  (∀ d, c = .dec d → q.srcLen < 65536 ∨ 65536 ≤ out.length ∨ ev ≠ .more)

/-- The request after a slice. -/
def afterSlice (q : CmpReq) (c' : Codec) (used : Nat) (out : List Byte) : CmpReq :=
  { q with codec := some c', src := q.src + used, srcLen := q.srcLen - used, dst := q.dst + out.length, dstLen := q.dstLen - out.length
           wrote := q.wrote + out.length, used := q.used + used }

/-- Two stretches of memory have no byte in common. -/
def Clear (a n b k : Nat) : Prop := a + n ≤ b ∨ b + k ≤ a

/-- Nothing of the engines has changed. -/
def CmpSame (s t : State) : Prop := Only s t [] ∧ t.cmp = s.cmp

/-- Compression engines: placement, slices and ends (13 R344, R345, R350, R375). -/
def engineEvent (s : State) : Instr → Option Event
  | .engineRequestPlacement => some
    { pre := ∀ r rest, s.cmp.queue = r :: rest → (∀ e, ¬Takes s r.part e) → Soft s 0x4CE ∧
        ∃ B q a, Region s r.part (subParam r.sub + 64) 64 B true ∧ CanAnswer s r q a ∧ Clear B 64 a 32
      post := fun t => (s.cmp.queue = [] → CmpSame s t) ∧ ∀ r rest, s.cmp.queue = r :: rest →
        let can := fun e => Takes s r.part e ∧ (s.cmpRes e).length < 8
        ((∀ e, ¬Takes s r.part e) → t.cmp.queue = rest ∧ Reported s t { src := 0x4CE, part := r.part } ∧ KeepsLps s t (reportRegs s 0x4CE) ∧
          ∀ B q a, Region s r.part (subParam r.sub + 64) 64 B true → CanAnswer s r q a → Clear B 64 a 32 →
            wordAt t (B + 24) = 0x40 ∧ Answered s t r q a 0x7F 0 0) ∧
        ((∃ e, Takes s r.part e) → (∀ e, ¬can e) → CmpSame s t) ∧
        ∀ e, can e → (∀ f, can f → (s.cmpRes e).length ≤ (s.cmpRes f).length ∧ ((s.cmpRes f).length = (s.cmpRes e).length → e ≤ f)) →
          t.cmp.queue = rest ∧ t.domState (44 + e / 4) = 0 ∧ Only s t [aPwrDom (44 + e / 4), aPwrDom 62] ∧
          (∀ f, f ≠ e → t.cmpRes f = s.cmpRes f) ∧ ∃ x, t.cmpRes e = s.cmpRes e ++ [x] ∧ x.req = r ∧ x.blk = [] ∧ x.codec = none ∧ x.used = 0 ∧ x.wrote = 0 }
  | .sliceBoundary e => some
    { pre := nextRes (s.cmpRes e.val) = none ∨ ∃ q c A c' used out ev, Serving s e.val q c ∧ SliceOf s q c A c' used out ev
      post := fun t => (nextRes (s.cmpRes e.val) = none → CmpSame s t) ∧
        ∀ q c A c' used out ev, Serving s e.val q c → SliceOf s q c A c' used out ev →
          (ev ≠ .more → CmpSame s t) ∧
          (ev = .more → KeepsLps s t [] ∧ Wrote s t A out ∧ (∀ f, f ≠ e.val → t.cmpRes f = s.cmpRes f) ∧
            t.cmpRes e.val = (s.cmpRes e.val).filter (fun x => decide (x ≠ q)) ++ [afterSlice q c' used out]) }
  | .engineCompletion e none => some
    { pre := nextRes (s.cmpRes e.val) = none ∨ ∃ q c A c' used out ev, Serving s e.val q c ∧ SliceOf s q c A c' used out ev ∧ ∀ st d, ev = .over st d →
        q.blk ≠ [] ∧ subW q.blk 5 = 0 ∧ subW q.blk 6 = 0 ∧ ∃ B rq a, Region s q.req.part (subParam q.req.sub + 64) 64 B true ∧ CanAnswer s q.req rq a ∧
          ∀ i j, (i < out.length → j < 64 → A + i ≠ B + j) ∧ (i < out.length → j < 32 → A + i ≠ a + j) ∧ (i < 64 → j < 32 → B + i ≠ a + j)
      post := fun t => (nextRes (s.cmpRes e.val) = none → CmpSame s t) ∧
        ∀ q c A c' used out ev, Serving s e.val q c → SliceOf s q c A c' used out ev →
          (ev = .more → CmpSame s t) ∧
          ∀ st d, ev = .over st d → KeepsLps s t [] ∧ (∀ x, x ∈ t.cmpRes e.val → x ∈ s.cmpRes e.val ∧ x ≠ q) ∧
            ∀ B rq a, Region s q.req.part (subParam q.req.sub + 64) 64 B true → CanAnswer s q.req rq a →
              (st ≠ 0x21 → ∀ i, i < out.length → t.byte (A + i) = out.getD i 0) ∧
              wordAt t B = c'.outTotal % 2 ^ 64 ∧ wordAt t (B + 8) = c'.inTotal % 2 ^ 64 ∧ wordAt t (B + 24) = d % 2 ^ 64 ∧
              (st = 0x21 → Answered s t q.req rq a st 0 0) ∧
              (st ≠ 0x21 → Answered s t q.req rq a (st % 2 ^ 8) (q.wrote + out.length) ((q.used + used) % 2 ^ 32 + (c'.crc ^^^ 0xFFFFFFFF) * 2 ^ 32)) }
  | .engineCompletion e (some verify) => some
    { pre := ∀ q, nextRes (s.cmpRes e.val) = some q → q.blk = [] ∧ q.codec = none ∧ Soft s ((if verify then 0x442 else 0x441) + 8 * e.val) ∧
        ∃ B rq a, Region s q.req.part (subParam q.req.sub + 64) 64 B true ∧ CanAnswer s q.req rq a ∧ Clear B 64 a 32
      post := fun t => (nextRes (s.cmpRes e.val) = none → CmpSame s t) ∧ ∀ q, nextRes (s.cmpRes e.val) = some q →
        t.cmpRes e.val = (s.cmpRes e.val).filter (fun x => decide (x ≠ q)) ∧
        Reported s t { src := (if verify then 0x442 else 0x441) + 8 * e.val, idA := e.val, part := q.req.part } ∧
        ∀ B rq a, Region s q.req.part (subParam q.req.sub + 64) 64 B true → CanAnswer s q.req rq a → Clear B 64 a 32 →
          wordAt t (B + 24) = 0x40 ∧ Answered s t q.req rq a 0x7F q.wrote (q.used % 2 ^ 32) }
  | _ => none

/-! ### Cipher pipelines -/

/-- Nothing of the pipelines and the key store has changed. -/
def CphSame (s t : State) : Prop := Only s t [] ∧ t.cph = s.cph

/-- Pipeline e works on message m of request r in class c, and nothing waits for a slot. -/
def On (s : State) (e : Nat) (r : EngReq) (c : Nat) (m : Msg) : Prop :=
  (s.pipe e).active = some { req := r, cls := c, msg := some m } ∧ s.deferredFor r.part = false ∧ s.cph.clearing = []

/-- After a command of pipeline e its active message is m', and every other pipeline is as it was. -/
def Now (s t : State) (e : Nat) (r : EngReq) (c : Nat) (m' : Msg) : Prop :=
  t.pipe e = { s.pipe e with active := some { req := r, cls := c, msg := some m' } } ∧ (∀ k, k ≠ e → t.pipe k = s.pipe k) ∧ t.cph.queue = s.cph.queue

/-- Every slot but k holds what it held. -/
def SlotsBut (s t : State) (k : Nat) : Prop := ∀ j, j ≠ k → t.keySlot j = s.keySlot j

/-- What a stretch of n blocks of a data message gives, from the source bytes `bs` it takes (14 R378, R394): the output and the message after it. -/
def stretch (s : State) (m : Msg) (k : Nat) (bs : List Byte) : List Byte × Msg :=
  let keys := s.msgKeys m
  let (m', out) := m.run keys.1 keys.2 bs
  if m.hold then
    let f := m'.finish keys.1
    if f.status = 0 then (out, (m'.advance k out.length).over 0 0) else ([], { f.advance k 0 with inTotal := m'.inTotal })
  else
    let out := if m.mode = 5 then [] else out
    (out, if k = m.srcLen then (m'.advance k out.length).finish keys.1 else m'.advance k out.length)

/-- Blocks of work of pipeline e on an operation (14 R378, R382 to R386, R394, R407). -/
def cipherWork (s : State) (e blocks op : Nat) : Event where
  pre := (s.pipe e).active = none ∨ ∃ r c m, On s e r c m ∧ (m.op ≠ op ∨ blocks = 0 ∨ (m.ph = .data ∧ (
    ((1 ≤ op ∧ op ≤ 4 ∧ m.mode ≠ 0 ∧ m.mode ≠ 6) ∧ ∃ A B, let k := if m.hold then m.srcLen else min (16 * blocks) m.srcLen
      Region s r.part m.src k B false ∧ Region s r.part m.dst (stretch s m k ((List.range k).map fun i => s.byte (B + i))).1.length A true) ∨
    (m.mode = 0 ∧ op = 0x10 ∧ ∃ B, Region s r.part m.src 64 B false) ∨
    (m.mode = 0 ∧ (op = 0x11 ∨ op = 0x12) ∧ ∃ A, Region s r.part m.dst 64 A true) ∨
    (m.mode = 0 ∧ op = 0x13) ∨
    (m.mode = 0 ∧ op = 0x20 ∧ ∃ A, Region s r.part m.dst (min (16 * blocks) m.srcLen) A true ∧ (m.staged = [] ∨ m.srcLen ≤ m.staged.length)))))
  post t := ((s.pipe e).active = none → CphSame s t) ∧ ∀ r c m, On s e r c m → (m.op ≠ op ∨ blocks = 0 → CphSame s t) ∧
    (m.op = op → blocks ≠ 0 → m.ph = .data →
      let k1 := blkKey1 m.blk
      (1 ≤ op → op ≤ 4 → m.mode ≠ 0 → m.mode ≠ 6 → ∀ A B,
        let k := if m.hold then m.srcLen else min (16 * blocks) m.srcLen
        let o := stretch s m k ((List.range k).map fun i => s.byte (B + i))
        Region s r.part m.src k B false → Region s r.part m.dst o.1.length A true →
          KeepsLps s t [] ∧ Wrote s t A o.1 ∧ Now s t e r c o.2 ∧ t.cph.slots = s.cph.slots) ∧
      (op = 0x10 → ∀ B, Region s r.part m.src 64 B false → Only s t [] ∧ SlotsBut s t k1 ∧
        match tokenOpen 0 m.part (s.msgKeys m).2 ((List.range 64).map fun i => s.byte (B + i)), s.keySlot k1 with
        | none, _ => Now s t e r c (m.over 0x31 6) ∧ t.keySlot k1 = s.keySlot k1
        | some _, some x => Now s t e r c (m.over 0x31 7) ∧ t.keySlot k1 = some x
        | some ks, none => t.keySlot k1 = some ks ∧ ∃ m', Now s t e r c m' ∧ m'.ph = .over ∧ m'.status = 0 ∧ m'.detail = 0 ∧ m'.used = m.used + 64) ∧
      (op = 0x11 → (s.keySlot k1).isSome = true → Only s t [] ∧ Now s t e r c (m.over 0x31 7) ∧ t.cph.slots = s.cph.slots) ∧
      (op = 0x11 → s.keySlot k1 = none → ∀ A, Region s r.part m.dst 64 A true → KeepsLps s t [] ∧ SlotsBut s t k1 ∧
        let attr := BitVec.ofNat 64 (leNat (m.ivBytes.take 8))
        match (s.drbgGet m.part (if bit attr 8 then 32 else 16)).2 with
        | none => Now s t e r c (m.over 0x7F 0x41) ∧ t.keySlot k1 = s.keySlot k1
        | some bs => let ks : KeySlot := { key := numB bs, attr := attr }
          t.keySlot k1 = some ks ∧ Wrote s t A (tokenMake 0 (s.msgKeys m).2 ks) ∧ ∃ m', Now s t e r c m' ∧ m'.ph = .over ∧ m'.status = 0 ∧ m'.wrote = m.wrote + 64) ∧
      (op = 0x12 → ∀ A, Region s r.part m.dst 64 A true → KeepsLps s t [] ∧ t.cph.slots = s.cph.slots ∧ match s.keySlot k1 with
        | none => Now s t e r c (m.over 0x31 1)
        | some ks => Wrote s t A (tokenMake 0 (s.msgKeys m).2 ks) ∧ ∃ m', Now s t e r c m' ∧ m'.ph = .over ∧ m'.status = 0 ∧ m'.wrote = m.wrote + 64) ∧
      (op = 0x13 → Only s t [] ∧ SlotsBut s t k1 ∧ (∃ m', Now s t e r c m' ∧ m'.ph = .over ∧ m'.status = 0) ∧
        (s.slotInUse k1 = false → t.keySlot k1 = none ∧ t.cph.clearing = []) ∧
        (s.slotInUse k1 = true → t.keySlot k1 = s.keySlot k1 ∧ t.cph.clearing = [(k1, false)])) ∧
      (op = 0x20 → ∀ A, Region s r.part m.dst (min (16 * blocks) m.srcLen) A true → KeepsLps s t [] ∧ t.cph.slots = s.cph.slots ∧
        match (if m.staged.isEmpty then (s.drbgGet m.part m.srcLen).2 else some m.staged) with
        | none => Now s t e r c (m.over 0x7F 0x41)
        | some bs => let k := min (16 * blocks) m.srcLen
          Wrote s t A (bs.take k) ∧ ∃ m', Now s t e r c m' ∧ m'.staged = bs.drop k ∧ m'.used = m.used + k ∧ m'.wrote = m.wrote + k ∧
            (k = m.srcLen → m'.ph = .over ∧ m'.status = 0) ∧ (k < m.srcLen → m'.ph = .data)))

/-- The pipelines: placement, resumption, work, zeroing and ends (14 R378, R388 to R397, R409). -/
def cipherEvent (s : State) : Instr → Option Event
  | .cipherRequestPlacement => some
    { pre := Gentle s ∧ ∀ x, s.cphOrder.find? (fun x => (!s.cphAny x.1.part) || ((s.cphSpot x.1.part x.2).isSome && !s.deferredFor x.1.part)) = some x →
        s.cphSpot x.1.part x.2 = none → ∃ B q a, Region s x.1.part (subParam x.1.sub + 0x60) 32 B true ∧ CanAnswer s x.1 q a ∧ Clear B 32 a 32
      post := fun t =>
        let found := s.cphOrder.find? fun x => (!s.cphAny x.1.part) || ((s.cphSpot x.1.part x.2).isSome && !s.deferredFor x.1.part)
        (found = none → CphSame s t) ∧ ∀ r cls, found = some (r, cls) → t.cph.queue = s.cph.queue.erase r ∧
          (s.cphSpot r.part cls = none → Reported s t { src := 0x4D0, part := r.part } ∧ (∀ e, t.pipe e = s.pipe e) ∧
            ∀ B q a, Region s r.part (subParam r.sub + 0x60) 32 B true → CanAnswer s r q a → Clear B 32 a 32 →
              wordAt t (B + 16) = 0x40 ∧ Answered s t r q a 0x7F 0 (0x40 * 2 ^ 32)) ∧
          ∀ e pre, s.cphSpot r.part cls = some (e, pre) → ∃ m, t.pipe e =
              { active := some { req := r, cls := cls, msg := some m }, susp := if pre then (s.pipe e).active else none } ∧
            (∀ k, k ≠ e → t.pipe k = s.pipe k) ∧
            ∀ B D, Region s r.part (subParam r.sub) 96 B false → Region s r.part (subParam r.sub + 64) 64 D true →
              let b := (List.range 12).map fun i => BitVec.ofNat 64 (wordAt s (B + 8 * i))
              let m0 := Msg.fresh b r.part (subW b 1).toNat (subLen r.sub) (subW b 2).toNat (subW b 3).toNat
              (cphReservedOk true b = false → m = m0.over 0x11 0) ∧
              (cphReservedOk true b = true → cphCombo false false m0 = false → m = m0.over 0x12 0) ∧
              (cphReservedOk true b = true → cphCombo false false m0 = true → ∀ d, s.keysBad m0 = some d → m = m0.over 0x31 d) }
  | .class0Resume e => some
    { pre := True
      post := fun t => Only s t [] ∧ (∀ q, (s.pipe e.val).active = none → (s.pipe e.val).susp = some q → t.pipe e.val = { active := some q, susp := none } ∧
          ∀ k, k ≠ e.val → t.pipe k = s.pipe k) ∧
        ((s.pipe e.val).active ≠ none ∨ (s.pipe e.val).susp = none → t.cph = s.cph) }
  | .encrypt e n => some (cipherWork s e.val n 0x01)
  | .decrypt e n => some (cipherWork s e.val n 0x02)
  | .macGen e n => some (cipherWork s e.val n 0x03)
  | .macVerify e n => some (cipherWork s e.val n 0x04)
  | .keyLoad e n => some (cipherWork s e.val n 0x10)
  | .keyGen e n => some (cipherWork s e.val n 0x11)
  | .keyExport e n => some (cipherWork s e.val n 0x12)
  | .keyClear e n => some (cipherWork s e.val n 0x13)
  | .random e n => some (cipherWork s e.val n 0x20)
  | .cipherCompletion e upset => some
    { pre := (s.pipe e.val).active = none ∨ ∃ r c m, On s e.val r c m ∧ (upset = true → Soft s (0x481 + 8 * e.val)) ∧
        (m.ph ≠ .over ∧ upset = false ∨ (m.ctx = 0 ∧ ¬(m.status = 0x50 ∧ m.detail = 0x32) ∧ m.status < 256 ∧ m.blk ≠ [] ∧
          (∀ tg, m.tag = some tg → tg.length ≤ 16) ∧
          ∃ B q a, Region s r.part (subParam r.sub + 0x40) 64 B true ∧ CanAnswer s r q a ∧ ∀ i j, i < 64 → j < 32 → B + i ≠ a + j))
      post := fun t => ((s.pipe e.val).active = none → CphSame s t) ∧ ∀ r c m, On s e.val r c m →
        (m.ph ≠ .over → upset = false → CphSame s t) ∧
        (m.ph = .over ∨ upset = true → t.pipe e.val = { s.pipe e.val with active := none } ∧ (∀ k, k ≠ e.val → t.pipe k = s.pipe k) ∧
          (upset = true → Reported s t { src := 0x481 + 8 * e.val, idA := e.val, part := r.part }) ∧
          let st := if upset then 0x7F else m.status
          let d := if upset then 0x42 else m.detail
          ∀ B q a, Region s r.part (subParam r.sub + 0x40) 64 B true → CanAnswer s r q a →
            wordAt t (B + 32) = (if st = 0x30 then 0 else m.outTotal % 2 ^ 64) ∧ wordAt t (B + 40) = m.inTotal % 2 ^ 64 ∧ wordAt t (B + 48) = d % 2 ^ 64 ∧
            (m.ivGen = true → st = 0 → ∀ i, i < 16 → t.byte (B + i) = (beB 12 m.iv).getD i 0) ∧
            (∀ tg, m.tag = some tg → ∀ i, i < tg.length → t.byte (B + 16 + i) = tg.getD i 0) ∧
            (∀ x, x < B ∨ B + 64 ≤ x → x < a ∨ a + 32 ≤ x → t.byte x = s.byte x) ∧
            Answered s t r q a st (if st = 0x30 then 0 else m.wrote) (m.used % 2 ^ 32 + d * 2 ^ 32)) }
  | .authFailZeroing e n => some
    { pre := (s.pipe e.val).active = none ∨ ∃ r c m, On s e.val r c m ∧ (n = 0 ∨ m.ph ≠ .zeroing ∨
        ∃ A, Region s r.part (m.dstStart + m.zeroed) (min (16 * n) (m.outTotal - m.zeroed)) A true)
      post := fun t => ((s.pipe e.val).active = none → CphSame s t) ∧ ∀ r c m, On s e.val r c m → (n = 0 ∨ m.ph ≠ .zeroing → CphSame s t) ∧
        (n ≠ 0 → m.ph = .zeroing → ∀ A, Region s r.part (m.dstStart + m.zeroed) (min (16 * n) (m.outTotal - m.zeroed)) A true →
          let k := min (16 * n) (m.outTotal - m.zeroed)
          KeepsLps s t [] ∧ Wrote s t A (List.replicate k 0) ∧ ∃ m', Now s t e.val r c m' ∧ m'.zeroed = m.zeroed + k ∧
            (m.zeroed + k < m.outTotal → m' = { m with zeroed := m.zeroed + k }) ∧
            (m.outTotal ≤ m.zeroed + k → m'.ph = .over ∧ (m.unzeroed = 0 → m.status ≠ 0x50 → m'.status = 0x30 ∧ m'.detail = 0x10 ∧ m'.wrote = 0) ∧
              (m.unzeroed ≠ 0 → m'.status = 0x50 ∧ m'.detail = 0x32))) }
  | _ => none

/-! ### Key store and random source -/

/-- A command of CPH_KCMD ends with a result and does nothing else (14 R384). -/
def KcmdEnds (s t : State) (r : Nat) : Prop := t.reg aCphKcmdStatus = BitVec.ofNat 64 r ∧ Only s t [aCphKcmdStatus] ∧ t.cph = s.cph

/-- Address of the command block. -/
def kcmdBlock (s : State) : Nat := s.fld aCphKcmdAddr 51 8 * 256
/-- The block can be read, and the bytes its command does not use are zero (14 R384). -/
def BlockFine (s : State) (imp : Bool) : Prop :=
  let a := kcmdBlock s
  s.memOk a = true ∧ ∀ i, i < 256 → s.badByte (a + i) = false ∧
    ((8 ≤ i ∧ i < 64) ∨ (imp = false ∧ 128 ≤ i ∧ i < 224) ∨ 224 ≤ i → s.byte (a + i) = 0)
/-- Byte i of the block to byte j. -/
def blockPart (s : State) (i n : Nat) : List Byte := (List.range n).map fun k => s.byte (kcmdBlock s + i + k)

/-- A command that fills an empty slot k with a key (14 R384): with its first checks passed it does what `act` says for the slot's owner, under `need`. -/
def keyCommand (s : State) (k : Nat) (imp : Bool) (need : Nat → Prop) (act : Nat → State → Prop) : Event where
  pre := s.winShut aCphKcmd = false ∧ (BlockFine s imp → need (s.slotOwner k))
  post t := (s.flag aCphKcmdStatus 63 = true → CphSame s t) ∧ (s.flag aCphKcmdStatus 63 = false →
    (s.slotOwner k = 0 → KcmdEnds s t 1) ∧ (s.slotOwner k ≠ 0 →
      ((s.keySlot k).isSome = true → KcmdEnds s t 2) ∧ (s.keySlot k = none →
        (¬BlockFine s imp → KcmdEnds s t 3) ∧ (BlockFine s imp → act (s.slotOwner k) t))))

/-- Slot k has been filled with `ks`. -/
def Filled (s t : State) (k : Nat) (ks : KeySlot) : Prop := t.keySlot k = some ks ∧ SlotsBut s t k ∧ t.reg aCphKcmdStatus = 0

/-- The key store and the random source (14 R380 to R386, R405 to R408). -/
def keyEvent (s : State) : Instr → Option Event
  | .sealGen slot => some <| keyCommand s slot.toNat false
      (fun _ => ∀ i, i < 64 → s.memOk (kcmdBlock s + 64 + i) = true ∧ OneCopy s (kcmdBlock s / 128))
      fun p t =>
        let attr := BitVec.ofNat 64 (wordAt s (kcmdBlock s))
        (attrOk p attr = false → KcmdEnds s t 3) ∧
        (attrOk p attr = true → match (s.drbgGet 0 (if bit attr 8 then 32 else 16)).2 with
          | none => KcmdEnds s t 6
          | some bs => Filled s t slot.toNat { key := numB bs, attr := attr } ∧ KeepsLps s t [aCphKcmdStatus] ∧
            Wrote s t (kcmdBlock s + 64) (tokenMake 1 saveRks { key := numB bs, attr := attr }))
  | .sealLoad slot => some <| keyCommand s slot.toNat false (fun _ => True) fun p t => match tokenOpen 1 p saveRks (blockPart s 64 64) with
      | none => KcmdEnds s t 4
      | some ks => Filled s t slot.toNat ks ∧ Only s t [aCphKcmdStatus]
  | .keyImport slot => some <| keyCommand s slot.toNat true (fun _ => True) fun p t =>
      let x := numB (blockPart s 128 48)
      let y := numB (blockPart s 176 48)
      (¬(x < p384 ∧ y < p384 ∧ onP384 x y = true) → KcmdEnds s t 5) ∧
      (x < p384 ∧ y < p384 ∧ onP384 x y = true → match ecMul 384 modScalar (some (x, y)) none with
        | none => KcmdEnds s t 5
        | some (z, _) => match tokenOpen 2 p (roundKeys true (importKey z p)) (blockPart s 64 64) with
          | none => KcmdEnds s t 4
          | some ks => Filled s t slot.toNat ks ∧ Only s t [aCphKcmdStatus])
  | .clearKey slot => some
    { pre := s.winShut aCphKcmd = false ∧ s.cph.clearing = []
      post := fun t =>
        let k := slot.toNat
        (s.flag aCphKcmdStatus 63 = true → CphSame s t) ∧ (s.flag aCphKcmdStatus 63 = false →
          (s.slotOwner k = 0 → KcmdEnds s t 1) ∧ (s.slotOwner k ≠ 0 → Only s t [aCphKcmdStatus] ∧ SlotsBut s t k ∧
            (s.slotInUse k = false → t.keySlot k = none ∧ t.reg aCphKcmdStatus = 0 ∧ t.cph.clearing = []) ∧
            (s.slotInUse k = true → t.keySlot k = s.keySlot k ∧ t.flag aCphKcmdStatus 63 = true ∧ t.cph.clearing = [(k, true)]))) }
  | .keyQuery slot => some
    { pre := s.winShut aCphKcmd = false ∧ OneCopy s (kcmdBlock s / 128)
      post := fun t =>
        let k := slot.toNat
        (s.flag aCphKcmdStatus 63 = true → CphSame s t) ∧ (s.flag aCphKcmdStatus 63 = false →
          (s.slotOwner k = 0 → KcmdEnds s t 1) ∧ (s.slotOwner k ≠ 0 → s.memOk (kcmdBlock s) = false → KcmdEnds s t 3) ∧
          (s.slotOwner k ≠ 0 → (∀ i, i < 8 → s.memOk (kcmdBlock s + i) = true) → t.reg aCphKcmdStatus = 0 ∧ KeepsLps s t [aCphKcmdStatus] ∧ t.cph = s.cph ∧
            wordAt t (kcmdBlock s) = (match s.keySlot k with | some x => x.attr.toNat | none => 0) ∧
            ∀ x, x < kcmdBlock s ∨ kcmdBlock s + 8 ≤ x → t.byte x = s.byte x)) }
  | .cphKrangeWrite p v => some
    { pre := s.winShut aCphStatus = false ∧ smWf (fun _ => none) s.cph.slots = true
      post := fun t =>
        let a := aCphKrange (p.val + 1)
        let new := v &&& 0x800000001FFF3FFF
        let covers := fun (r : Word) (k : Nat) => bit r 63 = true ∧ bits r 28 16 ≤ k ∧ k < bits r 28 16 + bits r 13 0
        let bad := (bit v 63 = true ∧ (bits new 13 0 = 0 ∨ 8192 < bits new 28 16 + bits new 13 0)) ∨
          (bit v 63 = true ∧ ∃ q, q < 32 ∧ q ≠ p.val ∧ let r := s.reg (aCphKrange (q + 1))
            bit r 63 = true ∧ bits r 28 16 < bits new 28 16 + bits new 13 0 ∧ bits new 28 16 < bits r 28 16 + bits r 13 0) ∨
          ∃ k, (s.keySlot k).isSome = true ∧ covers (s.reg a) k ∧ ¬covers new k
        t.cph = s.cph ∧ (bad → t.flag aCphStatus 32 = true ∧ Only s t [aCphStatus]) ∧ (¬bad → t.reg a = new ∧ Only s t [a]) }
  | .rngDataRead => some
    { pre := s.winShut aRngData = false
      post := fun t => Only s t [] ∧
        (s.gateRuns 16 = false ∨ s.domUsable 61 = false ∨ smGet (fun _ => none) s.cph.drbg 0 = none → t.bus = 0) ∧
        ∀ d, s.gateRuns 16 = true → s.domUsable 61 = true → smGet (fun _ => none) s.cph.drbg 0 = some d →
          let d := if d.count < 65536 then d
            else { key := Config.entropy s.free % 2 ^ 256, v := Config.entropy (s.free + 1) % 2 ^ 128, count := 0 }
          t.bus = BitVec.ofNat 64 (leNat (drbgGen d 8).1) ∧ smGet (fun _ => none) t.cph.drbg 0 = some (drbgGen d 8).2 }
  | .retest => some
    { pre := s.winShut aRngCtl = false ∧ Soft s 0x4D2
      post := fun t =>
        (Config.selfTest s.free = true → t.flag aRngStatus 0 = true ∧ t.flag aRngStatus 1 = false ∧ Only s t [aRngStatus] ∧
          ∀ p, p < 33 → (smGet (fun _ => none) t.cph.drbg p).isSome = true) ∧
        (Config.selfTest s.free = false → t.flag aRngStatus 0 = false ∧ t.flag aRngStatus 1 = true ∧ t.fld aRngStatus 5 4 = 3 ∧ t.cph.drbg = [] ∧
          Tells s t { src := 0x4D2, info0 := 3 } [aRngStatus]) }
  | .rngHealthFail cause => some
    { pre := Soft s (if cause = 3 then 0x4D2 else 0x4D1)
      post := fun t =>
        (s.domState 61 = 3 ∨ s.gateRuns 16 = false ∨ s.flag aRngStatus 1 = true → CphSame s t) ∧
        (s.domState 61 ≠ 3 → s.gateRuns 16 = true → s.flag aRngStatus 1 = false → t.flag aRngStatus 0 = false ∧ t.flag aRngStatus 1 = true ∧
          t.fld aRngStatus 5 4 = cause.val ∧ t.cph.drbg = [] ∧ t.cph.slots = s.cph.slots ∧
          Tells s t { src := if cause = 3 then 0x4D2 else 0x4D1, info0 := cause.val } [aRngStatus]) }
  | _ => none

end Sys2Proof.Claims

/-- 13 R344, R345, R350, R375: a queued request goes to the least loaded engine of its partition or ends with INTERNAL_ERROR; a slice moves the request on and puts it behind
the others; a request that ends leaves its results and its completion. -/
def Obligations.EngineEvents : Prop := Completes Working engineEvent

/-- 14 R378, R382 to R397, R407, R409: cipher requests are placed by class, with the checks of R388 in order; each operation works block by block; messages that are over report;
output that must not be kept is zeroed. -/
def Obligations.CipherEvents : Prop := Completes Working cipherEvent

/-- 14 R380 to R386, R405 to R408: the commands of CPH_KCMD with their results, ranges of slots, and the random source. -/
def Obligations.KeyEvents : Prop := Completes Working keyEvent

/-- The queue: a step takes the command at its front and runs it on the state with the rest of the queue. On an empty queue the block idles, which is the
model's own convention (log entry 14): where no boundary is reached, one TOD unit passes and no command's state changes. -/
def Obligations.StepRunsFront : Prop :=
  (∀ (s : State) (c : Instr) (rest : List Instr), step { s with pending := c :: rest } = exec c { s with pending := rest }) ∧
  ∀ s : State, s.pending = [] → s.calm = true → s.pwr.todRun = true → s.tod + 1 < s.nextBoundary →
    ∃ t, step s = .next t ∧ t.tod = (s.tod + 1) % 2 ^ 64 ∧ t.pending = [] ∧ ∀ a, t.reg a = s.reg a ∧ t.byte a = s.byte a ∧ t.lps = s.lps

/-- Every step answers a next state: no command ends in a fault or a refusal, and every event raised by a command has reached the fault collector, or is
kept for it, when the command ends (17 R441, 18 R464). -/
def Obligations.StepsAnswer : Prop := ∀ s : State, ∃ t, step s = .next t ∧ t.raised = []

/-- Memory keeps its canonical form in every step (log entry 19 says what an unlisted byte reads as). -/
def Obligations.MemoryCanonical : Prop := ∀ s t : State, Memory.wf s.mem = true → step s = .next t → Memory.wf t.mem = true

/-- 01 R26, 02 R38, R39, 08 R232, 19 R479: what the state after always-on power-good holds: nothing waits, memory lists nothing in canonical form, Keystone is at step 1,
every LP's general, floating-point, accumulator and loop registers are zero with PSW at its reset value, every translation cache is empty, and the tick
registers hold their reset values. -/
def Obligations.ResetLeaves : Prop :=
  let s := State.reset
  s.pending = [] ∧ s.raised = [] ∧ Memory.wf s.mem = true ∧ (∀ a, s.byte a = 0) ∧ s.kst.phase = .due 1 ∧ s.hubPmt = [] ∧
  (∀ n, (∀ r, r < 64 → (s.lp n).arch.rdG r = 0) ∧ (∀ i, (s.lp n).arch.rdF i = 0) ∧ (∀ i, (s.lp n).arch.rdAcc i = 0) ∧
    (∀ k, k < 3 → v3 (s.lp n).arch.lsa k = 0 ∧ v3 (s.lp n).arch.lea k = 0 ∧ v3 (s.lp n).arch.lct k = 0) ∧
    (s.lp n).arch.psw = 0x0F000103 ∧ (s.lp n).arch.pl = plM ∧ (∀ c, c = (s.lp n).lead ∨ c = (s.lp n).second ∨ c = (s.lp n).third → c.tlbI = [] ∧ c.tlbD = []) ∧ (s.lp n).tlb2 = [] ∧ (s.lp n).walk = [] ∧
    s.mode n = 0) ∧
  s.reg aHubTickPeriod = 5120 ∧ s.reg aHubTickNum = 0 ∧ s.reg aHubOrderMode = 0x1FFFFFFFF ∧ s.reg aHubDevTimeout = 2 ∧ s.fld aClkStatus 2 0 = 0 ∧
  (∀ p, 1 ≤ p → p ≤ 32 → s.reg (aHubPmt p) = 0 ∧ s.reg (aHubPartCfg p) = 0) ∧ ∀ n v, v < 256 → s.pend n v = false
end

