-- ==== Sys2Proof/Laws/Memory.lean ====
section
/-! SUPPORT. Sparse maps and memory: a read after a write to the same place, a write leaves every other place, and every operation keeps
the canonical form. -/

namespace Sys2Proof.Machine
open Sys2Proof

variable {α : Type}

/-! ### Reading after writing -/

theorem smGet_smDel_other (d : Nat → α) {k j : Nat} (h : j ≠ k) (m : SMap α) : smGet d (smDel k m) j = smGet d m j := by
  induction m with
  | nil => rfl
  | cons e m ih =>
    obtain ⟨k', v⟩ := e
    by_cases hk : k' = k
    · subst hk; simp [smDel, smGet, h, ih]
    · simp [smDel, smGet, hk, ih]

theorem smGet_smDel_same (d : Nat → α) (k : Nat) (m : SMap α) : smGet d (smDel k m) k = d k := by
  induction m with
  | nil => rfl
  | cons e m ih =>
    obtain ⟨k', v⟩ := e
    by_cases hk : k' = k
    · simp [smDel, hk, ih]
    · have : k ≠ k' := fun h => hk h.symm
      simp [smDel, hk, smGet, this, ih]

theorem smGet_smIns_other (d : Nat → α) {k j : Nat} (h : j ≠ k) (v : α) (m : SMap α) : smGet d (smIns k v m) j = smGet d m j := by
  induction m with
  | nil => simp [smIns, smGet, h]
  | cons e m ih =>
    obtain ⟨k', v'⟩ := e
    by_cases hk : k < k'
    · simp [smIns, hk, smGet, h]
    · simp [smIns, hk, smGet, ih]

theorem smGet_smIns_same (d : Nat → α) (k : Nat) (v : α) (m : SMap α) : smGet d (smIns k v (smDel k m)) k = v := by
  induction m with
  | nil => simp [smDel, smIns, smGet]
  | cons e m ih =>
    obtain ⟨k', v'⟩ := e
    by_cases hk : k' = k
    · simp [smDel, hk, ih]
    · have hne : k ≠ k' := fun h => hk h.symm
      by_cases hlt : k < k'
      · simp [smDel, hk, smIns, hlt, smGet]
      · simp [smDel, hk, smIns, hlt, smGet, hne, ih]

/-- The value written is the value read. -/
@[simp] theorem smGet_smSet_same [DecidableEq α] (d : Nat → α) (m : SMap α) (k : Nat) (v : α) : smGet d (smSet d m k v) k = v := by
  unfold smSet
  split
  · rename_i h; rw [smGet_smDel_same, h]
  · exact smGet_smIns_same d k v m

/-- Every other key reads as before. -/
theorem smGet_smSet_other [DecidableEq α] (d : Nat → α) (m : SMap α) {k j : Nat} (h : j ≠ k) (v : α) :
    smGet d (smSet d m k v) j = smGet d m j := by
  unfold smSet
  split
  · exact smGet_smDel_other d h m
  · rw [smGet_smIns_other d h, smGet_smDel_other d h]

/-! ### The canonical form -/

theorem smRising_mono {lo lo' : Nat} (h : lo' ≤ lo) : ∀ {m : SMap α}, smRising lo m = true → smRising lo' m = true
  | [], _ => rfl
  | (k, v) :: m, hm => by
    simp only [smRising, Bool.and_eq_true, decide_eq_true_eq] at hm ⊢
    exact ⟨by omega, hm.2⟩

theorem smRising_del (k : Nat) : ∀ {lo : Nat} {m : SMap α}, smRising lo m = true → smRising lo (smDel k m) = true
  | _, [], _ => rfl
  | lo, (k', v) :: m, hm => by
    simp only [smRising, Bool.and_eq_true, decide_eq_true_eq] at hm
    have ih := smRising_del k hm.2
    by_cases hk : k' = k
    · simp only [smDel, hk, if_true]
      rw [hk] at ih hm
      exact smRising_mono (by omega) ih
    · simp [smDel, hk, smRising, hm.1, ih]

theorem smRising_ins {k : Nat} (v : α) : ∀ {lo : Nat} {m : SMap α}, smRising lo m = true → lo ≤ k → (∀ e ∈ m, e.1 ≠ k) →
    smRising lo (smIns k v m) = true
  | lo, [], _, hlo, _ => by simp [smIns, smRising, hlo]
  | lo, (k', v') :: m, hm, hlo, hne => by
    simp only [smRising, Bool.and_eq_true, decide_eq_true_eq] at hm
    have hk' : k' ≠ k := hne (k', v') (by simp)
    by_cases hlt : k < k'
    · simp only [smIns, hlt, if_true, smRising, Bool.and_eq_true, decide_eq_true_eq]
      exact ⟨hlo, by omega, hm.2⟩
    · simp only [smIns, hlt, if_false, smRising, Bool.and_eq_true, decide_eq_true_eq]
      exact ⟨hm.1, smRising_ins v hm.2 (by omega) fun e he => hne e (by simp [he])⟩

theorem smDel_ne (k : Nat) : ∀ (m : SMap α), ∀ e ∈ smDel k m, e.1 ≠ k
  | [], e, he => by simp [smDel] at he
  | (k', v) :: m, e, he => by
    by_cases hk : k' = k
    · simp only [smDel, hk, if_true] at he; exact smDel_ne k m e he
    · simp only [smDel, hk, if_false, List.mem_cons] at he
      rcases he with rfl | he
      · exact hk
      · exact smDel_ne k m e he

theorem smDel_sub (k : Nat) : ∀ (m : SMap α), ∀ e ∈ smDel k m, e ∈ m
  | [], e, he => by simp [smDel] at he
  | (k', v) :: m, e, he => by
    by_cases hk : k' = k
    · simp only [smDel, hk, if_true] at he; exact List.mem_cons_of_mem _ (smDel_sub k m e he)
    · simp only [smDel, hk, if_false, List.mem_cons] at he ⊢
      exact he.imp id (smDel_sub k m e)

theorem smIns_sub (k : Nat) (v : α) : ∀ (m : SMap α), ∀ e ∈ smIns k v m, e = (k, v) ∨ e ∈ m
  | [], e, he => by simpa [smIns] using he
  | (k', v') :: m, e, he => by
    by_cases hlt : k < k'
    · simpa [smIns, hlt] using he
    · simp only [smIns, hlt, if_false, List.mem_cons] at he ⊢
      rcases he with rfl | he
      · exact .inr (.inl rfl)
      · exact (smIns_sub k v m e he).imp id .inr

/-- A write keeps the canonical form of any sparse map. -/
theorem smWf_smSet [DecidableEq α] {d : Nat → α} {m : SMap α} (h : smWf d m = true) (k : Nat) (v : α) : smWf d (smSet d m k v) = true := by
  simp only [smWf, Bool.and_eq_true, List.all_eq_true, decide_eq_true_eq] at h ⊢
  have hd : smRising 0 (smDel k m) = true := smRising_del k h.1
  by_cases hv : v = d k
  · simp only [smSet, hv, if_true]
    exact ⟨hd, fun e he => h.2 e (smDel_sub k m e he)⟩
  · simp only [smSet, hv, if_false]
    refine ⟨smRising_ins v hd (Nat.zero_le _) (smDel_ne k m), fun e he => ?_⟩
    rcases smIns_sub k v _ e he with rfl | he
    · exact hv
    · exact h.2 e (smDel_sub k m e he)

/-- A filtered map stays canonical. -/
theorem smWf_filter [DecidableEq α] {d : Nat → α} {m : SMap α} (h : smWf d m = true) (p : Nat × α → Bool) : smWf d (m.filter p) = true := by
  simp only [smWf, Bool.and_eq_true, List.all_eq_true, decide_eq_true_eq] at h ⊢
  refine ⟨?_, fun e he => h.2 e ((List.mem_filter.mp he).1)⟩
  have key : ∀ (m : SMap α) (lo : Nat), smRising lo m = true → smRising lo (m.filter p) = true := by
    intro m
    induction m with
    | nil => intro lo _; rfl
    | cons e m ih =>
      intro lo hm
      obtain ⟨k, v⟩ := e
      simp only [smRising, Bool.and_eq_true, decide_eq_true_eq] at hm
      by_cases hp : p (k, v)
      · simp [List.filter, hp, smRising, hm.1, ih _ hm.2]
      · simp only [List.filter, hp]
        exact smRising_mono (by omega) (ih _ hm.2)
  exact key m 0 h.1

/-- Canonical maps that read alike are equal. -/
theorem smWf_empty [DecidableEq α] (d : Nat → α) : smWf d ([] : SMap α) = true := rfl

/-! ### Memory -/

/-- A byte written is read back. -/
@[simp] theorem memByte_memPut_same (m : Memory) (a : Nat) (b : Byte) : memByte (memPut m a b) a = b := smGet_smSet_same memDefault m a b

/-- Every other byte reads as before. -/
theorem memByte_memPut_other (m : Memory) {a j : Nat} (h : j ≠ a) (b : Byte) : memByte (memPut m a b) j = memByte m j :=
  smGet_smSet_other memDefault m h b

/-- Writing one byte keeps the canonical form. -/
theorem wf_memPut {m : Memory} (h : m.wf = true) (a : Nat) (b : Byte) : Memory.wf (memPut m a b) = true := smWf_smSet h a b

/-- Writing bytes keeps the canonical form. -/
theorem wf_memPuts (bs : List (Nat × Byte)) : ∀ {m : Memory}, m.wf = true → Memory.wf (memPuts m bs) = true := by
  induction bs with
  | nil => intro m h; exact h
  | cons e bs ih => intro m h; exact ih (wf_memPut h e.1 e.2)

/-- Addresses that are not written read as before. -/
theorem memByte_memPuts_other (bs : List (Nat × Byte)) : ∀ (m : Memory) {j : Nat}, (∀ e ∈ bs, e.1 ≠ j) → memByte (memPuts m bs) j = memByte m j := by
  induction bs with
  | nil => intro m j _; rfl
  | cons e bs ih =>
    intro m j h
    have h1 : j ≠ e.1 := fun hj => h e (by simp) hj.symm
    exact (ih (memPut m e.1 e.2) fun x hx => h x (by simp [hx])).trans (memByte_memPut_other m h1 e.2)

/-- The memory of reset is canonical. -/
theorem wf_reset : Memory.wf State.reset.mem = true := rfl

@[simp] theorem setPoison_mem (s : State) (g : Nat) (b : Bool) : (s.setPoison g b).mem = s.mem := rfl

theorem foldl_setPoison_mem (l : List Nat) (f : Nat → Nat) (p : Nat → Bool) (s : State) :
    (l.foldl (fun s i => s.setPoison (f i) (p i)) s).mem = s.mem := by
  induction l generalizing s with
  | nil => rfl
  | cons i l ih => simp [List.foldl, ih]

@[simp] theorem clearPoison_mem (s : State) (addrs : List Nat) : (s.clearPoison addrs).mem = s.mem := by
  unfold State.clearPoison
  generalize (addrs.map (· / 32)).eraseDups = gs
  induction gs generalizing s with
  | nil => rfl
  | cons g gs ih =>
    simp only [List.foldl]
    rw [ih]
    split <;> rfl

/-- A write to main memory puts exactly its bytes. -/
@[simp] theorem memWrite_mem (s : State) (bs : List (Nat × Byte)) : (s.memWrite bs).mem = memPuts s.mem bs := by
  unfold State.memWrite; split <;> simp

/-- Every write to main memory keeps the canonical form. -/
theorem wf_memWrite {s : State} (h : s.mem.wf = true) (bs : List (Nat × Byte)) : (s.memWrite bs).mem.wf = true := by
  simpa using wf_memPuts bs h

/-- A line written back keeps the canonical form. -/
theorem wf_memPutLine {s : State} (h : s.mem.wf = true) (line : Nat) (d : Line) (p : Nat) : (s.memPutLine line d p).mem.wf = true := by
  unfold State.memPutLine
  split
  · exact h
  · exact (foldl_setPoison_mem _ _ _ _).symm ▸ wf_memPuts _ h

end Sys2Proof.Machine
end

