-- ==== Sys2Proof/Laws/State.lean ====
section
/-! SUPPORT. One lemma per field and update of State, so that no proof unfolds a record update. -/

namespace Sys2Proof.Machine
open Sys2Proof

/-! ### Logical processors -/

theorem lp_eq (s : State) (n : Tri) : s.lp n = s.lps[n.val] := rfl

@[simp] theorem lp_updLp_same (s : State) (n : Tri) (f : Lp → Lp) : (s.updLp n f).lp n = f (s.lp n) := by
  rw [lp_eq]; simp only [State.updLp]; exact Vector.getElem_set_self _

theorem lp_updLp_other (s : State) {n m : Tri} (h : m ≠ n) (f : Lp → Lp) : (s.updLp n f).lp m = s.lp m := by
  rw [lp_eq]; simp only [State.updLp]
  exact Vector.getElem_set_ne _ _ fun h' => h (Fin.ext h'.symm)

@[simp] theorem updArch_lp (s : State) (n : Tri) (f : Arch → Arch) :
    (s.updArch n f).lp n = { s.lp n with arch := f (s.lp n).arch } := by simp [State.updArch]

/-! ### updLp -/

@[simp] theorem updLp_pending (s : State) (n : Tri) (f : Lp → Lp) : (s.updLp n f).pending = s.pending := by simp only [State.updLp]
@[simp] theorem updLp_mem (s : State) (n : Tri) (f : Lp → Lp) : (s.updLp n f).mem = s.mem := by simp only [State.updLp]
@[simp] theorem updLp_poison (s : State) (n : Tri) (f : Lp → Lp) : (s.updLp n f).poison = s.poison := by simp only [State.updLp]
@[simp] theorem updLp_ctl (s : State) (n : Tri) (f : Lp → Lp) : (s.updLp n f).ctl = s.ctl := by simp only [State.updLp]
@[simp] theorem updLp_l3 (s : State) (n : Tri) (f : Lp → Lp) : (s.updLp n f).l3 = s.l3 := by simp only [State.updLp]
@[simp] theorem updLp_hubPmt (s : State) (n : Tri) (f : Lp → Lp) : (s.updLp n f).hubPmt = s.hubPmt := by simp only [State.updLp]
@[simp] theorem updLp_part (s : State) (n : Tri) (f : Lp → Lp) : (s.updLp n f).part = s.part := by simp only [State.updLp]
@[simp] theorem updLp_tick (s : State) (n : Tri) (f : Lp → Lp) : (s.updLp n f).tick = s.tick := by simp only [State.updLp]
@[simp] theorem updLp_save (s : State) (n : Tri) (f : Lp → Lp) : (s.updLp n f).save = s.save := by simp only [State.updLp]
@[simp] theorem updLp_kst (s : State) (n : Tri) (f : Lp → Lp) : (s.updLp n f).kst = s.kst := by simp only [State.updLp]
@[simp] theorem updLp_fcu (s : State) (n : Tri) (f : Lp → Lp) : (s.updLp n f).fcu = s.fcu := by simp only [State.updLp]
@[simp] theorem updLp_pwr (s : State) (n : Tri) (f : Lp → Lp) : (s.updLp n f).pwr = s.pwr := by simp only [State.updLp]
@[simp] theorem updLp_therm (s : State) (n : Tri) (f : Lp → Lp) : (s.updLp n f).therm = s.therm := by simp only [State.updLp]
@[simp] theorem updLp_cnt (s : State) (n : Tri) (f : Lp → Lp) : (s.updLp n f).cnt = s.cnt := by simp only [State.updLp]
@[simp] theorem updLp_css (s : State) (n : Tri) (f : Lp → Lp) : (s.updLp n f).css = s.css := by simp only [State.updLp]
@[simp] theorem updLp_spn (s : State) (n : Tri) (f : Lp → Lp) : (s.updLp n f).spn = s.spn := by simp only [State.updLp]
@[simp] theorem updLp_pci (s : State) (n : Tri) (f : Lp → Lp) : (s.updLp n f).pci = s.pci := by simp only [State.updLp]
@[simp] theorem updLp_cmp (s : State) (n : Tri) (f : Lp → Lp) : (s.updLp n f).cmp = s.cmp := by simp only [State.updLp]
@[simp] theorem updLp_cph (s : State) (n : Tri) (f : Lp → Lp) : (s.updLp n f).cph = s.cph := by simp only [State.updLp]
@[simp] theorem updLp_raised (s : State) (n : Tri) (f : Lp → Lp) : (s.updLp n f).raised = s.raised := by simp only [State.updLp]
@[simp] theorem updLp_free (s : State) (n : Tri) (f : Lp → Lp) : (s.updLp n f).free = s.free := by simp only [State.updLp]
@[simp] theorem updLp_bus (s : State) (n : Tri) (f : Lp → Lp) : (s.updLp n f).bus = s.bus := by simp only [State.updLp]
@[simp] theorem updLp_dbg (s : State) (n : Tri) (f : Lp → Lp) : (s.updLp n f).dbg = s.dbg := by simp only [State.updLp]

/-! ### setReg -/

@[simp] theorem setReg_pending (s : State) (a : Nat) (v : Word) : (s.setReg a v).pending = s.pending := by simp only [State.setReg]
@[simp] theorem setReg_lps (s : State) (a : Nat) (v : Word) : (s.setReg a v).lps = s.lps := by simp only [State.setReg]
@[simp] theorem setReg_mem (s : State) (a : Nat) (v : Word) : (s.setReg a v).mem = s.mem := by simp only [State.setReg]
@[simp] theorem setReg_poison (s : State) (a : Nat) (v : Word) : (s.setReg a v).poison = s.poison := by simp only [State.setReg]
@[simp] theorem setReg_l3 (s : State) (a : Nat) (v : Word) : (s.setReg a v).l3 = s.l3 := by simp only [State.setReg]
@[simp] theorem setReg_hubPmt (s : State) (a : Nat) (v : Word) : (s.setReg a v).hubPmt = s.hubPmt := by simp only [State.setReg]
@[simp] theorem setReg_part (s : State) (a : Nat) (v : Word) : (s.setReg a v).part = s.part := by simp only [State.setReg]
@[simp] theorem setReg_tick (s : State) (a : Nat) (v : Word) : (s.setReg a v).tick = s.tick := by simp only [State.setReg]
@[simp] theorem setReg_save (s : State) (a : Nat) (v : Word) : (s.setReg a v).save = s.save := by simp only [State.setReg]
@[simp] theorem setReg_kst (s : State) (a : Nat) (v : Word) : (s.setReg a v).kst = s.kst := by simp only [State.setReg]
@[simp] theorem setReg_fcu (s : State) (a : Nat) (v : Word) : (s.setReg a v).fcu = s.fcu := by simp only [State.setReg]
@[simp] theorem setReg_pwr (s : State) (a : Nat) (v : Word) : (s.setReg a v).pwr = s.pwr := by simp only [State.setReg]
@[simp] theorem setReg_therm (s : State) (a : Nat) (v : Word) : (s.setReg a v).therm = s.therm := by simp only [State.setReg]
@[simp] theorem setReg_cnt (s : State) (a : Nat) (v : Word) : (s.setReg a v).cnt = s.cnt := by simp only [State.setReg]
@[simp] theorem setReg_css (s : State) (a : Nat) (v : Word) : (s.setReg a v).css = s.css := by simp only [State.setReg]
@[simp] theorem setReg_spn (s : State) (a : Nat) (v : Word) : (s.setReg a v).spn = s.spn := by simp only [State.setReg]
@[simp] theorem setReg_pci (s : State) (a : Nat) (v : Word) : (s.setReg a v).pci = s.pci := by simp only [State.setReg]
@[simp] theorem setReg_cmp (s : State) (a : Nat) (v : Word) : (s.setReg a v).cmp = s.cmp := by simp only [State.setReg]
@[simp] theorem setReg_cph (s : State) (a : Nat) (v : Word) : (s.setReg a v).cph = s.cph := by simp only [State.setReg]
@[simp] theorem setReg_raised (s : State) (a : Nat) (v : Word) : (s.setReg a v).raised = s.raised := by simp only [State.setReg]
@[simp] theorem setReg_free (s : State) (a : Nat) (v : Word) : (s.setReg a v).free = s.free := by simp only [State.setReg]
@[simp] theorem setReg_bus (s : State) (a : Nat) (v : Word) : (s.setReg a v).bus = s.bus := by simp only [State.setReg]
@[simp] theorem setReg_dbg (s : State) (a : Nat) (v : Word) : (s.setReg a v).dbg = s.dbg := by simp only [State.setReg]

/-! ### setFld -/

@[simp] theorem setFld_pending (s : State) (a h l v : Nat) : (s.setFld a h l v).pending = s.pending := setReg_pending s a _
@[simp] theorem setFld_lps (s : State) (a h l v : Nat) : (s.setFld a h l v).lps = s.lps := setReg_lps s a _
@[simp] theorem setFld_mem (s : State) (a h l v : Nat) : (s.setFld a h l v).mem = s.mem := setReg_mem s a _
@[simp] theorem setFld_poison (s : State) (a h l v : Nat) : (s.setFld a h l v).poison = s.poison := setReg_poison s a _
@[simp] theorem setFld_l3 (s : State) (a h l v : Nat) : (s.setFld a h l v).l3 = s.l3 := setReg_l3 s a _
@[simp] theorem setFld_hubPmt (s : State) (a h l v : Nat) : (s.setFld a h l v).hubPmt = s.hubPmt := setReg_hubPmt s a _
@[simp] theorem setFld_part (s : State) (a h l v : Nat) : (s.setFld a h l v).part = s.part := setReg_part s a _
@[simp] theorem setFld_tick (s : State) (a h l v : Nat) : (s.setFld a h l v).tick = s.tick := setReg_tick s a _
@[simp] theorem setFld_save (s : State) (a h l v : Nat) : (s.setFld a h l v).save = s.save := setReg_save s a _
@[simp] theorem setFld_kst (s : State) (a h l v : Nat) : (s.setFld a h l v).kst = s.kst := setReg_kst s a _
@[simp] theorem setFld_fcu (s : State) (a h l v : Nat) : (s.setFld a h l v).fcu = s.fcu := setReg_fcu s a _
@[simp] theorem setFld_pwr (s : State) (a h l v : Nat) : (s.setFld a h l v).pwr = s.pwr := setReg_pwr s a _
@[simp] theorem setFld_therm (s : State) (a h l v : Nat) : (s.setFld a h l v).therm = s.therm := setReg_therm s a _
@[simp] theorem setFld_cnt (s : State) (a h l v : Nat) : (s.setFld a h l v).cnt = s.cnt := setReg_cnt s a _
@[simp] theorem setFld_css (s : State) (a h l v : Nat) : (s.setFld a h l v).css = s.css := setReg_css s a _
@[simp] theorem setFld_spn (s : State) (a h l v : Nat) : (s.setFld a h l v).spn = s.spn := setReg_spn s a _
@[simp] theorem setFld_pci (s : State) (a h l v : Nat) : (s.setFld a h l v).pci = s.pci := setReg_pci s a _
@[simp] theorem setFld_cmp (s : State) (a h l v : Nat) : (s.setFld a h l v).cmp = s.cmp := setReg_cmp s a _
@[simp] theorem setFld_cph (s : State) (a h l v : Nat) : (s.setFld a h l v).cph = s.cph := setReg_cph s a _
@[simp] theorem setFld_raised (s : State) (a h l v : Nat) : (s.setFld a h l v).raised = s.raised := setReg_raised s a _
@[simp] theorem setFld_free (s : State) (a h l v : Nat) : (s.setFld a h l v).free = s.free := setReg_free s a _
@[simp] theorem setFld_bus (s : State) (a h l v : Nat) : (s.setFld a h l v).bus = s.bus := setReg_bus s a _
@[simp] theorem setFld_dbg (s : State) (a h l v : Nat) : (s.setFld a h l v).dbg = s.dbg := setReg_dbg s a _

/-! ### addSat -/

@[simp] theorem addSat_pending (s : State) (a h l k : Nat) : (s.addSat a h l k).pending = s.pending := setFld_pending s a h l _
@[simp] theorem addSat_lps (s : State) (a h l k : Nat) : (s.addSat a h l k).lps = s.lps := setFld_lps s a h l _
@[simp] theorem addSat_mem (s : State) (a h l k : Nat) : (s.addSat a h l k).mem = s.mem := setFld_mem s a h l _
@[simp] theorem addSat_poison (s : State) (a h l k : Nat) : (s.addSat a h l k).poison = s.poison := setFld_poison s a h l _
@[simp] theorem addSat_l3 (s : State) (a h l k : Nat) : (s.addSat a h l k).l3 = s.l3 := setFld_l3 s a h l _
@[simp] theorem addSat_hubPmt (s : State) (a h l k : Nat) : (s.addSat a h l k).hubPmt = s.hubPmt := setFld_hubPmt s a h l _
@[simp] theorem addSat_part (s : State) (a h l k : Nat) : (s.addSat a h l k).part = s.part := setFld_part s a h l _
@[simp] theorem addSat_tick (s : State) (a h l k : Nat) : (s.addSat a h l k).tick = s.tick := setFld_tick s a h l _
@[simp] theorem addSat_save (s : State) (a h l k : Nat) : (s.addSat a h l k).save = s.save := setFld_save s a h l _
@[simp] theorem addSat_kst (s : State) (a h l k : Nat) : (s.addSat a h l k).kst = s.kst := setFld_kst s a h l _
@[simp] theorem addSat_fcu (s : State) (a h l k : Nat) : (s.addSat a h l k).fcu = s.fcu := setFld_fcu s a h l _
@[simp] theorem addSat_pwr (s : State) (a h l k : Nat) : (s.addSat a h l k).pwr = s.pwr := setFld_pwr s a h l _
@[simp] theorem addSat_therm (s : State) (a h l k : Nat) : (s.addSat a h l k).therm = s.therm := setFld_therm s a h l _
@[simp] theorem addSat_cnt (s : State) (a h l k : Nat) : (s.addSat a h l k).cnt = s.cnt := setFld_cnt s a h l _
@[simp] theorem addSat_css (s : State) (a h l k : Nat) : (s.addSat a h l k).css = s.css := setFld_css s a h l _
@[simp] theorem addSat_spn (s : State) (a h l k : Nat) : (s.addSat a h l k).spn = s.spn := setFld_spn s a h l _
@[simp] theorem addSat_pci (s : State) (a h l k : Nat) : (s.addSat a h l k).pci = s.pci := setFld_pci s a h l _
@[simp] theorem addSat_cmp (s : State) (a h l k : Nat) : (s.addSat a h l k).cmp = s.cmp := setFld_cmp s a h l _
@[simp] theorem addSat_cph (s : State) (a h l k : Nat) : (s.addSat a h l k).cph = s.cph := setFld_cph s a h l _
@[simp] theorem addSat_raised (s : State) (a h l k : Nat) : (s.addSat a h l k).raised = s.raised := setFld_raised s a h l _
@[simp] theorem addSat_free (s : State) (a h l k : Nat) : (s.addSat a h l k).free = s.free := setFld_free s a h l _
@[simp] theorem addSat_bus (s : State) (a h l k : Nat) : (s.addSat a h l k).bus = s.bus := setFld_bus s a h l _
@[simp] theorem addSat_dbg (s : State) (a h l k : Nat) : (s.addSat a h l k).dbg = s.dbg := setFld_dbg s a h l _

/-! ### setMode -/

@[simp] theorem setMode_pending (s : State) (n : Tri) (k : Nat) : (s.setMode n k).pending = s.pending := setFld_pending s _ 39 36 k
@[simp] theorem setMode_lps (s : State) (n : Tri) (k : Nat) : (s.setMode n k).lps = s.lps := setFld_lps s _ 39 36 k
@[simp] theorem setMode_mem (s : State) (n : Tri) (k : Nat) : (s.setMode n k).mem = s.mem := setFld_mem s _ 39 36 k
@[simp] theorem setMode_poison (s : State) (n : Tri) (k : Nat) : (s.setMode n k).poison = s.poison := setFld_poison s _ 39 36 k
@[simp] theorem setMode_l3 (s : State) (n : Tri) (k : Nat) : (s.setMode n k).l3 = s.l3 := setFld_l3 s _ 39 36 k
@[simp] theorem setMode_hubPmt (s : State) (n : Tri) (k : Nat) : (s.setMode n k).hubPmt = s.hubPmt := setFld_hubPmt s _ 39 36 k
@[simp] theorem setMode_part (s : State) (n : Tri) (k : Nat) : (s.setMode n k).part = s.part := setFld_part s _ 39 36 k
@[simp] theorem setMode_tick (s : State) (n : Tri) (k : Nat) : (s.setMode n k).tick = s.tick := setFld_tick s _ 39 36 k
@[simp] theorem setMode_save (s : State) (n : Tri) (k : Nat) : (s.setMode n k).save = s.save := setFld_save s _ 39 36 k
@[simp] theorem setMode_kst (s : State) (n : Tri) (k : Nat) : (s.setMode n k).kst = s.kst := setFld_kst s _ 39 36 k
@[simp] theorem setMode_fcu (s : State) (n : Tri) (k : Nat) : (s.setMode n k).fcu = s.fcu := setFld_fcu s _ 39 36 k
@[simp] theorem setMode_pwr (s : State) (n : Tri) (k : Nat) : (s.setMode n k).pwr = s.pwr := setFld_pwr s _ 39 36 k
@[simp] theorem setMode_therm (s : State) (n : Tri) (k : Nat) : (s.setMode n k).therm = s.therm := setFld_therm s _ 39 36 k
@[simp] theorem setMode_cnt (s : State) (n : Tri) (k : Nat) : (s.setMode n k).cnt = s.cnt := setFld_cnt s _ 39 36 k
@[simp] theorem setMode_css (s : State) (n : Tri) (k : Nat) : (s.setMode n k).css = s.css := setFld_css s _ 39 36 k
@[simp] theorem setMode_spn (s : State) (n : Tri) (k : Nat) : (s.setMode n k).spn = s.spn := setFld_spn s _ 39 36 k
@[simp] theorem setMode_pci (s : State) (n : Tri) (k : Nat) : (s.setMode n k).pci = s.pci := setFld_pci s _ 39 36 k
@[simp] theorem setMode_cmp (s : State) (n : Tri) (k : Nat) : (s.setMode n k).cmp = s.cmp := setFld_cmp s _ 39 36 k
@[simp] theorem setMode_cph (s : State) (n : Tri) (k : Nat) : (s.setMode n k).cph = s.cph := setFld_cph s _ 39 36 k
@[simp] theorem setMode_raised (s : State) (n : Tri) (k : Nat) : (s.setMode n k).raised = s.raised := setFld_raised s _ 39 36 k
@[simp] theorem setMode_free (s : State) (n : Tri) (k : Nat) : (s.setMode n k).free = s.free := setFld_free s _ 39 36 k
@[simp] theorem setMode_bus (s : State) (n : Tri) (k : Nat) : (s.setMode n k).bus = s.bus := setFld_bus s _ 39 36 k
@[simp] theorem setMode_dbg (s : State) (n : Tri) (k : Nat) : (s.setMode n k).dbg = s.dbg := setFld_dbg s _ 39 36 k

/-! ### post -/

@[simp] theorem post_pending (s : State) (n : Tri) (v : Nat) : (s.post n v).pending = s.pending := setFld_pending s _ _ _ 1
@[simp] theorem post_lps (s : State) (n : Tri) (v : Nat) : (s.post n v).lps = s.lps := setFld_lps s _ _ _ 1
@[simp] theorem post_mem (s : State) (n : Tri) (v : Nat) : (s.post n v).mem = s.mem := setFld_mem s _ _ _ 1
@[simp] theorem post_poison (s : State) (n : Tri) (v : Nat) : (s.post n v).poison = s.poison := setFld_poison s _ _ _ 1
@[simp] theorem post_l3 (s : State) (n : Tri) (v : Nat) : (s.post n v).l3 = s.l3 := setFld_l3 s _ _ _ 1
@[simp] theorem post_hubPmt (s : State) (n : Tri) (v : Nat) : (s.post n v).hubPmt = s.hubPmt := setFld_hubPmt s _ _ _ 1
@[simp] theorem post_part (s : State) (n : Tri) (v : Nat) : (s.post n v).part = s.part := setFld_part s _ _ _ 1
@[simp] theorem post_tick (s : State) (n : Tri) (v : Nat) : (s.post n v).tick = s.tick := setFld_tick s _ _ _ 1
@[simp] theorem post_save (s : State) (n : Tri) (v : Nat) : (s.post n v).save = s.save := setFld_save s _ _ _ 1
@[simp] theorem post_kst (s : State) (n : Tri) (v : Nat) : (s.post n v).kst = s.kst := setFld_kst s _ _ _ 1
@[simp] theorem post_fcu (s : State) (n : Tri) (v : Nat) : (s.post n v).fcu = s.fcu := setFld_fcu s _ _ _ 1
@[simp] theorem post_pwr (s : State) (n : Tri) (v : Nat) : (s.post n v).pwr = s.pwr := setFld_pwr s _ _ _ 1
@[simp] theorem post_therm (s : State) (n : Tri) (v : Nat) : (s.post n v).therm = s.therm := setFld_therm s _ _ _ 1
@[simp] theorem post_cnt (s : State) (n : Tri) (v : Nat) : (s.post n v).cnt = s.cnt := setFld_cnt s _ _ _ 1
@[simp] theorem post_css (s : State) (n : Tri) (v : Nat) : (s.post n v).css = s.css := setFld_css s _ _ _ 1
@[simp] theorem post_spn (s : State) (n : Tri) (v : Nat) : (s.post n v).spn = s.spn := setFld_spn s _ _ _ 1
@[simp] theorem post_pci (s : State) (n : Tri) (v : Nat) : (s.post n v).pci = s.pci := setFld_pci s _ _ _ 1
@[simp] theorem post_cmp (s : State) (n : Tri) (v : Nat) : (s.post n v).cmp = s.cmp := setFld_cmp s _ _ _ 1
@[simp] theorem post_cph (s : State) (n : Tri) (v : Nat) : (s.post n v).cph = s.cph := setFld_cph s _ _ _ 1
@[simp] theorem post_raised (s : State) (n : Tri) (v : Nat) : (s.post n v).raised = s.raised := setFld_raised s _ _ _ 1
@[simp] theorem post_free (s : State) (n : Tri) (v : Nat) : (s.post n v).free = s.free := setFld_free s _ _ _ 1
@[simp] theorem post_bus (s : State) (n : Tri) (v : Nat) : (s.post n v).bus = s.bus := setFld_bus s _ _ _ 1
@[simp] theorem post_dbg (s : State) (n : Tri) (v : Nat) : (s.post n v).dbg = s.dbg := setFld_dbg s _ _ _ 1

/-! ### unpend -/

@[simp] theorem unpend_pending (s : State) (n : Tri) (v : Nat) : (s.unpend n v).pending = s.pending := setFld_pending s _ _ _ 0
@[simp] theorem unpend_lps (s : State) (n : Tri) (v : Nat) : (s.unpend n v).lps = s.lps := setFld_lps s _ _ _ 0
@[simp] theorem unpend_mem (s : State) (n : Tri) (v : Nat) : (s.unpend n v).mem = s.mem := setFld_mem s _ _ _ 0
@[simp] theorem unpend_poison (s : State) (n : Tri) (v : Nat) : (s.unpend n v).poison = s.poison := setFld_poison s _ _ _ 0
@[simp] theorem unpend_l3 (s : State) (n : Tri) (v : Nat) : (s.unpend n v).l3 = s.l3 := setFld_l3 s _ _ _ 0
@[simp] theorem unpend_hubPmt (s : State) (n : Tri) (v : Nat) : (s.unpend n v).hubPmt = s.hubPmt := setFld_hubPmt s _ _ _ 0
@[simp] theorem unpend_part (s : State) (n : Tri) (v : Nat) : (s.unpend n v).part = s.part := setFld_part s _ _ _ 0
@[simp] theorem unpend_tick (s : State) (n : Tri) (v : Nat) : (s.unpend n v).tick = s.tick := setFld_tick s _ _ _ 0
@[simp] theorem unpend_save (s : State) (n : Tri) (v : Nat) : (s.unpend n v).save = s.save := setFld_save s _ _ _ 0
@[simp] theorem unpend_kst (s : State) (n : Tri) (v : Nat) : (s.unpend n v).kst = s.kst := setFld_kst s _ _ _ 0
@[simp] theorem unpend_fcu (s : State) (n : Tri) (v : Nat) : (s.unpend n v).fcu = s.fcu := setFld_fcu s _ _ _ 0
@[simp] theorem unpend_pwr (s : State) (n : Tri) (v : Nat) : (s.unpend n v).pwr = s.pwr := setFld_pwr s _ _ _ 0
@[simp] theorem unpend_therm (s : State) (n : Tri) (v : Nat) : (s.unpend n v).therm = s.therm := setFld_therm s _ _ _ 0
@[simp] theorem unpend_cnt (s : State) (n : Tri) (v : Nat) : (s.unpend n v).cnt = s.cnt := setFld_cnt s _ _ _ 0
@[simp] theorem unpend_css (s : State) (n : Tri) (v : Nat) : (s.unpend n v).css = s.css := setFld_css s _ _ _ 0
@[simp] theorem unpend_spn (s : State) (n : Tri) (v : Nat) : (s.unpend n v).spn = s.spn := setFld_spn s _ _ _ 0
@[simp] theorem unpend_pci (s : State) (n : Tri) (v : Nat) : (s.unpend n v).pci = s.pci := setFld_pci s _ _ _ 0
@[simp] theorem unpend_cmp (s : State) (n : Tri) (v : Nat) : (s.unpend n v).cmp = s.cmp := setFld_cmp s _ _ _ 0
@[simp] theorem unpend_cph (s : State) (n : Tri) (v : Nat) : (s.unpend n v).cph = s.cph := setFld_cph s _ _ _ 0
@[simp] theorem unpend_raised (s : State) (n : Tri) (v : Nat) : (s.unpend n v).raised = s.raised := setFld_raised s _ _ _ 0
@[simp] theorem unpend_free (s : State) (n : Tri) (v : Nat) : (s.unpend n v).free = s.free := setFld_free s _ _ _ 0
@[simp] theorem unpend_bus (s : State) (n : Tri) (v : Nat) : (s.unpend n v).bus = s.bus := setFld_bus s _ _ _ 0
@[simp] theorem unpend_dbg (s : State) (n : Tri) (v : Nat) : (s.unpend n v).dbg = s.dbg := setFld_dbg s _ _ _ 0

/-! ### count -/

@[simp] theorem count_pending (s : State) (u w k : Nat) : (s.count u w k).pending = s.pending := by simp only [State.count]
@[simp] theorem count_lps (s : State) (u w k : Nat) : (s.count u w k).lps = s.lps := by simp only [State.count]
@[simp] theorem count_mem (s : State) (u w k : Nat) : (s.count u w k).mem = s.mem := by simp only [State.count]
@[simp] theorem count_poison (s : State) (u w k : Nat) : (s.count u w k).poison = s.poison := by simp only [State.count]
@[simp] theorem count_ctl (s : State) (u w k : Nat) : (s.count u w k).ctl = s.ctl := by simp only [State.count]
@[simp] theorem count_l3 (s : State) (u w k : Nat) : (s.count u w k).l3 = s.l3 := by simp only [State.count]
@[simp] theorem count_hubPmt (s : State) (u w k : Nat) : (s.count u w k).hubPmt = s.hubPmt := by simp only [State.count]
@[simp] theorem count_part (s : State) (u w k : Nat) : (s.count u w k).part = s.part := by simp only [State.count]
@[simp] theorem count_tick (s : State) (u w k : Nat) : (s.count u w k).tick = s.tick := by simp only [State.count]
@[simp] theorem count_save (s : State) (u w k : Nat) : (s.count u w k).save = s.save := by simp only [State.count]
@[simp] theorem count_kst (s : State) (u w k : Nat) : (s.count u w k).kst = s.kst := by simp only [State.count]
@[simp] theorem count_fcu (s : State) (u w k : Nat) : (s.count u w k).fcu = s.fcu := by simp only [State.count]
@[simp] theorem count_pwr (s : State) (u w k : Nat) : (s.count u w k).pwr = s.pwr := by simp only [State.count]
@[simp] theorem count_therm (s : State) (u w k : Nat) : (s.count u w k).therm = s.therm := by simp only [State.count]
@[simp] theorem count_css (s : State) (u w k : Nat) : (s.count u w k).css = s.css := by simp only [State.count]
@[simp] theorem count_spn (s : State) (u w k : Nat) : (s.count u w k).spn = s.spn := by simp only [State.count]
@[simp] theorem count_pci (s : State) (u w k : Nat) : (s.count u w k).pci = s.pci := by simp only [State.count]
@[simp] theorem count_cmp (s : State) (u w k : Nat) : (s.count u w k).cmp = s.cmp := by simp only [State.count]
@[simp] theorem count_cph (s : State) (u w k : Nat) : (s.count u w k).cph = s.cph := by simp only [State.count]
@[simp] theorem count_raised (s : State) (u w k : Nat) : (s.count u w k).raised = s.raised := by simp only [State.count]
@[simp] theorem count_free (s : State) (u w k : Nat) : (s.count u w k).free = s.free := by simp only [State.count]
@[simp] theorem count_bus (s : State) (u w k : Nat) : (s.count u w k).bus = s.bus := by simp only [State.count]
@[simp] theorem count_dbg (s : State) (u w k : Nat) : (s.count u w k).dbg = s.dbg := by simp only [State.count]

/-! ### raise -/

@[simp] theorem raise_pending (s : State) (x : FaultInfo) : (s.raise x).pending = s.pending := by simp only [State.raise]
@[simp] theorem raise_lps (s : State) (x : FaultInfo) : (s.raise x).lps = s.lps := by simp only [State.raise]
@[simp] theorem raise_mem (s : State) (x : FaultInfo) : (s.raise x).mem = s.mem := by simp only [State.raise]
@[simp] theorem raise_poison (s : State) (x : FaultInfo) : (s.raise x).poison = s.poison := by simp only [State.raise]
@[simp] theorem raise_ctl (s : State) (x : FaultInfo) : (s.raise x).ctl = s.ctl := by simp only [State.raise]
@[simp] theorem raise_l3 (s : State) (x : FaultInfo) : (s.raise x).l3 = s.l3 := by simp only [State.raise]
@[simp] theorem raise_hubPmt (s : State) (x : FaultInfo) : (s.raise x).hubPmt = s.hubPmt := by simp only [State.raise]
@[simp] theorem raise_part (s : State) (x : FaultInfo) : (s.raise x).part = s.part := by simp only [State.raise]
@[simp] theorem raise_tick (s : State) (x : FaultInfo) : (s.raise x).tick = s.tick := by simp only [State.raise]
@[simp] theorem raise_save (s : State) (x : FaultInfo) : (s.raise x).save = s.save := by simp only [State.raise]
@[simp] theorem raise_kst (s : State) (x : FaultInfo) : (s.raise x).kst = s.kst := by simp only [State.raise]
@[simp] theorem raise_fcu (s : State) (x : FaultInfo) : (s.raise x).fcu = s.fcu := by simp only [State.raise]
@[simp] theorem raise_pwr (s : State) (x : FaultInfo) : (s.raise x).pwr = s.pwr := by simp only [State.raise]
@[simp] theorem raise_therm (s : State) (x : FaultInfo) : (s.raise x).therm = s.therm := by simp only [State.raise]
@[simp] theorem raise_cnt (s : State) (x : FaultInfo) : (s.raise x).cnt = s.cnt := by simp only [State.raise]
@[simp] theorem raise_css (s : State) (x : FaultInfo) : (s.raise x).css = s.css := by simp only [State.raise]
@[simp] theorem raise_spn (s : State) (x : FaultInfo) : (s.raise x).spn = s.spn := by simp only [State.raise]
@[simp] theorem raise_pci (s : State) (x : FaultInfo) : (s.raise x).pci = s.pci := by simp only [State.raise]
@[simp] theorem raise_cmp (s : State) (x : FaultInfo) : (s.raise x).cmp = s.cmp := by simp only [State.raise]
@[simp] theorem raise_cph (s : State) (x : FaultInfo) : (s.raise x).cph = s.cph := by simp only [State.raise]
@[simp] theorem raise_free (s : State) (x : FaultInfo) : (s.raise x).free = s.free := by simp only [State.raise]
@[simp] theorem raise_bus (s : State) (x : FaultInfo) : (s.raise x).bus = s.bus := by simp only [State.raise]
@[simp] theorem raise_dbg (s : State) (x : FaultInfo) : (s.raise x).dbg = s.dbg := by simp only [State.raise]

/-! ### updArch -/

@[simp] theorem updArch_pending (s : State) (n : Tri) (f : Arch → Arch) : (s.updArch n f).pending = s.pending := updLp_pending s n _
@[simp] theorem updArch_mem (s : State) (n : Tri) (f : Arch → Arch) : (s.updArch n f).mem = s.mem := updLp_mem s n _
@[simp] theorem updArch_poison (s : State) (n : Tri) (f : Arch → Arch) : (s.updArch n f).poison = s.poison := updLp_poison s n _
@[simp] theorem updArch_ctl (s : State) (n : Tri) (f : Arch → Arch) : (s.updArch n f).ctl = s.ctl := updLp_ctl s n _
@[simp] theorem updArch_l3 (s : State) (n : Tri) (f : Arch → Arch) : (s.updArch n f).l3 = s.l3 := updLp_l3 s n _
@[simp] theorem updArch_hubPmt (s : State) (n : Tri) (f : Arch → Arch) : (s.updArch n f).hubPmt = s.hubPmt := updLp_hubPmt s n _
@[simp] theorem updArch_part (s : State) (n : Tri) (f : Arch → Arch) : (s.updArch n f).part = s.part := updLp_part s n _
@[simp] theorem updArch_tick (s : State) (n : Tri) (f : Arch → Arch) : (s.updArch n f).tick = s.tick := updLp_tick s n _
@[simp] theorem updArch_save (s : State) (n : Tri) (f : Arch → Arch) : (s.updArch n f).save = s.save := updLp_save s n _
@[simp] theorem updArch_kst (s : State) (n : Tri) (f : Arch → Arch) : (s.updArch n f).kst = s.kst := updLp_kst s n _
@[simp] theorem updArch_fcu (s : State) (n : Tri) (f : Arch → Arch) : (s.updArch n f).fcu = s.fcu := updLp_fcu s n _
@[simp] theorem updArch_pwr (s : State) (n : Tri) (f : Arch → Arch) : (s.updArch n f).pwr = s.pwr := updLp_pwr s n _
@[simp] theorem updArch_therm (s : State) (n : Tri) (f : Arch → Arch) : (s.updArch n f).therm = s.therm := updLp_therm s n _
@[simp] theorem updArch_cnt (s : State) (n : Tri) (f : Arch → Arch) : (s.updArch n f).cnt = s.cnt := updLp_cnt s n _
@[simp] theorem updArch_css (s : State) (n : Tri) (f : Arch → Arch) : (s.updArch n f).css = s.css := updLp_css s n _
@[simp] theorem updArch_spn (s : State) (n : Tri) (f : Arch → Arch) : (s.updArch n f).spn = s.spn := updLp_spn s n _
@[simp] theorem updArch_pci (s : State) (n : Tri) (f : Arch → Arch) : (s.updArch n f).pci = s.pci := updLp_pci s n _
@[simp] theorem updArch_cmp (s : State) (n : Tri) (f : Arch → Arch) : (s.updArch n f).cmp = s.cmp := updLp_cmp s n _
@[simp] theorem updArch_cph (s : State) (n : Tri) (f : Arch → Arch) : (s.updArch n f).cph = s.cph := updLp_cph s n _
@[simp] theorem updArch_raised (s : State) (n : Tri) (f : Arch → Arch) : (s.updArch n f).raised = s.raised := updLp_raised s n _
@[simp] theorem updArch_free (s : State) (n : Tri) (f : Arch → Arch) : (s.updArch n f).free = s.free := updLp_free s n _
@[simp] theorem updArch_bus (s : State) (n : Tri) (f : Arch → Arch) : (s.updArch n f).bus = s.bus := updLp_bus s n _
@[simp] theorem updArch_dbg (s : State) (n : Tri) (f : Arch → Arch) : (s.updArch n f).dbg = s.dbg := updLp_dbg s n _

/-! ### An LP is not touched by a register update -/

@[simp] theorem setReg_lp (s : State) (a : Nat) (v : Word) (n' : Tri) : (s.setReg a v).lp n' = s.lp n' := by simp only [State.lp, State.setReg]
@[simp] theorem setFld_lp (s : State) (a h l v : Nat) (n' : Tri) : (s.setFld a h l v).lp n' = s.lp n' := setReg_lp s a _ n'
@[simp] theorem addSat_lp (s : State) (a h l k : Nat) (n' : Tri) : (s.addSat a h l k).lp n' = s.lp n' := setFld_lp s a h l _ n'
@[simp] theorem setMode_lp (s : State) (n : Tri) (k : Nat) (n' : Tri) : (s.setMode n k).lp n' = s.lp n' := setFld_lp s _ 39 36 k n'
@[simp] theorem post_lp (s : State) (n : Tri) (v : Nat) (n' : Tri) : (s.post n v).lp n' = s.lp n' := setFld_lp s _ _ _ 1 n'
@[simp] theorem unpend_lp (s : State) (n : Tri) (v : Nat) (n' : Tri) : (s.unpend n v).lp n' = s.lp n' := setFld_lp s _ _ _ 0 n'
@[simp] theorem count_lp (s : State) (u w k : Nat) (n' : Tri) : (s.count u w k).lp n' = s.lp n' := by simp only [State.lp, State.count]
@[simp] theorem raise_lp (s : State) (x : FaultInfo) (n' : Tri) : (s.raise x).lp n' = s.lp n' := by simp only [State.lp, State.raise]

/-! ### A register is not touched by the others -/

@[simp] theorem updLp_reg (s : State) (n : Tri) (f : Lp → Lp) (a' : Nat) : (s.updLp n f).reg a' = s.reg a' := by simp only [State.reg, State.updLp]
@[simp] theorem updLp_fld (s : State) (n : Tri) (f : Lp → Lp) (a' h' l' : Nat) : (s.updLp n f).fld a' h' l' = s.fld a' h' l' := by simp only [State.fld, State.reg, State.updLp]
@[simp] theorem updLp_flag (s : State) (n : Tri) (f : Lp → Lp) (a' i' : Nat) : (s.updLp n f).flag a' i' = s.flag a' i' := by simp only [State.flag, State.reg, State.updLp]
@[simp] theorem count_reg (s : State) (u w k : Nat) (a' : Nat) : (s.count u w k).reg a' = s.reg a' := by simp only [State.reg, State.count]
@[simp] theorem count_fld (s : State) (u w k : Nat) (a' h' l' : Nat) : (s.count u w k).fld a' h' l' = s.fld a' h' l' := by simp only [State.fld, State.reg, State.count]
@[simp] theorem count_flag (s : State) (u w k : Nat) (a' i' : Nat) : (s.count u w k).flag a' i' = s.flag a' i' := by simp only [State.flag, State.reg, State.count]
@[simp] theorem raise_reg (s : State) (x : FaultInfo) (a' : Nat) : (s.raise x).reg a' = s.reg a' := by simp only [State.reg, State.raise]
@[simp] theorem raise_fld (s : State) (x : FaultInfo) (a' h' l' : Nat) : (s.raise x).fld a' h' l' = s.fld a' h' l' := by simp only [State.fld, State.reg, State.raise]
@[simp] theorem raise_flag (s : State) (x : FaultInfo) (a' i' : Nat) : (s.raise x).flag a' i' = s.flag a' i' := by simp only [State.flag, State.reg, State.raise]
@[simp] theorem updArch_reg (s : State) (n : Tri) (f : Arch → Arch) (a' : Nat) : (s.updArch n f).reg a' = s.reg a' := updLp_reg s n _ a'
@[simp] theorem updArch_fld (s : State) (n : Tri) (f : Arch → Arch) (a' h' l' : Nat) : (s.updArch n f).fld a' h' l' = s.fld a' h' l' := updLp_fld s n _ a' h' l'
@[simp] theorem updArch_flag (s : State) (n : Tri) (f : Arch → Arch) (a' i' : Nat) : (s.updArch n f).flag a' i' = s.flag a' i' := updLp_flag s n _ a' i'

/-! ### Control registers -/

@[simp] theorem setReg_reg_same (s : State) (a : Nat) (v : Word) : (s.setReg a v).reg a = v := smGet_smSet_same ctlReset s.ctl a v

theorem setReg_reg_other (s : State) {a b : Nat} (h : b ≠ a) (v : Word) : (s.setReg a v).reg b = s.reg b :=
  smGet_smSet_other ctlReset s.ctl h v

@[simp] theorem setFld_reg_same (s : State) (a h l v : Nat) : (s.setFld a h l v).reg a = putBits (s.reg a) h l v :=
  setReg_reg_same s a _

theorem setFld_reg_other (s : State) {a b : Nat} (hb : b ≠ a) (h l v : Nat) : (s.setFld a h l v).reg b = s.reg b :=
  setReg_reg_other s hb _

/-- A bit of a word with a field replaced. -/
theorem testBit_putBits (w : Word) {h l : Nat} (hl : l ≤ h) (hh : h < 64) (v i : Nat) :
    (putBits w h l v).toNat.testBit i = if l ≤ i ∧ i ≤ h then v.testBit (i - l) else (w.toNat.testBit i) := by
  have hw : ∀ j, 64 ≤ j → w.toNat.testBit j = false := fun j hj =>
    Nat.testBit_lt_two_pow (Nat.lt_of_lt_of_le w.isLt (Nat.pow_le_pow_right (by decide) hj))
  have hm : (2 ^ 64 - 1 - ((2 ^ (h + 1 - l) - 1) <<< l)).testBit i = (decide (i < 64) && !(decide (l ≤ i) && decide (i ≤ h))) := by
    have hle : (2 ^ (h + 1 - l) - 1) <<< l < 2 ^ 64 := by
      rw [Nat.shiftLeft_eq]
      have h1 : 2 ^ (h + 1 - l) - 1 < 2 ^ (h + 1 - l) := Nat.sub_lt (Nat.two_pow_pos _) Nat.one_pos
      have h2 : 2 ^ (h + 1 - l) * 2 ^ l = 2 ^ (h + 1) := by rw [← Nat.pow_add]; congr 1; omega
      have h3 : 2 ^ (h + 1) ≤ 2 ^ 64 := Nat.pow_le_pow_right (by decide) (by omega)
      calc (2 ^ (h + 1 - l) - 1) * 2 ^ l < 2 ^ (h + 1 - l) * 2 ^ l := Nat.mul_lt_mul_of_pos_right h1 (Nat.two_pow_pos _)
        _ ≤ 2 ^ 64 := by omega
    have : 2 ^ 64 - 1 - (2 ^ (h + 1 - l) - 1) <<< l = 2 ^ 64 - ((2 ^ (h + 1 - l) - 1) <<< l + 1) := by omega
    rw [this, Nat.testBit_two_pow_sub_succ hle, Nat.testBit_shiftLeft, Nat.testBit_two_pow_sub_one]
    congr 2
    by_cases hi : l ≤ i
    · simp only [hi, decide_true, Bool.true_and]; congr 1; simp only [eq_iff_iff]; omega
    · simp [hi]
  simp only [putBits, BitVec.toNat_ofNat, Nat.testBit_mod_two_pow, Nat.testBit_or, Nat.testBit_and, hm, Nat.testBit_shiftLeft]
  by_cases hi : i < 64
  · by_cases h1 : l ≤ i
    · by_cases h2 : i ≤ h
      · have : i - l < h + 1 - l := by omega
        simp [hi, h1, h2, this]
      · have : ¬ i - l < h + 1 - l := by omega
        simp [hi, h1, h2, this]
    · simp [hi, h1]
  · have h2 : ¬ i ≤ h := by omega
    simp [hi, h2, hw i (by omega)]

/-- A field read after it was written. -/
theorem bits_putBits_same (w : Word) {h l : Nat} (hl : l ≤ h) (hh : h < 64) (v : Nat) : bits (putBits w h l v) h l = v % 2 ^ (h + 1 - l) := by
  apply Nat.eq_of_testBit_eq
  intro i
  simp only [bits, Nat.testBit_mod_two_pow, Nat.testBit_shiftRight, testBit_putBits w hl hh]
  by_cases hi : i < h + 1 - l
  · have : l ≤ l + i ∧ l + i ≤ h := by omega
    simp [hi, this]
  · simp [hi]

/-- A field apart from the one written reads as before. -/
theorem bits_putBits_other (w : Word) {h l h' l' : Nat} (hl : l ≤ h) (hh : h < 64) (ha : h' < l ∨ h < l') (v : Nat) :
    bits (putBits w h l v) h' l' = bits w h' l' := by
  apply Nat.eq_of_testBit_eq
  intro i
  simp only [bits, Nat.testBit_mod_two_pow, Nat.testBit_shiftRight, testBit_putBits w hl hh]
  by_cases hi : i < h' + 1 - l'
  · have : ¬ (l ≤ l' + i ∧ l' + i ≤ h) := by omega
    simp [hi, this]
  · simp [hi]

/-- A bit read after its field was written. -/
theorem bit_putBits (w : Word) {h l : Nat} (hl : l ≤ h) (hh : h < 64) (v i : Nat) :
    bit (putBits w h l v) i = if l ≤ i ∧ i ≤ h then v.testBit (i - l) else bit w i := testBit_putBits w hl hh v i

/-- A field written is the field read. -/
theorem setFld_fld_same (s : State) (a : Nat) {h l : Nat} (hl : l ≤ h) (hh : h < 64) (v : Nat) :
    (s.setFld a h l v).fld a h l = v % 2 ^ (h + 1 - l) := by
  simp [State.fld, bits_putBits_same _ hl hh]

/-- Another register's field reads as before. -/
theorem setFld_fld_reg (s : State) {a b : Nat} (hb : b ≠ a) (h l v h' l' : Nat) : (s.setFld a h l v).fld b h' l' = s.fld b h' l' := by
  simp [State.fld, setFld_reg_other s hb]

/-- Another field of the register reads as before. -/
theorem setFld_fld_other (s : State) (a : Nat) {h l h' l' : Nat} (hl : l ≤ h) (hh : h < 64) (ha : h' < l ∨ h < l') (v : Nat) :
    (s.setFld a h l v).fld a h' l' = s.fld a h' l' := by
  simp [State.fld, bits_putBits_other _ hl hh ha]

/-- Another register's bit reads as before. -/
theorem setFld_flag_reg (s : State) {a b : Nat} (hb : b ≠ a) (h l v i : Nat) : (s.setFld a h l v).flag b i = s.flag b i := by
  simp [State.flag, setFld_reg_other s hb]

end Sys2Proof.Machine
end

