-- ==== Sys2Proof/Laws/Settle.lean ====
section
/-! SUPPORT. What the end of a command does: nothing in a calm state; and in every state it leaves no raised event. -/

namespace Sys2Proof.Machine
open Sys2Proof

/-- A calm state is left as it is. -/
theorem settle_calm {s : State} (h : s.calm = true) : s.settle = s := by
  simp only [State.calm, State.clocked, Bool.and_eq_true, decide_eq_true_eq, List.isEmpty_iff, Bool.not_eq_true', ne_eq,
    decide_not, decide_eq_false_iff_not, List.all_cons, List.all_nil, Bool.and_true, Bool.or_eq_true] at h
  obtain ⟨⟨⟨⟨⟨⟨⟨⟨hr, ht⟩, hra⟩, hre⟩, hf⟩, hp⟩, hs⟩, hd⟩, h62⟩ := h
  obtain ⟨h44, h45, h46, h47⟩ := hd
  have e1 : s.freqSettle = s := by simp [State.freqSettle, hf]
  have skip : ∀ l : List Nat, (∀ d ∈ l, s.flag (aPwrDom d) 63 = false ∨ s.domState d = 3) →
      l.foldl (fun s d => if s.flag (aPwrDom d) 63 && s.domState d ≠ 3 && s.groupIdle d then s.setDom d 3 else s) s = s := by
    intro l
    induction l with
    | nil => intro _; rfl
    | cons d l ih =>
      intro hl
      have hd : (s.flag (aPwrDom d) 63 && decide (s.domState d ≠ 3) && s.groupIdle d) = false := by
        rcases hl d (by simp) with h | h <;> simp [h]
      rw [List.foldl_cons]
      simp only [hd, Bool.false_eq_true, if_false]
      exact ih fun d hd => hl d (by simp [hd])
  have e2 : s.domSettle = s := by
    simp only [State.domSettle]
    rw [skip _ (by intro d hd; simp only [List.mem_cons, List.not_mem_nil, or_false] at hd; rcases hd with rfl | rfl | rfl | rfl <;> assumption)]
    simp [h62]
  have e3 : s.saveSettle = s := by simp [State.saveSettle, hs]
  have e4 : s.holdOver = s := by simp [State.holdOver, hp]
  have e5 : ∀ k l, State.collect k l s = s := by intro k l; cases k <;> simp [State.collect, hra]
  have e6 : ({ s.fcu with resetting := s.fcu.resetting.filter s.portResetting, late := s.fcu.late ++ s.raised } : Fcu) = s.fcu := by
    rw [hra, hre, List.filter_nil, List.append_nil, ← hre]
  have e7 : ({ s with raised := [], fcu := s.fcu } : State) = s := by rw [← hra]
  simp only [State.settle, hr, ht, e1, e2, e3, e4, e5, e6, e7]
  simp [State.saveOver, hs]

/-- The end of a command leaves no raised event (17 R441). -/
theorem settle_raised (s : State) : s.settle.raised = [] := by
  unfold State.settle
  split
  · rfl
  · unfold State.saveOver
    dsimp only
    split
    · rfl
    · rfl

/-! ### Updates that keep a state calm -/

theorem calm_updLp {s : State} (h : s.calm = true) (n : Tri) (f : Lp → Lp) : (s.updLp n f).calm = true := h
theorem calm_count {s : State} (h : s.calm = true) (u w k : Nat) : (s.count u w k).calm = true := h

/-- What calm says, field by field. -/
theorem calm_running {s : State} (h : s.calm = true) (hk : s.kst.phase = .released) : s.running = true := by
  simp only [State.calm, State.clocked, Bool.and_eq_true, decide_eq_true_eq, State.refState, Bool.not_eq_true'] at h
  obtain ⟨⟨⟨⟨⟨⟨⟨⟨hr, ht⟩, -⟩, -⟩, -⟩, -⟩, hs⟩, -⟩, -⟩ := h
  simp only [State.running, hk, hs, ht]
  have hr : ¬s.fld aClkStatus 2 0 = 4 := by intro h4; simp [h4] at hr
  simp [hr]

end Sys2Proof.Machine
end

