-- ==== Sys2Proof/Laws/Cache.lean ====
section
/-! SUPPORT. What the cache work of a read can do: it changes LP n's caches, the L3s, memory behind them and TRD_L2_STATUS_n, and
nothing else. -/

namespace Sys2Proof.Machine
open Sys2Proof

/-- An LP without its caches and its cycle counter. -/
def Lp.sansCache (l : Lp) : Lp :=
  { l.cores (fun c => { CoreArr.reset with pred := c.pred }) with
    tlb2 := [], walk := [], l2 := Cache.reset, miss := [], missWait := [], vbuf := [], cycles := 0 }

/-- t is s after cache work of LP n. -/
structure CacheWork (n : Tri) (s t : State) : Prop where
  own : (t.lp n).sansCache = (s.lp n).sansCache
  others : ∀ m, m ≠ n → t.lp m = s.lp m
  reg : ∀ a, a ≠ aTrdL2Status n → t.reg a = s.reg a
  pending : t.pending = s.pending
  hubPmt : t.hubPmt = s.hubPmt
  part : t.part = s.part
  tick : t.tick = s.tick
  save : t.save = s.save
  kst : t.kst = s.kst
  fcu : t.fcu = s.fcu
  pwr : t.pwr = s.pwr
  therm : t.therm = s.therm
  css : t.css = s.css
  spn : t.spn = s.spn
  pci : t.pci = s.pci
  cmp : t.cmp = s.cmp
  cph : t.cph = s.cph
  raised : t.raised = s.raised
  bus : t.bus = s.bus
  dbg : t.dbg = s.dbg

namespace CacheWork

theorem refl (n : Tri) (s : State) : CacheWork n s s := by constructor <;> intros <;> rfl

theorem trans {n : Tri} {s t u : State} (h : CacheWork n s t) (k : CacheWork n t u) : CacheWork n s u := by
  constructor
  · rw [k.own, h.own]
  · intro m hm; rw [k.others m hm, h.others m hm]
  · intro a ha; rw [k.reg a ha, h.reg a ha]
  all_goals first
    | rw [k.pending, h.pending] | rw [k.hubPmt, h.hubPmt] | rw [k.part, h.part] | rw [k.tick, h.tick] | rw [k.save, h.save]
    | rw [k.kst, h.kst] | rw [k.fcu, h.fcu] | rw [k.pwr, h.pwr] | rw [k.therm, h.therm] | rw [k.css, h.css]
    | rw [k.spn, h.spn] | rw [k.pci, h.pci] | rw [k.cmp, h.cmp] | rw [k.cph, h.cph] | rw [k.raised, h.raised] | rw [k.bus, h.bus]
    | rw [k.dbg, h.dbg]

/-- A change of LP n's caches alone. -/
theorem updLp {n : Tri} {s : State} {f : Lp → Lp} (h : (f (s.lp n)).sansCache = (s.lp n).sansCache) : CacheWork n s (s.updLp n f) := by
  constructor
  · simpa using h
  · intro m hm; exact lp_updLp_other s hm f
  all_goals intros; simp

/-- A change of TRD_L2_STATUS_n. -/
theorem setFld (n : Tri) (s : State) (h l v : Nat) : CacheWork n s (s.setFld (aTrdL2Status n) h l v) := by
  constructor
  · simp
  · intro m _; simp
  · intro a ha; exact setFld_reg_other s ha h l v
  all_goals simp

theorem draw (n : Tri) (s : State) : CacheWork n s s.draw.2 := by constructor <;> intros <;> rfl

theorem updL3 (n : Tri) (s : State) (d : Fin 4) (f : Cache → Cache) : CacheWork n s (s.updL3 d f) := by
  constructor <;> intros <;> rfl

theorem setPoison (n : Tri) (s : State) (g : Nat) (b : Bool) : CacheWork n s (s.setPoison g b) := by
  constructor <;> intros <;> rfl

theorem foldl {α : Type} {n : Tri} {f : State → α → State} (h : ∀ s x, CacheWork n s (f s x)) (l : List α) (s : State) :
    CacheWork n s (l.foldl f s) := by
  induction l generalizing s with
  | nil => exact refl n s
  | cons x l ih => exact (h s x).trans (ih _)

theorem memPutLine (n : Tri) (s : State) (line : Nat) (d : Line) (p : Nat) : CacheWork n s (s.memPutLine line d p) := by
  unfold State.memPutLine
  split
  · exact refl n s
  · refine trans (t := { s with mem := memPuts s.mem (linePairs line d) }) (by constructor <;> intros <;> rfl) ?_
    exact foldl (fun s i => setPoison n s _ _) _ _

theorem count (n : Tri) (s : State) (u w k : Nat) : CacheWork n s (s.count u w k) := by constructor <;> intros <;> rfl

theorem l2Count (n : Tri) (s : State) (w k : Nat) : CacheWork n s (s.l2Count n w k) := count ..

theorem ite {n : Tri} {s : State} {c : Prop} [Decidable c] {t u : State} (h : CacheWork n s t) (k : CacheWork n s u) :
    CacheWork n s (if c then t else u) := by
  split
  · exact h
  · exact k

theorem l1Count (n : Tri) (s : State) (line : Nat) (instr : Bool) : CacheWork n s (s.l1Count n line instr) := by
  unfold State.l1Count
  exact foldl (fun s c => ite (refl n s) (count ..)) _ _

theorem l3Modify (n : Tri) (s : State) (d : Fin 4) (line : Nat) (x : Line) (p : Nat) (q : Bool) : CacheWork n s (s.l3Modify d line x p q) := by
  unfold State.l3Modify
  split
  · exact updL3 ..
  · exact memPutLine ..

theorem l3Clean (n : Tri) (s : State) (d : Fin 4) (line : Nat) : CacheWork n s (s.l3Clean d line) := by
  unfold State.l3Clean
  split
  · exact updL3 ..
  · exact refl n s

theorem vbLand (n : Tri) (s : State) (v : VbEnt) : CacheWork n s (s.vbLand n v) := by
  unfold State.vbLand
  exact ite ((memPutLine ..).trans (l3Clean ..)) (l3Modify ..)

theorem vbIssue (n : Tri) (s : State) (i : Nat) : CacheWork n s (s.vbIssue n i) := by
  unfold State.vbIssue
  split
  · exact refl n s
  · exact ite (refl n s) ((updLp rfl).trans (vbLand ..))

theorem clearPend (l : Lp) (line : Nat) : (l.clearPend line).sansCache = l.sansCache := by
  unfold Lp.clearPend
  split
  · dsimp only
    split
    · split <;> rfl
    · rfl
  · rfl

theorem vbAck (n : Tri) (s : State) (i : Nat) : CacheWork n s (s.vbAck n i) := by
  unfold State.vbAck
  split
  · exact refl n s
  · exact (vbIssue ..).trans (updLp (clearPend _ _))

theorem vbRoom (n : Tri) (s : State) : CacheWork n s (s.vbRoom n) := by
  unfold State.vbRoom
  exact ite (vbAck ..) (refl n s)

theorem vbGuess (n : Tri) (s : State) (line : Nat) : CacheWork n s (s.vbGuess n line) := by
  unfold State.vbGuess
  split
  · exact refl n s
  · exact (draw n s).trans (ite (vbIssue ..) (refl ..))

theorem vbPush (n : Tri) (s : State) (v : VbEnt) (fill : Bool) : CacheWork n s (s.vbPush n v fill) := by
  unfold State.vbPush
  exact (((ite (setFld ..) (refl n s)).trans (vbRoom ..)).trans (updLp rfl)).trans (l2Count ..)

theorem l2Evict (n : Tri) (s : State) (k : Nat) (m fill : Bool) : CacheWork n s (s.l2Evict n k m fill) := by
  unfold State.l2Evict
  exact ite (refl n s) (ite ((updLp rfl).trans (vbPush ..)) (updLp rfl))

theorem l2Install (n : Tri) (s : State) (e : CLine) (lock touch : Bool) : CacheWork n s (s.l2Install n e lock touch) := by
  unfold State.l2Install
  exact (l2Evict ..).trans (updLp rfl)

theorem fillL1 (n : Tri) (s : State) (line : Nat) (instr : Bool) : CacheWork n s (s.fillL1 n line instr) := by
  unfold State.fillL1
  refine (draw n s).trans (updLp ?_)
  cases instr <;> rfl

theorem vbRecall (n : Tri) (s : State) (line : Nat) (lock : Bool) : CacheWork n s (s.vbRecall n line lock) := by
  unfold State.vbRecall
  refine ite (refl n s) ((vbGuess n s line).trans ?_)
  dsimp only
  split
  · exact refl ..
  · exact ((l2Count ..).trans (ite (refl ..) (updLp rfl))).trans (l2Install ..)

theorem missTake (n : Tri) (s : State) (r : MissReg) : CacheWork n s (s.missTake n r) := by
  unfold State.missTake
  exact (((l2Count ..).trans (l2Count ..)).trans (l2Count ..)).trans (updLp rfl)

theorem missAsk (n : Tri) (s : State) (r : MissReg) : CacheWork n s (s.missAsk n r) := by
  unfold State.missAsk
  split
  · exact ite ((l2Count ..).trans (updLp rfl)) (updLp rfl)
  · exact ite ((setFld ..).trans (updLp rfl)) (missTake ..)

theorem prefetch (n : Tri) (s : State) (p line : Nat) : CacheWork n s (s.prefetch n p line) := by
  unfold State.prefetch
  exact ite (missTake ..) (refl n s)

theorem demand (n : Tri) (s : State) (p : Nat) (r : MissReg) (tr : Bool) : CacheWork n s (s.demand n p r tr) := by
  unfold State.demand
  exact ite ((missAsk ..).trans (prefetch ..)) (missAsk ..)

theorem l1iNext (n : Tri) (s : State) (p line : Nat) : CacheWork n s (s.l1iNext n p line) := by
  unfold State.l1iNext
  exact ite ((draw n s).trans (ite (ite (fillL1 ..) (ite (refl ..) (missAsk ..))) (refl ..))) (refl n s)

theorem touchRead (n : Tri) (s : State) (p line : Nat) (instr nt table : Bool) : CacheWork n s (s.touchRead n p line instr nt table) := by
  have hit : ∀ (t : State), CacheWork n t (match (t.lp n).l2Find line with
      | some k =>
        let u := (t.l2Count n 1 1).updLp n fun l => { l with l2 := l.l2.touch k }
        if nt || table then u else u.fillL1 n line instr
      | none => t.demand n p { MissReg.of line with nt := nt, l1i := instr && !table, l1d := !instr && !nt && !table } (!nt && !table)) := by
    intro t
    split
    · exact ((l2Count ..).trans (updLp rfl)).trans (ite (refl ..) (fillL1 ..))
    · exact demand ..
  unfold State.touchRead
  refine (ite (refl n s) (l1Count n s line instr)).trans (ite (refl ..) (ite (ite (refl ..) (fillL1 ..)) ?_))
  exact (vbRecall ..).trans ((hit _).trans (ite (l1iNext ..) (refl ..)))

theorem walkLines (n : Tri) (s : State) (ls : List Nat) : CacheWork n s (s.walkLines n ls) := by
  unfold State.walkLines
  exact foldl (fun s l => touchRead ..) _ _

theorem xfill (n : Tri) (s : State) (instr : Bool) (f : XFill) : CacheWork n s (s.xfill n instr f) := by
  obtain ⟨tlb, walk, tabs, cyc⟩ := f
  unfold State.xfill
  refine ((count n s n.val 7 (b2n (tlb.isSome || !tabs.isEmpty))).trans (count n _ n.val 8 (b2n !tabs.isEmpty))).trans ?_
  cases tlb with
  | none => exact (updLp rfl).trans (walkLines ..)
  | some e =>
    refine (draw ..).trans ((updLp ?_).trans (walkLines ..))
    cases instr <;> rfl

theorem applyFills (n : Tri) (s : State) (a : Access) (instr : Bool) : CacheWork n s (s.applyFills n a instr) := by
  unfold State.applyFills
  exact foldl (fun s f => xfill ..) _ _

end CacheWork

end Sys2Proof.Machine
end

