-- ==== Sys2Proof/Laws/View.lean ====
section
/-! SUPPORT. What fetches, accesses and events depend on: two states that agree on it treat LP n alike. -/

namespace Sys2Proof.Machine
open Sys2Proof

/-- What a translated access of LP n reads of the state: memory with its caches, registers, and the LP's own registers and translation
caches. -/
structure SameView (n : Tri) (s t : State) : Prop where
  mem : t.mem = s.mem
  poison : t.poison = s.poison
  ctl : t.ctl = s.ctl
  l3 : t.l3 = s.l3
  pci : t.pci = s.pci
  l2 : ∀ m, (t.lp m).l2 = (s.lp m).l2
  vbuf : ∀ m, (t.lp m).vbuf = (s.lp m).vbuf
  psw : (t.lp n).arch.psw = (s.lp n).arch.psw
  s1cfg : (t.lp n).arch.s1cfg = (s.lp n).arch.s1cfg
  s1root : (t.lp n).arch.s1root = (s.lp n).arch.s1root
  partId : (t.lp n).arch.part = (s.lp n).arch.part
  tlbI : (t.lp n).lead.tlbI = (s.lp n).lead.tlbI
  tlbD : (t.lp n).lead.tlbD = (s.lp n).lead.tlbD
  tlb2 : (t.lp n).tlb2 = (s.lp n).tlb2
  walk : (t.lp n).walk = (s.lp n).walk

namespace SameView

variable {n : Tri} {s t : State}

/-- An update of LP n that leaves these parts alone. -/
theorem updLp (s : State) (n : Tri) {f : Lp → Lp} (h2 : (f (s.lp n)).l2 = (s.lp n).l2) (hv : (f (s.lp n)).vbuf = (s.lp n).vbuf)
    (ha : (f (s.lp n)).arch = (s.lp n).arch) (hi : (f (s.lp n)).lead.tlbI = (s.lp n).lead.tlbI)
    (hd : (f (s.lp n)).lead.tlbD = (s.lp n).lead.tlbD)
    (ht : (f (s.lp n)).tlb2 = (s.lp n).tlb2) (hw : (f (s.lp n)).walk = (s.lp n).walk) : SameView n s (s.updLp n f) := by
  refine ⟨by simp, by simp, by simp, by simp, by simp, fun m => ?_, fun m => ?_, by simp [ha], by simp [ha], by simp [ha], by simp [ha],
    by simpa, by simpa, by simpa, by simpa⟩
  · by_cases hm : m = n
    · subst hm; simpa
    · rw [lp_updLp_other s hm]
  · by_cases hm : m = n
    · subst hm; simpa
    · rw [lp_updLp_other s hm]

theorem reg (h : SameView n s t) (a : Nat) : t.reg a = s.reg a := by simp only [State.reg, h.ctl]
theorem fld (h : SameView n s t) (a x l : Nat) : t.fld a x l = s.fld a x l := by simp only [State.fld, h.reg]
theorem flag (h : SameView n s t) (a i : Nat) : t.flag a i = s.flag a i := by simp only [State.flag, h.reg]
theorem l3Of (h : SameView n s t) (d : Fin 4) : t.l3Of d = s.l3Of d := by simp only [State.l3Of, h.l3]

theorem l2Mod (h : SameView n s t) (m : Tri) (line : Nat) : (t.lp m).l2Mod line = (s.lp m).l2Mod line := by
  simp only [Lp.l2Mod, Lp.l2Find, h.l2]

theorem vbMod (h : SameView n s t) (m : Tri) (line : Nat) : (t.lp m).vbMod line = (s.lp m).vbMod line := by simp only [Lp.vbMod, h.vbuf]

theorem modLine (h : SameView n s t) (line : Nat) : t.modLine line = s.modLine line := by
  simp only [State.modLine, h.l2Mod, h.vbMod, h.l3Of]

theorem byte (h : SameView n s t) (a : Nat) : t.byte a = s.byte a := by simp only [State.byte, h.modLine, h.mem]
theorem bytes (h : SameView n s t) (a k : Nat) : t.bytes a k = s.bytes a k := by simp only [State.bytes, h.byte]
theorem num (h : SameView n s t) (a k : Nat) : t.num a k = s.num a k := by simp only [State.num, h.bytes]

theorem badByte (h : SameView n s t) (a : Nat) : t.badByte a = s.badByte a := by
  simp only [State.badByte, h.modLine, State.poisoned, h.poison]

theorem mapLinks (h : SameView n s t) : t.mapLinks = s.mapLinks := by simp only [State.mapLinks, h.flag]
theorem memSize (h : SameView n s t) : t.memSize = s.memSize := by
  simp only [State.memSize, h.mapLinks, State.linkCap, h.fld, h.flag]
theorem isMain (h : SameView n s t) (a : Nat) : t.isMain a = s.isMain a := by simp only [State.isMain, h.memSize]
theorem memOk (h : SameView n s t) (a : Nat) : t.memOk a = s.memOk a := by
  have e : t.memOk a = ({ s with ctl := t.ctl } : State).memOk a := rfl
  rw [e, h.ctl]

theorem devClaimed (h : SameView n s t) (a : Nat) : t.devClaimed a = s.devClaimed a := by
  have e : t.devClaimed a = ({ s with pci := t.pci } : State).devClaimed a := rfl
  rw [e, h.pci]

theorem pmtIn (h : SameView n s t) (p i : Nat) : t.pmtIn p i = s.pmtIn p i := by
  have e : t.pmtIn p i = ({ s with ctl := t.ctl } : State).pmtIn p i := rfl
  rw [e, h.ctl]

theorem pmtAddr (h : SameView n s t) (p i : Nat) : t.pmtAddr p i = s.pmtAddr p i := by
  have e : t.pmtAddr p i = ({ s with ctl := t.ctl } : State).pmtAddr p i := rfl
  rw [e, h.ctl]

theorem memAll (h : SameView n s t) (a k : Nat) : t.memAll a k = s.memAll a k := by simp only [State.memAll, h.memOk]

theorem checkRegion (h : SameView n s t) (r : AccReq) (x : Xl) (len : Nat) : t.checkRegion r x len = s.checkRegion r x len := by
  simp only [State.checkRegion, h.memAll, h.devClaimed]

theorem pmtGet (h : SameView n s t) (c : Option Word) (p i : Nat) : t.pmtGet c p i = s.pmtGet c p i := by
  simp only [State.pmtGet, h.pmtIn, h.pmtAddr, h.memOk, h.badByte, h.num]

theorem pmtLine (h : SameView n s t) (c : Option Word) (p i : Nat) : t.pmtLine c p i = s.pmtLine c p i := by
  simp only [State.pmtLine, h.pmtIn, h.pmtAddr, h.memOk]

theorem s1Read (h : SameView n s t) (c : WalkCtx) (l b : Nat) (f : XFill) : t.s1Read c l b f = s.s1Read c l b f := by
  simp only [State.s1Read, h.pmtGet, h.pmtLine, h.memOk, h.badByte, h.num]

theorem s1Walk (h : SameView n s t) (c : WalkCtx) (k l b : Nat) (f : XFill) : t.s1Walk c k l b f = s.s1Walk c k l b f := by
  induction k generalizing l b f with
  | zero => rfl
  | succ k ih => simp only [State.s1Walk, h.s1Read, ih]

theorem hits (h : SameView n s t) (e : TlbEnt) (pl p : Nat) (va : Word) : e.hits (t.lp n).arch pl p va = e.hits (s.lp n).arch pl p va := by
  simp only [TlbEnt.hits, h.s1cfg, h.psw]

theorem tlbFind (h : SameView n s t) (pl p : Nat) (k : AccKind) (va : Word) : (t.lp n).tlbFind pl p k va = (s.lp n).tlbFind pl p k va := by
  simp only [Lp.tlbFind, h.hits, h.tlbI, h.tlbD, h.tlb2]

theorem mFill (h : SameView n s t) (k : AccKind) (va : Word) : (t.lp n).mFill k va = (s.lp n).mFill k va := by
  simp only [Lp.mFill, h.tlbFind]

theorem s1Check (h : SameView n s t) (pl : Nat) (k : AccKind) (leaf : Word) :
    Machine.s1Check (t.lp n).arch pl k leaf = Machine.s1Check (s.lp n).arch pl k leaf := by
  unfold Machine.s1Check
  rw [h.s1cfg, h.psw]

theorem finishXlat (h : SameView n s t) (pl : Nat) (k : AccKind) (va : Word) (en : Bool) (leaf : Word) (pra : Nat) (pe : Word) (f : XFill) :
    Machine.finishXlat (t.lp n).arch pl k va en leaf pra pe f = Machine.finishXlat (s.lp n).arch pl k va en leaf pra pe f := by
  simp only [Machine.finishXlat, h.s1Check]

theorem xlat (h : SameView n s t) (pl : Nat) (k : AccKind) (va : Word) : t.xlat n pl k va = s.xlat n pl k va := by
  simp only [State.xlat, h.s1cfg, h.s1root, h.psw, h.partId, h.isMain, h.tlbFind, h.mFill, h.walk, h.s1Walk, h.pmtGet, h.pmtLine, h.s1Check,
    h.finishXlat]

theorem pageCheck (h : SameView n s t) (pl : Nat) (r : AccReq) (len : Nat) : t.pageCheck n pl r len = s.pageCheck n pl r len := by
  simp only [State.pageCheck, h.xlat, h.checkRegion]

theorem access (h : SameView n s t) (pl : Nat) (r : AccReq) : t.access n pl r = s.access n pl r := by
  simp only [State.access, h.pageCheck]

theorem fetchFault (h : SameView n s t) (ha : (t.lp n).arch = (s.lp n).arch) : t.fetchFault n = s.fetchFault n := by
  have hb : t.badByte = s.badByte := funext h.badByte
  simp only [State.fetchFault, ha, h.access, hb]

theorem nextEvent (h : SameView n s t) (ha : (t.lp n).arch = (s.lp n).arch) : t.nextEvent n = s.nextEvent n := by
  unfold State.nextEvent State.pend State.flag State.reg
  rw [ha, h.ctl]

end SameView

end Sys2Proof.Machine
end

