-- ==== Sys2Proof/Laws/Bundle.lean ====
section
/-! SUPPORT. A bundle of one slot: from the command that stages it, through the checks, to its commit. -/

namespace Sys2Proof.Machine
open Sys2Proof

/-- A slot effect that touches registers alone, or ends in a trap or in waiting, and that no check stops. -/
structure PlainSlot (a : Arch) (e : SlotEff) : Prop where
  valid : e.reserved = false
  noFault : e.fault = none
  accepted : slotAccepts e.slot e.group = true
  short : e.group ≠ .long
  noMem : e.mem = none
  noLong : e.long = none
  sys : e.sys = .none ∨ e.sys = .call ∨ e.sys = .brk ∨ e.sys = .wait
  mode : e.modeChg = true → e.slot = 0
  branch : e.branch.isSome = true → a.delay = false ∧ isLoopEnd a = false

/-- Such a slot breaks no placement rule (02 R49). -/
theorem illegal_plain {a : Arch} {e : SlotEff} (h : PlainSlot a e) (hl : (a.delay && isLoopEnd a) = false) : illegal a [e] = none := by
  have h1 : aloneBad 0 (·.modeChg) [e] = none := by
    unfold aloneBad
    cases hm : e.modeChg
    · simp [hm]
    · simp [hm, h.mode hm]
  have h2 : aloneBad 1 (fun e => decide (e.group = .long)) [e] = none := by simp [aloneBad, h.short]
  have h3 : [e].find? (fun e => !slotAccepts e.slot e.group) = none := by simp [h.accepted]
  have h4 : dupSlot [e] = none := by simp [dupSlot]
  unfold illegal
  simp only [h3, h4, h1, h2]
  cases hb : e.branch.isSome
  · cases hd : a.delay
    · simp [hb]
    · have : isLoopEnd a = false := by simpa [hd] using hl
      simp [hb, this]
  · obtain ⟨hd, he⟩ := h.branch hb
    simp [hd, he]

theorem sysFault_plain {s : State} {n : Tri} {op : SysOp} (h : op = .none ∨ op = .call ∨ op = .brk ∨ op = .wait) : s.sysFault n op = none := by
  rcases h with rfl | rfl | rfl | rfl <;> rfl

theorem slotFault_plain {s : State} {n : Tri} {a : Arch} {e : SlotEff} (h : PlainSlot a e) : s.slotFault n e = none := by
  simp [State.slotFault, h.noFault, sysFault_plain h.sys, State.memAcc, h.noMem]

theorem sysReq_plain {a : Arch} {e : SlotEff} (h : PlainSlot a e) : sysReq [e] = none := by
  unfold sysReq
  rcases h.sys with hs | hs | hs | hs <;> simp [hs, SysOp.isReq]

/-! ### What a bundle leaves alone -/

/-- t is s after work of LP n: every other LP, every register of the control space but TRD_L2_STATUS_n, and every unit is as it was. -/
structure LpWork (n : Tri) (s t : State) : Prop where
  others : ∀ m, m ≠ n → t.lp m = s.lp m
  reg : ∀ a, a ≠ aTrdL2Status n → t.reg a = s.reg a
  pending : t.pending = s.pending
  hubPmt : t.hubPmt = s.hubPmt
  part : t.part = s.part
  tick : t.tick = s.tick
  save : t.save = s.save
  kst : t.kst = s.kst
  fcu : t.fcu = s.fcu
  pwr : t.pwr = s.pwr
  therm : t.therm = s.therm
  css : t.css = s.css
  spn : t.spn = s.spn
  pci : t.pci = s.pci
  cmp : t.cmp = s.cmp
  cph : t.cph = s.cph
  raised : t.raised = s.raised
  bus : t.bus = s.bus
  dbg : t.dbg = s.dbg

namespace LpWork

theorem refl (n : Tri) (s : State) : LpWork n s s := by constructor <;> intros <;> rfl

theorem ofCache {n : Tri} {s t : State} (h : CacheWork n s t) : LpWork n s t :=
  ⟨h.others, h.reg, h.pending, h.hubPmt, h.part, h.tick, h.save, h.kst, h.fcu, h.pwr, h.therm, h.css, h.spn, h.pci, h.cmp, h.cph, h.raised,
    h.bus, h.dbg⟩

theorem trans {n : Tri} {s t u : State} (h : LpWork n s t) (k : LpWork n t u) : LpWork n s u :=
  ⟨fun m hm => (k.others m hm).trans (h.others m hm), fun a ha => (k.reg a ha).trans (h.reg a ha), k.pending.trans h.pending,
    k.hubPmt.trans h.hubPmt, k.part.trans h.part, k.tick.trans h.tick, k.save.trans h.save, k.kst.trans h.kst, k.fcu.trans h.fcu,
    k.pwr.trans h.pwr, k.therm.trans h.therm, k.css.trans h.css, k.spn.trans h.spn, k.pci.trans h.pci, k.cmp.trans h.cmp, k.cph.trans h.cph,
    k.raised.trans h.raised, k.bus.trans h.bus, k.dbg.trans h.dbg⟩

theorem updLp (s : State) (n : Tri) (f : Lp → Lp) : LpWork n s (s.updLp n f) := by
  constructor
  · intro m hm; exact lp_updLp_other s hm f
  all_goals intros; simp

theorem count (s : State) (n : Tri) (u w k : Nat) : LpWork n s (s.count u w k) := by constructor <;> intros <;> simp

theorem ite {n : Tri} {s : State} {c : Prop} [Decidable c] {t u : State} (h : LpWork n s t) (k : LpWork n s u) :
    LpWork n s (if c then t else u) := by
  split
  · exact h
  · exact k

theorem flushFor (s : State) (n : Tri) (a b : Arch) (m : Bool) : LpWork n s (s.flushFor n a b m) := by
  unfold State.flushFor State.flushPred
  exact ite (updLp s n _) (refl n s)

theorem pushRecord (s : State) (n : Tri) (r : Record) : LpWork n s (s.pushRecord n r) := updLp s n _

/-- The clocks, the collector and the power domains see nothing of it. -/
theorem calm {n : Tri} {s t : State} (h : LpWork n s t) (hc : s.calm = true) : t.calm = true := by
  have r1 : t.reg aClkStatus = s.reg aClkStatus := h.reg _ (by unfold aClkStatus aTrdL2Status winBase; omega)
  have r2 : ∀ d, d < 64 → t.reg (aPwrDom d) = s.reg (aPwrDom d) := fun d hd =>
    h.reg _ (by unfold aPwrDom aTrdL2Status winBase; omega)
  unfold State.calm State.clocked State.refState State.domState State.flag State.fld at hc ⊢
  simp only [List.all_cons, List.all_nil, Bool.and_true] at hc ⊢
  rw [r1, r2 44 (by decide), r2 45 (by decide), r2 46 (by decide), r2 47 (by decide), r2 62 (by decide), h.raised, h.fcu, h.pwr, h.save,
    h.therm]
  exact hc

end LpWork


/-- An LP without its caches, its predictors and its cycle counter. -/
def Lp.sansArr (l : Lp) : Lp := { l.sansCache with lead := CoreArr.reset, second := CoreArr.reset, third := CoreArr.reset }

/-- t is s after work of LP n on its caches and predictors. -/
structure ArrWork (n : Tri) (s t : State) : Prop extends LpWork n s t where
  own : (t.lp n).sansArr = (s.lp n).sansArr

namespace ArrWork

theorem refl (n : Tri) (s : State) : ArrWork n s s := ⟨LpWork.refl n s, rfl⟩
theorem trans {n : Tri} {s t u : State} (h : ArrWork n s t) (k : ArrWork n t u) : ArrWork n s u :=
  ⟨h.toLpWork.trans k.toLpWork, k.own.trans h.own⟩
theorem ofCache {n : Tri} {s t : State} (h : CacheWork n s t) : ArrWork n s t :=
  ⟨.ofCache h, congrArg (fun l : Lp => { l with lead := CoreArr.reset, second := CoreArr.reset, third := CoreArr.reset }) h.own⟩
theorem updLp {n : Tri} {s : State} {f : Lp → Lp} (h : (f (s.lp n)).sansArr = (s.lp n).sansArr) : ArrWork n s (s.updLp n f) :=
  ⟨LpWork.updLp s n f, by simpa using h⟩
theorem foldl {α : Type} {n : Tri} {f : State → α → State} (h : ∀ s x, ArrWork n s (f s x)) (l : List α) (s : State) :
    ArrWork n s (l.foldl f s) := by
  induction l generalizing s with
  | nil => exact refl n s
  | cons x l ih => exact (h s x).trans (ih _)

theorem arch {n : Tri} {s t : State} (h : ArrWork n s t) : (t.lp n).arch = (s.lp n).arch := by have := congrArg Lp.arch h.own; exact this
theorem records {n : Tri} {s t : State} (h : ArrWork n s t) : (t.lp n).records = (s.lp n).records := by have := congrArg Lp.records h.own; exact this
theorem waiting {n : Tri} {s t : State} (h : ArrWork n s t) : (t.lp n).waiting = (s.lp n).waiting := by have := congrArg Lp.waiting h.own; exact this
theorem lpSealed {n : Tri} {s t : State} (h : ArrWork n s t) : t.lpSealed n = s.lpSealed n := by
  simp only [State.lpSealed, State.partOf, State.sealed, State.partCfg, h.arch, h.part]

theorem wrongFetch (s : State) (n : Tri) (va : Word) : ArrWork n s (s.wrongFetch n va) := by
  refine ofCache ?_
  unfold State.wrongFetch
  dsimp only
  split
  · exact CacheWork.refl n s
  · split
    · exact CacheWork.ite ((CacheWork.count ..).trans (CacheWork.touchRead ..)) (CacheWork.refl n s)
    · exact CacheWork.refl n s

theorem wrongPath (s : State) (n : Tri) (g : Word) : ArrWork n s (s.wrongPath n g) := by
  unfold State.wrongPath
  exact (ofCache (CacheWork.draw n s)).trans ((updLp rfl).trans
    (foldl (fun s va => (ofCache (CacheWork.count ..)).trans (wrongFetch ..)) _ _))

/-- Prediction touches nothing but the caches and the predictors of the LP (04 R112 to R119). -/
theorem resolve (s : State) (n : Tri) (top : Option Word) (b : Option (BrKind × Word)) : ArrWork n s (s.resolve n top b).1 := by
  unfold State.resolve
  cases b with
  | none => exact refl n s
  | some x =>
    dsimp only
    refine trans ?_ (updLp rfl)
    split
    · split
      · exact wrongPath ..
      · exact refl n s
    · exact refl n s

end ArrWork

/-! ### The fetch -/

theorem fetchWork_fr (s : State) (n : Tri) (fr : Frozen) (fa : Access) :
    ∃ top, (s.fetchWork n fr fa).2 = { fr with fetched := true, top := top } := ⟨_, rfl⟩

theorem fetchWork_work (s : State) (n : Tri) (fr : Frozen) (fa : Access) : LpWork n s (s.fetchWork n fr fa).1 := by
  unfold State.fetchWork
  dsimp only
  refine LpWork.trans (LpWork.ofCache ?_) (LpWork.updLp _ n _)
  cases fa.addrs.head? with
  | none => exact CacheWork.applyFills ..
  | some b => exact (CacheWork.applyFills ..).trans (CacheWork.touchRead ..)

/-- The fetch of a bundle with no long instruction changes the caches, the return stacks and the held progress word alone (02 R70, 04
R115). -/
theorem fetchWork_own (s : State) (n : Tri) (fr : Frozen) (fa : Access) (hl : ∀ e ∈ fr.effs, e.long = none) :
    ((s.fetchWork n fr fa).1.lp n).sansArr =
      { (s.lp n).sansArr with arch := { (s.lp n).arch with progress := 0 } } := by
  have hr : ∀ p : Word, resumesLong p fr.effs = false := by
    intro p
    unfold resumesLong
    rw [List.any_eq_false]
    intro e he
    rw [hl e he]; simp
  have hc : CacheWork n s (fa.addrs.head?.elim (s.applyFills n fa true) fun b =>
      (s.applyFills n fa true).touchRead n ((s.applyFills n fa true).reqPart n) (b / 128) true false false) := by
    cases fa.addrs.head? with
    | none => exact CacheWork.applyFills ..
    | some b => exact (CacheWork.applyFills ..).trans (CacheWork.touchRead ..)
  have ho := (ArrWork.ofCache hc).own
  have ha := (ArrWork.ofCache hc).arch
  unfold State.fetchWork
  dsimp only
  generalize (fa.addrs.head?.elim (s.applyFills n fa true) fun b =>
      (s.applyFills n fa true).touchRead n ((s.applyFills n fa true).reqPart n) (b / 128) true false false) = u at *
  rw [hr]
  simp only [lp_updLp_same, Bool.false_eq_true, if_false]
  rw [← ho, ← ha]
  rfl

/-! ### The attempt -/

/-- A plain slot that can be fetched commits, after the work of the fetch (02 R46). -/
theorem attempt_plain {s u : State} {n : Tri} {e : SlotEff} {fr gr : Frozen} {fa : Access} (hf : s.fetchFault n = .ok fa)
    (hn : fr.todo = none) (hd : fr.fetched = false) (hsy : fr.sys = none) (hr : fr.res = {}) (he : fr.effs = [e])
    (hu : s.fetchWork n fr fa = (u, gr)) (h : PlainSlot (u.lp n).arch e) (hl : ((u.lp n).arch.delay && isLoopEnd (u.lp n).arch) = false) :
    s.attempt n fr = u.commit n [e] {} gr.top [] := by
  obtain ⟨top, hg⟩ := fetchWork_fr s n fr fa
  rw [hu] at hg
  have hg : gr = { fr with fetched := true, top := top } := hg
  have hge : gr.effs = [e] := by rw [hg]; exact he
  have hgs : gr.sys = none := by rw [hg]; exact hsy
  have hgr : gr.res = {} := by rw [hg]; exact hr
  have hsys : (e.sys = .eret) = False := by rcases h.sys with hs | hs | hs | hs <;> simp [hs]
  have hc : u.checkSlots n [e] = none := by
    unfold State.checkSlots
    simp [illegal_plain h hl, h.valid, slotFault_plain h]
  have hm : u.memAccs n gr.effs = [] := by simp [State.memAccs, hge, State.memAcc, h.noMem]
  unfold State.attempt
  simp only [hn, hd, hf, hu, Bool.false_eq_true, if_false]
  unfold State.runBundle
  simp only [hge, hc, List.findSome?_cons, h.noLong, Option.map_none, List.findSome?_nil, List.find?_cons, hsys, decide_false, List.find?_nil]
  unfold State.runSlots
  rw [hge] at hm
  simp only [hge, hm, sysReq_plain h, List.head?_nil, Option.any_none, Bool.false_eq_true, if_false, State.poisonStop, List.findSome?_nil]
  simp [State.runMem, State.memSteps, hge, hgs, hgr, addGw]

/-! ### From the command to the attempt -/

/-- Two updates of an LP are one. -/
theorem updLp_updLp (s : State) (n : Tri) (f g : Lp → Lp) : (s.updLp n f).updLp n g = s.updLp n fun l => g (f l) := by
  have h : ((s.updLp n f).lp n) = f (s.lp n) := lp_updLp_same s n f
  unfold State.updLp at h ⊢
  simp only [h, Vector.set_set]

/-- An LP that issues the bundle of slot e. -/
def Lp.atIssue (l : Lp) (e : SlotEff) (om : Nat) : Lp := { l with asm := [e], orderMode := om, retried := false }

/-- The slot's effect as it is staged. -/
def State.slotOf (s : State) (at_ : Issue) (mk : SlotCtx → SlotEff) : SlotEff := { mk (s.slotCtx at_.lp) with slot := at_.slot.val }

/-- The state in which a bundle of one slot is attempted. -/
def State.atIssue (s : State) (n : Tri) (e : SlotEff) : State := s.updLp n fun l => l.atIssue e (s.reg aHubOrderMode).toNat

theorem atIssue_view (s : State) (n : Tri) (e : SlotEff) : SameView n s (s.atIssue n e) :=
  SameView.updLp s n rfl rfl rfl rfl rfl rfl rfl

theorem atIssue_arch (s : State) (n : Tri) (e : SlotEff) : ((s.atIssue n e).lp n).arch = (s.lp n).arch := by
  unfold State.atIssue; rw [lp_updLp_same]; rfl

/-- At a boundary where LP n is ready, the one instruction of a bundle is attempted. -/
theorem stage_ready {s : State} {at_ : Issue} (h : Ready s at_.lp) (hl : at_.last = true) (mk : SlotCtx → SlotEff) :
    s.stage at_ mk = (s.atIssue at_.lp (s.slotOf at_ mk)).attempt at_.lp { effs := [s.slotOf at_ mk] } := by
  let f : Lp → Lp := fun l => { l with asm := insertSlot (s.slotOf at_ mk) l.asm }
  let g : Lp → Lp := fun l => { f l with orderMode := (s.reg aHubOrderMode).toNat }
  have hi : insertSlot (s.slotOf at_ mk) (s.lp at_.lp).asm = [s.slotOf at_ mk] := by rw [h.empty]; rfl
  have hb : (s.updLp at_.lp f).boundary at_.lp = s.updLp at_.lp g := by
    unfold State.boundary
    simp only [lp_updLp_same, f, h.noNear, h.noShared, Bool.or_self, Bool.false_eq_true, if_false, updLp_updLp, updLp_reg]
    rfl
  have hn : (s.updLp at_.lp g).nextEvent at_.lp = none := by
    rw [(SameView.updLp s at_.lp (f := g) rfl rfl rfl rfl rfl rfl rfl).nextEvent (by rw [lp_updLp_same]), h.noEvent]
  have hx : (s.updLp at_.lp g).updLp at_.lp (fun l => { l with retried := false }) = s.atIssue at_.lp (s.slotOf at_ mk) := by
    rw [updLp_updLp]
    unfold State.atIssue State.updLp Lp.atIssue
    simp only [g, f, hi]
  have ha : ((s.updLp at_.lp g).lp at_.lp).asm = [s.slotOf at_ mk] := by rw [lp_updLp_same]; exact hi
  have hw : ((s.atIssue at_.lp (s.slotOf at_ mk)).lp at_.lp).waiting = false := by
    unfold State.atIssue; rw [lp_updLp_same]; exact h.awake
  have hc : (if ((s.updLp at_.lp g).lp at_.lp).retried then (s.updLp at_.lp g, false) else (s.updLp at_.lp g).checkEvents at_.lp)
      = (s.updLp at_.lp g, false) := by
    unfold State.checkEvents; rw [hn]; simp
  unfold State.stage
  simp only [h.issues, if_true, hl]
  change (s.updLp at_.lp f).issueBundle at_.lp = _
  unfold State.issueBundle
  simp only [hb, hc, ha, hx, hw, Bool.false_eq_true, if_false]

/-! ### The commit -/

/-- No trap and no wait in a bundle. -/
structure NoTrap (effs : List SlotEff) : Prop where
  trap : effs.find? (fun e => decide (e.sys = .call) || decide (e.sys = .brk)) = none
  wait : effs.any (fun e => decide (e.sys = .wait)) = false

theorem noTrap_plain {e : SlotEff} (h : e.sys = .none) : NoTrap [e] := ⟨by simp [h], by simp [h]⟩

theorem afterCommit_id {effs : List SlotEff} (h : NoTrap effs) (s : State) (n : Tri) (pc : Word) : s.afterCommit n effs pc = s := by
  unfold State.afterCommit
  rw [h.trap, h.wait]
  simp

/-- Register writes leave the held progress word alone. -/
theorem writeAll_progress (a : Arch) (p : Word) (effs : List SlotEff) (loads : List (Dst × Word)) :
    ({ a with progress := p } : Arch).writeAll effs loads = { a.writeAll effs loads with progress := p } := by
  have gstep : ∀ (b : Arch) (i : Nat) (v : Word), ({ b with progress := p } : Arch).wrG i v = { b.wrG i v with progress := p } := by
    intro b i v
    unfold Arch.wrG
    split
    · rfl
    · split
      · show Arch.setSp _ b.pl v = _
        unfold Arch.setSp
        repeat (first | rfl | split)
      · split <;> rfl
  have fstep : ∀ (b : Arch) (i : Nat) (v : Word), ({ b with progress := p } : Arch).wrF i v = { b.wrF i v with progress := p } := by
    intro b i v; unfold Arch.wrF; split <;> rfl
  have astep : ∀ (b : Arch) (i : Nat) (v : Acc), ({ b with progress := p } : Arch).wrAcc i v = { b.wrAcc i v with progress := p } := by
    intro b i v; unfold Arch.wrAcc; split <;> rfl
  have fold : ∀ {α : Type} (h : Arch → α → Arch) (_ : ∀ b x, h { b with progress := p } x = { h b x with progress := p }) (l : List α) (b : Arch),
      l.foldl h { b with progress := p } = { l.foldl h b with progress := p } := by
    intro α h hs l
    induction l with
    | nil => intro b; rfl
    | cons x l ih => intro b; rw [List.foldl_cons, hs, ih, List.foldl_cons]
  unfold Arch.writeAll
  dsimp only
  have h1 := fold (fun (b : Arch) (e : SlotEff) =>
    match e.aw with
    | some w => (e.fw.foldl (fun b w => b.wrF w.1 w.2) (e.gw.foldl (fun b w => b.wrG w.1 w.2) b)).wrAcc w.1 w.2
    | none => e.fw.foldl (fun b w => b.wrF w.1 w.2) (e.gw.foldl (fun b w => b.wrG w.1 w.2) b)) (by
      intro b e
      dsimp only
      rw [fold _ (fun b (w : Nat × Word) => gstep b w.1 w.2) e.gw b, fold _ (fun b (w : Nat × Word) => fstep b w.1 w.2) e.fw]
      cases e.aw with
      | none => rfl
      | some w => exact astep _ w.1 w.2) effs a
  refine (congrArg (fun x => List.foldl _ x loads) h1).trans ?_
  refine fold _ ?_ loads _
  intro b x
  obtain ⟨d, v⟩ := x
  cases d with
  | g i => exact gstep b i v
  | f i => exact fstep b i v
  | acc i => rfl

/-- The held progress word has no part in a commit, which clears it (02 R70). -/
theorem commitArch_progress (a : Arch) (p : Word) (sl : Bool) (effs : List SlotEff) (loads : List (Dst × Word)) :
    commitArch { a with progress := p } sl effs loads = commitArch a sl effs loads := by
  unfold commitArch
  rw [writeAll_progress]
  rfl

/-- What the commit of a bundle with no trap and no wait leaves: its record, and the architectural state of 02 R46. -/
structure Committed (s t : State) (n : Tri) (effs : List SlotEff) (r : MemRes) (extra : List Dst) : Prop where
  work : LpWork n s t
  arch : (t.lp n).arch = commitArch (s.lp n).arch (s.lpSealed n) effs r.loads
  records : (t.lp n).records = (s.lp n).records ++
    [{ post := (t.lp n).arch, stores := r.stores, writes := writtenDsts effs ++ (r.loads.map (·.1)).filter (· ≠ .g 0) ++ extra,
       reads := effReads effs, reqs := r.reqs, held := r.held, evt := none }]
  waiting : (t.lp n).waiting = false

theorem commit_done {s : State} {n : Tri} {effs : List SlotEff} (h : NoTrap effs) (r : MemRes) (top : Option Word) (extra : List Dst) :
    Committed s (s.commit n effs r top extra) n effs r extra := by
  have hr := ArrWork.resolve s n top (branchOf effs)
  unfold State.commit
  dsimp only
  rw [afterCommit_id h, h.wait]
  generalize s.resolve n top (branchOf effs) = x at *
  obtain ⟨u, wrong⟩ := x
  dsimp only at hr ⊢
  refine ⟨?_, ?_, ?_, ?_⟩
  · refine LpWork.trans ?_ (LpWork.flushFor _ n _ _ _)
    refine LpWork.trans ?_ (LpWork.pushRecord _ n _)
    refine LpWork.trans ?_ (LpWork.updLp _ n _)
    exact hr.toLpWork.trans ((LpWork.count u n _ _ _).trans (LpWork.count _ n _ _ _))
  · unfold State.flushFor State.flushPred State.pushRecord
    dsimp only
    split <;> simp [Lp.cores]
  · have := hr.records
    unfold State.flushFor State.flushPred State.pushRecord
    dsimp only
    split <;> simp [Lp.cores, this]
  · unfold State.flushFor State.flushPred State.pushRecord
    dsimp only
    split <;> simp [Lp.cores]

/-! ### Memory as it is -/

/-- t holds the data of s: the same memory, and the same lines in the caches. -/
structure SameData (s t : State) : Prop where
  mem : t.mem = s.mem
  poison : t.poison = s.poison
  l3 : t.l3 = s.l3
  l2 : ∀ m, (t.lp m).l2 = (s.lp m).l2
  vbuf : ∀ m, (t.lp m).vbuf = (s.lp m).vbuf

namespace SameData

theorem refl (s : State) : SameData s s := ⟨rfl, rfl, rfl, fun _ => rfl, fun _ => rfl⟩

theorem trans {s t u : State} (h : SameData s t) (k : SameData t u) : SameData s u :=
  ⟨k.mem.trans h.mem, k.poison.trans h.poison, k.l3.trans h.l3, fun m => (k.l2 m).trans (h.l2 m), fun m => (k.vbuf m).trans (h.vbuf m)⟩

/-- Every byte reads as before (09 R235). -/
theorem byte {s t : State} (h : SameData s t) (a : Nat) : t.byte a = s.byte a := by
  have hl : ∀ d, t.l3Of d = s.l3Of d := fun d => by simp only [State.l3Of, h.l3]
  have hm : ∀ line, t.modLine line = s.modLine line := fun line => by
    simp only [State.modLine, Lp.l2Mod, Lp.vbMod, Lp.l2Find, h.l2, h.vbuf, hl]
  simp only [State.byte, hm, h.mem]

theorem updLp (s : State) (n : Tri) {f : Lp → Lp} (h2 : (f (s.lp n)).l2 = (s.lp n).l2) (hv : (f (s.lp n)).vbuf = (s.lp n).vbuf) :
    SameData s (s.updLp n f) := by
  refine ⟨by simp, by simp, by simp, fun m => ?_, fun m => ?_⟩
  · by_cases hm : m = n
    · subst hm; simpa
    · rw [lp_updLp_other s hm]
  · by_cases hm : m = n
    · subst hm; simpa
    · rw [lp_updLp_other s hm]

theorem count (s : State) (u w k : Nat) : SameData s (s.count u w k) := ⟨by simp, by simp, by simp, fun _ => by simp, fun _ => by simp⟩

theorem flushFor (s : State) (n : Tri) (a b : Arch) (m : Bool) : SameData s (s.flushFor n a b m) := by
  unfold State.flushFor State.flushPred
  dsimp only
  split
  · exact updLp s n rfl rfl
  · exact refl s

/-- A commit whose branch, if it has one, was predicted. -/
theorem commit {s : State} {n : Tri} {effs : List SlotEff} (h : NoTrap effs) (r : MemRes) (top : Option Word) (extra : List Dst)
    (hw : ∀ k t, branchOf effs = some (k, t) → (s.lp n).lead.pred.wrong top (s.lp n).arch.pc k t = false) :
    SameData s (s.commit n effs r top extra) := by
  have hr : SameData s (s.resolve n top (branchOf effs)).1 := by
    unfold State.resolve
    cases hb : branchOf effs with
    | none => exact refl s
    | some x =>
      obtain ⟨k, t⟩ := x
      dsimp only
      rw [hw k t hb]
      exact updLp s n rfl rfl
  unfold State.commit
  dsimp only
  rw [afterCommit_id h]
  refine trans ?_ (flushFor _ n _ _ _)
  refine trans ?_ (updLp _ n rfl rfl)
  refine trans ?_ (updLp _ n rfl rfl)
  exact hr.trans ((count _ _ _ _).trans (count _ _ _ _))

end SameData

theorem updLp_self (s : State) (n : Tri) {f : Lp → Lp} (h : f (s.lp n) = s.lp n) : s.updLp n f = s := by
  unfold State.updLp
  rw [h]
  have : s.lps.set n.val (s.lp n) = s.lps := by rw [lp_eq]; exact Vector.set_getElem_self _
  rw [this]

/-- An empty fill changes no data. -/
theorem xfill_empty (s : State) (n : Tri) (b : Bool) :
    SameData s (s.xfill n b {}) ∧ ∀ line, ((s.xfill n b {}).lp n).lacking true line = (s.lp n).lacking true line := by
  have h : s.xfill n b {} = (s.count n.val 7 0).count n.val 8 0 := by
    unfold State.xfill State.walkLines
    exact updLp_self ((s.count n.val 7 0).count n.val 8 0) n rfl
  rw [h]
  exact ⟨(SameData.count s _ _ _).trans (SameData.count _ _ _ _), fun line => rfl⟩

/-- A line that every core's L1 holds is read without any change of data. -/
theorem touchRead_hit {s : State} {n : Tri} {line : Nat} (h : (s.lp n).lacking true line = 0) (p : Nat) :
    SameData s (s.touchRead n p line true false false) := by
  have hall : ∀ c ∈ [(s.lp n).lead, (s.lp n).second, (s.lp n).third], c.has true line = true := by
    unfold Lp.lacking at h
    have := List.eq_nil_of_length_eq_zero h
    rw [List.filter_eq_nil_iff] at this
    intro c hc
    simpa using this c hc
  have hcnt : s.l1Count n line true = s := by
    unfold State.l1Count
    dsimp only
    simp only [List.foldl_cons, List.foldl_nil, hall _ (List.mem_cons_self ..), Bool.true_or, if_true]
    rw [hall (s.lp n).second (by simp), hall (s.lp n).third (by simp)]
    simp
  unfold State.touchRead
  simp only [Bool.or_self, Bool.false_eq_true, if_false, hcnt, h, if_true]
  exact SameData.refl s

/-- A fetch that hits does no cache work. -/
theorem fetchWork_warm {s : State} {n : Tri} {fa : Access} (fr : Frozen) (hf : ∀ f ∈ fa.fills, f = {})
    (hh : ∀ b, fa.addrs.head? = some b → (s.lp n).lacking true (b / 128) = 0) : SameData s (s.fetchWork n fr fa).1 := by
  have ha : SameData s (s.applyFills n fa true) ∧ ∀ line, ((s.applyFills n fa true).lp n).lacking true line = (s.lp n).lacking true line := by
    unfold State.applyFills
    generalize fa.fills = l at hf
    clear hh
    induction l generalizing s with
    | nil => exact ⟨SameData.refl s, fun _ => rfl⟩
    | cons f l ih =>
      rw [List.foldl_cons, hf f (by simp)]
      obtain ⟨h1, h2⟩ := xfill_empty s n true
      obtain ⟨h3, h4⟩ := ih (s := s.xfill n true {}) fun g hg => hf g (by simp [hg])
      exact ⟨h1.trans h3, fun line => (h4 line).trans (h2 line)⟩
  unfold State.fetchWork
  dsimp only
  refine SameData.trans ?_ (SameData.updLp _ n rfl rfl)
  cases hx : fa.addrs.head? with
  | none => exact ha.1
  | some b => exact ha.1.trans (touchRead_hit (by rw [ha.2]; exact hh b hx) _)

/-! ### The whole command -/

/-- What a command for a bundle of one slot leaves, for a slot that touches registers alone (02 R46). -/
structure PlainDone (s t : State) (n : Tri) (e : SlotEff) : Prop where
  work : LpWork n s t
  calm : t.calm = true
  arch : (t.lp n).arch = commitArch (s.lp n).arch (s.lpSealed n) [e] []
  records : (t.lp n).records = (s.lp n).records ++
    [{ post := (t.lp n).arch, stores := [], writes := writtenDsts [e], reads := effReads [e], held := [], evt := none }]
  waiting : (t.lp n).waiting = false
  data : e.branch = none → s.warm n → SameData s t

/-- The command of a bundle of one slot that touches registers alone. -/
theorem stage_plain {s : State} {at_ : Issue} (h : Ready s at_.lp) (hl : at_.last = true) {mk : SlotCtx → SlotEff}
    (hp : PlainSlot (s.lp at_.lp).arch (s.slotOf at_ mk)) (hs : (s.slotOf at_ mk).sys = .none) :
    PlainDone s (s.stage at_ mk).settle at_.lp (s.slotOf at_ mk) := by
  generalize hn : at_.lp = n at *
  generalize he : s.slotOf at_ mk = e at *
  have hview := atIssue_view s n e
  obtain ⟨fa, hfa⟩ := h.fetch
  have hfv : (s.atIssue n e).fetchFault n = .ok fa := by rw [hview.fetchFault (atIssue_arch s n e), hfa]
  have hwork := fetchWork_work (s.atIssue n e) n { effs := [e] } fa
  have hown := fetchWork_own (s.atIssue n e) n { effs := [e] } fa (by simp [hp.noLong])
  have hwarm := fetchWork_warm (s := s.atIssue n e) (n := n) (fa := fa) { effs := [e] }
  cases hu : (s.atIssue n e).fetchWork n { effs := [e] } fa with
  | mk u gr =>
  rw [hu] at hwork hown hwarm
  dsimp only at hwork hown hwarm
  have hua : (u.lp n).arch = { (s.lp n).arch with progress := 0 } := by
    rw [← atIssue_arch s n e]; exact congrArg Lp.arch hown
  have hur : (u.lp n).records = (s.lp n).records := by
    refine (congrArg Lp.records hown).trans ?_
    unfold State.atIssue; rw [lp_updLp_same]; rfl
  have hp' : PlainSlot (u.lp n).arch e := by rw [hua]; exact ⟨hp.valid, hp.noFault, hp.accepted, hp.short, hp.noMem, hp.noLong, hp.sys, hp.mode, hp.branch⟩
  have hatt := attempt_plain (fr := { effs := [e] }) hfv rfl rfl rfl rfl rfl hu hp' (by rw [hua]; exact h.loopDelay)
  have hst : s.stage at_ mk = u.commit n [e] {} gr.top [] := by
    rw [stage_ready (hn ▸ h) hl mk, he, hn, hatt]
  have hsw : LpWork n s u := (LpWork.updLp s n _).trans hwork
  have hus : u.lpSealed n = s.lpSealed n := by
    simp only [State.lpSealed, State.partOf, State.sealed, State.partCfg, hua, hsw.part]
  have hcd := commit_done (s := u) (n := n) (noTrap_plain hs) {} gr.top []
  have hcalm := (hsw.trans hcd.work).calm h.calm
  rw [hst, settle_calm hcalm]
  refine ⟨hsw.trans hcd.work, hcalm, ?_, ?_, hcd.waiting, ?_⟩
  · rw [hcd.arch, hua, hus, commitArch_progress]
  · rw [hcd.records, hur]; simp
  · rintro hb ⟨fb, hfb, hfills, hhead⟩
    have hfab : fb = fa := by rw [hfa] at hfb; exact (Except.ok.inj hfb).symm
    subst hfab
    have hlk : ∀ line, ((s.atIssue n e).lp n).lacking true line = (s.lp n).lacking true line := by
      intro line; unfold State.atIssue; rw [lp_updLp_same]; rfl
    refine (SameData.updLp s n rfl rfl).trans ((hwarm hfills fun b hb => by rw [hlk]; exact hhead b hb).trans ?_)
    exact SameData.commit (noTrap_plain hs) _ _ _ fun k t hk => by simp [branchOf, hb] at hk

end Sys2Proof.Machine
end

