-- ==== Sys2Proof/Laws/Commit.lean ====
section
/-! SUPPORT. Registers after a commit of one slot: the values written, and everything else. -/

namespace Sys2Proof.Machine
open Sys2Proof

/-! ### Register files -/

theorem rawG_zero (a : Arch) : a.rawG 0 = 0 := rfl

theorem sp_setSp (a : Arch) {l pl : Nat} (hl : l = plU ∨ l = plS ∨ l = plM) (hp : pl < 4) (v : Word) :
    (a.setSp pl v).sp l = if spNum l = spNum pl then v else a.sp l := by
  have hp' : pl = 0 ∨ pl = 1 ∨ pl = 2 ∨ pl = 3 := by omega
  rcases hl with rfl | rfl | rfl <;> rcases hp' with rfl | rfl | rfl | rfl <;>
    simp [Arch.setSp, Arch.sp, spNum, plU, plS, plM]

theorem pl_lt (a : Arch) : a.pl < 4 := by unfold Arch.pl bits; exact Nat.mod_lt _ (by decide)

theorem wrG_psw (a : Arch) (i : Nat) (v : Word) : (a.wrG i v).psw = a.psw := by
  unfold Arch.wrG Arch.setSp; repeat (first | rfl | split)
theorem wrG_pl (a : Arch) (i : Nat) (v : Word) : (a.wrG i v).pl = a.pl := by simp only [Arch.pl, wrG_psw]

theorem sp_setSp_self (a : Arch) (pl : Nat) (v : Word) : (a.setSp pl v).sp pl = v := by
  unfold Arch.setSp Arch.sp; repeat (first | rfl | split) <;> simp_all

/-- A general register after a write to one (02 R37). -/
theorem rawG_wrG (a : Arch) {i r : Nat} (hi : i < 64) (hr : r < 64) (v : Word) :
    (a.wrG i v).rawG r = if r = i ∧ i ≠ 0 then v else a.rawG r := by
  by_cases h0 : i = 0
  · subst h0; simp [Arch.wrG]
  by_cases h63 : i = 63
  · subst h63
    have hw : a.wrG 63 v = a.setSp a.pl v := by simp [Arch.wrG]
    have hpl : (a.setSp a.pl v).pl = a.pl := by rw [← hw, wrG_pl]
    have hg : (a.setSp a.pl v).g = a.g := by unfold Arch.setSp; repeat (first | rfl | split)
    rw [hw]
    unfold Arch.rawG
    by_cases hr0 : r = 0
    · subst hr0; simp
    · by_cases hr63 : r = 63
      · subst hr63; simp [hpl, sp_setSp_self]
      · simp [hr0, hr63, hg]
  · have hw : a.wrG i v = { a with g := a.g.set i v } := by simp [Arch.wrG, h0, h63, hi]
    rw [hw]
    unfold Arch.rawG
    by_cases hr0 : r = 0
    · subst hr0; simp [Ne.symm h0]
    · by_cases hr63 : r = 63
      · subst hr63; simp [Ne.symm h63]; rfl
      · by_cases hri : r = i
        · subst hri; simp [h0, hr63, hi]
        · simp only [hr0, if_false, hr63, hri, false_and]
          simp only [Vector.toList_set, List.getD_eq_getElem?_getD]
          rw [List.getElem?_set_ne (Ne.symm hri)]

theorem rawF_wrF (a : Arch) {i : Nat} (hi : i < 32) (r : Nat) (v : Word) : (a.wrF i v).rawF r = if r = i then v else a.rawF r := by
  have hw : a.wrF i v = { a with f := a.f.set i v } := by simp [Arch.wrF, hi]
  rw [hw]
  unfold Arch.rawF
  by_cases hri : r = i
  · subst hri; simp [hi]
  · simp only [Vector.toList_set, List.getD_eq_getElem?_getD, hri, if_false]
    rw [List.getElem?_set_ne (Ne.symm hri)]

theorem rdAcc_wrAcc (a : Arch) {i : Nat} (hi : i < 4) (r : Nat) (v : Acc) : (a.wrAcc i v).rdAcc r = if r = i then v else a.rdAcc r := by
  have hw : a.wrAcc i v = { a with acc := a.acc.set i v } := by simp [Arch.wrAcc, hi]
  rw [hw]
  unfold Arch.rdAcc
  by_cases hri : r = i
  · subst hri; simp [hi]
  · simp only [Vector.toList_set, List.getD_eq_getElem?_getD, hri, if_false]
    rw [List.getElem?_set_ne (Ne.symm hri)]

theorem cr_setSp (a : Arch) (sl : Bool) (v : Word) {k : Nat} (hk : k ≠ spNum a.pl) : (a.setSp a.pl v).cr sl k = a.cr sl k := by
  have h4 := pl_lt a
  have hp : a.pl = 0 ∨ a.pl = 1 ∨ a.pl = 2 ∨ a.pl = 3 := by omega
  rcases hp with hp | hp | hp | hp <;> rw [hp] at hk ⊢ <;>
    simp only [spNum, plU, plS, Nat.reduceEqDiff, if_true, if_false] at hk <;>
    simp [Arch.setSp, plU, plS, Arch.cr, hk, Arch.pswEff]

/-- A write of a register leaves the control registers, but for the stack pointer of the level. -/
theorem cr_wrG (a : Arch) (sl : Bool) (i : Nat) (v : Word) {k : Nat} (hk : i = 63 → k ≠ spNum a.pl) : (a.wrG i v).cr sl k = a.cr sl k := by
  by_cases h63 : i = 63
  · subst h63
    have hw : a.wrG 63 v = a.setSp a.pl v := by simp [Arch.wrG]
    rw [hw]; exact cr_setSp a sl v (hk rfl)
  · unfold Arch.wrG
    by_cases h0 : i = 0
    · simp [h0]
    · simp only [h0, h63, if_false]
      split <;> rfl

/-- Fields that a register write leaves alone. -/
structure SameRest (a b : Arch) : Prop where
  psw : b.psw = a.psw
  fcsr : b.fcsr = a.fcsr
  fxcsr : b.fxcsr = a.fxcsr
  lct : b.lct = a.lct
  lea : b.lea = a.lea
  lsa : b.lsa = a.lsa
  pc : b.pc = a.pc
  npc : b.npc = a.npc
  delay : b.delay = a.delay
  nmt : b.nmtIs = a.nmtIs
  esc : b.escIs = a.escIs
  locked : b.escLocked = a.escLocked

theorem SameRest.refl (a : Arch) : SameRest a a := ⟨rfl, rfl, rfl, rfl, rfl, rfl, rfl, rfl, rfl, rfl, rfl, rfl⟩
theorem SameRest.trans {a b c : Arch} (h : SameRest a b) (k : SameRest b c) : SameRest a c :=
  ⟨k.psw.trans h.psw, k.fcsr.trans h.fcsr, k.fxcsr.trans h.fxcsr, k.lct.trans h.lct, k.lea.trans h.lea, k.lsa.trans h.lsa, k.pc.trans h.pc,
    k.npc.trans h.npc, k.delay.trans h.delay, k.nmt.trans h.nmt, k.esc.trans h.esc, k.locked.trans h.locked⟩

theorem sameRest_wrG (a : Arch) (i : Nat) (v : Word) : SameRest a (a.wrG i v) := by
  unfold Arch.wrG Arch.setSp
  repeat (first | (constructor <;> rfl) | split)
theorem sameRest_wrF (a : Arch) (i : Nat) (v : Word) : SameRest a (a.wrF i v) := by unfold Arch.wrF; split <;> constructor <;> rfl
theorem sameRest_wrAcc (a : Arch) (i : Nat) (v : Acc) : SameRest a (a.wrAcc i v) := by unfold Arch.wrAcc; split <;> constructor <;> rfl

theorem wrG_f (a : Arch) (i : Nat) (v : Word) : (a.wrG i v).f = a.f := by unfold Arch.wrG Arch.setSp; repeat (first | rfl | split)
theorem wrG_acc (a : Arch) (i : Nat) (v : Word) : (a.wrG i v).acc = a.acc := by unfold Arch.wrG Arch.setSp; repeat (first | rfl | split)
theorem rawG_wrF (a : Arch) (i : Nat) (v : Word) (r : Nat) : (a.wrF i v).rawG r = a.rawG r := by unfold Arch.wrF; split <;> rfl
theorem rawG_wrAcc (a : Arch) (i : Nat) (v : Acc) (r : Nat) : (a.wrAcc i v).rawG r = a.rawG r := by unfold Arch.wrAcc; split <;> rfl
theorem cr_wrF (a : Arch) (sl : Bool) (i : Nat) (v : Word) (k : Nat) : (a.wrF i v).cr sl k = a.cr sl k := by unfold Arch.wrF; split <;> rfl
theorem cr_wrAcc (a : Arch) (sl : Bool) (i : Nat) (v : Acc) (k : Nat) : (a.wrAcc i v).cr sl k = a.cr sl k := by
  unfold Arch.wrAcc; split <;> rfl
theorem wrF_acc (a : Arch) (i : Nat) (v : Word) : (a.wrF i v).acc = a.acc := by unfold Arch.wrF; split <;> rfl
theorem wrAcc_f (a : Arch) (i : Nat) (v : Acc) : (a.wrAcc i v).f = a.f := by unfold Arch.wrAcc; split <;> rfl

theorem rawG_wrG_ne (a : Arch) {i r : Nat} (hr : r < 64) (h : r = 0 ∨ r ≠ i) (v : Word) : (a.wrG i v).rawG r = a.rawG r := by
  by_cases hi : i < 64
  · rw [rawG_wrG a hi hr]
    have : ¬ (r = i ∧ i ≠ 0) := by rintro ⟨rfl, h0⟩; rcases h with h | h <;> simp_all
    simp [this]
  · have : a.wrG i v = a := by
      have h0 : i ≠ 0 := by omega
      have h63 : i ≠ 63 := by omega
      simp [Arch.wrG, h0, h63, hi]
    rw [this]

theorem rawF_wrF_ne (a : Arch) {i r : Nat} (h : r ≠ i) (v : Word) : (a.wrF i v).rawF r = a.rawF r := by
  by_cases hi : i < 32
  · rw [rawF_wrF a hi]; simp [h]
  · simp [Arch.wrF, hi]

theorem rdAcc_wrAcc_ne (a : Arch) {i r : Nat} (h : r ≠ i) (v : Acc) : (a.wrAcc i v).rdAcc r = a.rdAcc r := by
  by_cases hi : i < 4
  · rw [rdAcc_wrAcc a hi]; simp [h]
  · simp [Arch.wrAcc, hi]

/-- Registers after the writes of one slot. -/
theorem writeAll_frame (a : Arch) (e : SlotEff) (sl : Bool) :
    SameRest a (a.writeAll [e] []) ∧
    (∀ r, r < 64 → (r = 0 ∨ ∀ w ∈ e.gw, w.1 ≠ r) → (a.writeAll [e] []).rawG r = a.rawG r) ∧
    (∀ i, (∀ w ∈ e.fw, w.1 ≠ i) → (a.writeAll [e] []).rawF i = a.rawF i) ∧
    (∀ i, (∀ w, e.aw = some w → w.1 ≠ i) → (a.writeAll [e] []).rdAcc i = a.rdAcc i) ∧
    (∀ k, ((∃ w ∈ e.gw, w.1 = 63) → k ≠ spNum a.pl) → (a.writeAll [e] []).cr sl k = a.cr sl k) := by
  have gpart : ∀ (ws : List (Nat × Word)) (b : Arch), SameRest a b → 
      let c := ws.foldl (fun b w => b.wrG w.1 w.2) b
      SameRest a c ∧ (∀ r, r < 64 → (r = 0 ∨ ∀ w ∈ ws, w.1 ≠ r) → c.rawG r = b.rawG r) ∧ c.f = b.f ∧ c.acc = b.acc ∧
      (∀ k, ((∃ w ∈ ws, w.1 = 63) → k ≠ spNum a.pl) → c.cr sl k = b.cr sl k) := by
    intro ws
    induction ws with
    | nil => intro b hb; exact ⟨hb, fun _ _ _ => rfl, rfl, rfl, fun _ _ => rfl⟩
    | cons w ws ih =>
      intro b hb
      obtain ⟨i1, i2, i3, i4, i5⟩ := ih (b.wrG w.1 w.2) (hb.trans (sameRest_wrG b _ _))
      have hpl : b.pl = a.pl := by simp only [Arch.pl, hb.psw]
      refine ⟨i1, fun r hr h => ?_, i3.trans (wrG_f b _ _), i4.trans (wrG_acc b _ _), fun k hk => ?_⟩
      · rw [List.foldl_cons, i2 r hr (h.imp id fun h x hx => h x (by simp [hx])),
          rawG_wrG_ne b hr (h.imp id fun h => (h w (by simp)).symm)]
      · rw [List.foldl_cons, i5 k fun ⟨x, hx, h63⟩ => hk ⟨x, by simp [hx], h63⟩,
          cr_wrG b sl w.1 w.2 fun h63 => by rw [hpl]; exact hk ⟨w, by simp, h63⟩]
  have fpart : ∀ (ws : List (Nat × Word)) (b : Arch), SameRest a b → 
      let c := ws.foldl (fun b w => b.wrF w.1 w.2) b
      SameRest a c ∧ (∀ r, c.rawG r = b.rawG r) ∧ (∀ i, (∀ w ∈ ws, w.1 ≠ i) → c.rawF i = b.rawF i) ∧ c.acc = b.acc ∧
      (∀ k, c.cr sl k = b.cr sl k) := by
    intro ws
    induction ws with
    | nil => intro b hb; exact ⟨hb, fun _ => rfl, fun _ _ => rfl, rfl, fun _ => rfl⟩
    | cons w ws ih =>
      intro b hb
      obtain ⟨i1, i2, i3, i4, i5⟩ := ih (b.wrF w.1 w.2) (hb.trans (sameRest_wrF b _ _))
      refine ⟨i1, fun r => ?_, fun i h => ?_, i4.trans (wrF_acc b _ _), fun k => ?_⟩
      · rw [List.foldl_cons, i2 r, rawG_wrF]
      · rw [List.foldl_cons, i3 i fun x hx => h x (by simp [hx]), rawF_wrF_ne b (h w (by simp)).symm]
      · rw [List.foldl_cons, i5 k, cr_wrF]
  obtain ⟨g1, g2, g3, g4, g5⟩ := gpart e.gw a (.refl a)
  obtain ⟨f1, f2, f3, f4, f5⟩ := fpart e.fw _ g1
  unfold Arch.writeAll
  simp only [List.foldl_cons, List.foldl_nil]
  cases haw : e.aw with
  | none =>
    refine ⟨f1, fun r hr h => (f2 r).trans (g2 r hr h), fun i h => (f3 i h).trans (by simp only [Arch.rawF, g3]),
      fun i _ => by simp only [Arch.rdAcc, f4, g4], fun k hk => (f5 k).trans (g5 k hk)⟩
  | some w =>
    refine ⟨f1.trans (sameRest_wrAcc _ _ _), fun r hr h => ?_, fun i h => ?_, fun i h => ?_, fun k hk => ?_⟩
    · dsimp only; rw [rawG_wrAcc]; exact (f2 r).trans (g2 r hr h)
    · dsimp only; simp only [Arch.rawF, wrAcc_f]; exact (f3 i h).trans (by simp only [Arch.rawF, g3])
    · dsimp only; rw [rdAcc_wrAcc_ne _ (h w rfl).symm]; simp only [Arch.rdAcc, f4, g4]
    · dsimp only; rw [cr_wrAcc]; exact (f5 k).trans (g5 k hk)

/-- Where no loop level ends, the end action is the plain successor (04 R107). -/
theorem endAction_plain {a : Arch} (h : isLoopEnd a = false) : endAction a = (a.npc, a.lct, false) := by
  simp only [isLoopEnd, Bool.or_eq_false_iff] at h
  obtain ⟨⟨h0, h1⟩, h2⟩ := h
  simp [endAction, h0, h1, h2]

/-- An architectural state with the parts of a commit replaced. -/
def Arch.settled (w : Arch) (psw fcsr fxcsr : Word) (lct : Vector Word 3) (sh : List Shadow) (pc npc : Word) (d : Bool) : Arch :=
  { w with psw := psw, fcsr := fcsr, fxcsr := fxcsr, lct := lct, shadows := sh, progress := 0, handlerFirst := false, pc := pc, npc := npc,
           delay := d }

/-- The commit of a slot that writes no control register and sets no loop. -/
theorem commitArch_one (a : Arch) (sl : Bool) {e : SlotEff} (hcr : e.cr = none) (hlp : e.lpset = none) :
    ∃ pc npc d, commitArch a sl [e] [] = (a.writeAll [e] []).settled (flagDz a.psw e.dzSet e.dzClr) (flagF a.fcsr e.fflags)
        (flagFx a.fxcsr e.aov e.sat) (endAction a).2.1 (shadowsAfter a (writtenDsts [e]) []) pc npc d ∧
      (e.branch = none → pc = (endAction a).1 ∧ npc = (endAction a).1 + 16 ∧ d = false) ∧
      (∀ k w, e.branch = some (k, w) → pc = a.npc ∧ npc = w ∧ d = true) := by
  obtain ⟨h1, -, -, -, -⟩ := writeAll_frame a e sl
  have hx : ∀ b : Bool, (b || false) = b := by intro b; cases b <;> rfl
  cases hb : e.branch with
  | none =>
    refine ⟨(endAction a).1, (endAction a).1 + 16, false, ?_, fun _ => ⟨rfl, rfl, rfl⟩, fun k w h => by simp at h⟩
    unfold commitArch Arch.settled
    simp [Arch.flags, hcr, hlp, hb, h1.psw, h1.fcsr, h1.fxcsr]
  | some x =>
    refine ⟨a.npc, x.2, true, ?_, fun h => by simp at h, fun k w h => ?_⟩
    · unfold commitArch Arch.settled
      simp [Arch.flags, hcr, hlp, hb, h1.psw, h1.fcsr, h1.fxcsr]
    · cases h; exact ⟨rfl, rfl, rfl⟩

theorem cr_settled (w : Arch) (sl : Bool) (psw fcsr fxcsr : Word) (lct : Vector Word 3) (sh : List Shadow) (pc npc : Word) (d : Bool) {k : Nat}
    (h0 : k = 0 → psw = w.psw) (h1 : k = 1 → fcsr = w.fcsr) (h2 : k = 2 → fxcsr = w.fxcsr)
    (hl : lct = w.lct ∨ (k ≠ 0x0A ∧ k ≠ 0x0D ∧ k ≠ 0x10)) :
    (w.settled psw fcsr fxcsr lct sh pc npc d).cr sl k = w.cr sl k := by
  unfold Arch.cr Arch.pswEff Arch.settled
  dsimp only
  by_cases k0 : k = 0
  · simp [k0, h0 k0]
  by_cases k1 : k = 1
  · simp [k1, h1 k1]
  by_cases k2 : k = 2
  · simp [k2, h2 k2]
  simp only [k0, k1, k2, if_false]
  by_cases hr : 8 ≤ k ∧ k ≤ 0x10
  · simp only [hr, and_self, if_true]
    rcases hl with hl | ⟨a, b, c⟩
    · rw [hl]
    · have : (k - 8) % 3 = 0 ∨ (k - 8) % 3 = 1 := by omega
      rcases this with h | h <;> simp [h]
  · simp only [hr, if_false]

/-- What a bundle of one slot that writes no control register and sets no loop leaves unchanged. -/
theorem PlainDone.executed {s t : State} {n : Tri} {e : SlotEff} (h : PlainDone s t n e) (hcr : e.cr = none) (hlp : e.lpset = none)
    {ds : List Dst} {ks : List Nat} (hg : ∀ w ∈ e.gw, w.1 = 0 ∨ Dst.g w.1 ∈ ds) (hf : ∀ w ∈ e.fw, Dst.f w.1 ∈ ds)
    (ha : ∀ w, e.aw = some w → Dst.acc w.1 ∈ ds) (hdz : 0 ∈ ks ∨ e.dzSet = false ∧ e.dzClr = false) (hff : 1 ∈ ks ∨ e.fflags = 0)
    (hfx : 2 ∈ ks ∨ e.aov = false ∧ e.sat = false) : Executed s t n ds ks := by
  obtain ⟨w1, w2, w3, w4, w5⟩ := writeAll_frame (s.lp n).arch e (s.lpSealed n)
  obtain ⟨pc, npc, d, hc, -, hbr⟩ := commitArch_one (s.lp n).arch (s.lpSealed n) hcr hlp
  have hnb : (t.lp n).arch.delay = false → e.branch = none := by
    intro hd
    cases hb : e.branch with
    | none => rfl
    | some x =>
      obtain ⟨-, -, rfl⟩ := hbr x.1 x.2 hb
      rw [h.arch, hc] at hd
      exact absurd hd (by simp [Arch.settled])
  have hpl : ((t.lp n).arch).pl = (s.lp n).arch.pl := by
    rw [h.arch, hc]
    show bits (flagDz _ _ _) 1 0 = bits _ 1 0
    unfold flagDz
    repeat (first | rfl | (exact bits_putBits_other _ (by decide) (by decide) (by decide) _) | split)
  refine ⟨⟨⟨?_, ?_, ?_⟩, ⟨?_, ?_, ?_, ?_⟩, h.work.others, h.work.reg⟩, fun hw hd a => (h.data (hnb hd) hw).byte a⟩
  · intro r hr hd
    have hraw : (t.lp n).arch.rawG r = ((s.lp n).arch.writeAll [e] []).rawG r := by
      have hp' : ((s.lp n).arch.writeAll [e] []).pl = (s.lp n).arch.pl := by simp only [Arch.pl, w1.psw]
      unfold Arch.rawG
      rw [hpl, hp', h.arch, hc]
      rfl
    rw [hraw]
    refine w2 r hr (hd.elim .inl fun hd => ?_)
    by_cases hr0 : r = 0
    · exact .inl hr0
    · right; rintro w hw rfl; rcases hg w hw with h0 | h0
      · exact hr0 h0
      · exact hd h0
  · intro i hi
    rw [h.arch, hc]
    exact w3 i fun w hw he => hi (he ▸ hf w hw)
  · intro i hi
    rw [h.arch, hc]
    exact w4 i fun w hw he => hi (he ▸ ha w hw)
  · intro k hk h63 hl
    rw [h.arch, hc, cr_settled]
    · refine w5 k fun ⟨w, hw, he⟩ => ?_
      rcases hg w hw with h0 | h0
      · omega
      · exact h63 (he ▸ h0)
    · rintro rfl
      rcases hdz with hz | ⟨hz1, hz2⟩
      · exact absurd hz hk
      · rw [w1.psw]; simp [flagDz, hz1, hz2]
    · rintro rfl
      rcases hff with hz | hz
      · exact absurd hz hk
      · rw [w1.fcsr]; simp [flagF, hz]
    · rintro rfl
      rcases hfx with hz | ⟨hz1, hz2⟩
      · exact absurd hz hk
      · rw [w1.fxcsr]; simp [flagFx, hz1, hz2]
    · rw [w1.lct]
      cases hle : isLoopEnd (s.lp n).arch
      · left; rw [endAction_plain hle]
      · right; exact hl hle
  · rw [h.arch, hc]; exact w1.nmt
  · rw [h.arch, hc]; exact w1.esc
  · rw [h.arch, hc]; exact w1.locked

/-- Its successor. -/
theorem PlainDone.sequential {s t : State} {n : Tri} {e : SlotEff} (h : PlainDone s t n e) (hcr : e.cr = none) (hlp : e.lpset = none)
    (hb : e.branch = none) : Sequential (s.lp n).arch (t.lp n).arch := by
  intro hl
  obtain ⟨pc, npc, d, hc, hn, -⟩ := commitArch_one (s.lp n).arch (s.lpSealed n) hcr hlp
  obtain ⟨rfl, rfl, rfl⟩ := hn hb
  rw [h.arch, hc, endAction_plain hl]
  exact ⟨rfl, rfl, rfl⟩

/-- Its delay bundle and target, for a branch (04 R99, R100). -/
theorem PlainDone.branched {s t : State} {n : Tri} {e : SlotEff} (h : PlainDone s t n e) (hcr : e.cr = none) (hlp : e.lpset = none)
    {k : BrKind} {w : Word} (hb : e.branch = some (k, w)) :
    (t.lp n).arch.pc = (s.lp n).arch.npc ∧ (t.lp n).arch.npc = w ∧ (t.lp n).arch.delay = true := by
  obtain ⟨pc, npc, d, hc, -, hn⟩ := commitArch_one (s.lp n).arch (s.lpSealed n) hcr hlp
  obtain ⟨rfl, rfl, rfl⟩ := hn k w hb
  rw [h.arch, hc]
  exact ⟨rfl, rfl, rfl⟩

/-- Its flags. -/
theorem PlainDone.flags {s t : State} {n : Tri} {e : SlotEff} (h : PlainDone s t n e) (hcr : e.cr = none) (hlp : e.lpset = none) :
    (t.lp n).arch.psw = flagDz (s.lp n).arch.psw e.dzSet e.dzClr ∧ (t.lp n).arch.fcsr = flagF (s.lp n).arch.fcsr e.fflags ∧
    (t.lp n).arch.fxcsr = flagFx (s.lp n).arch.fxcsr e.aov e.sat := by
  obtain ⟨pc, npc, d, hc, -, -⟩ := commitArch_one (s.lp n).arch (s.lpSealed n) hcr hlp
  rw [h.arch, hc]
  exact ⟨rfl, rfl, rfl⟩

/-- No shadow hides a register that a bundle has written. -/
theorem shadow_written {a : Arch} {ws : List Dst} {isF : Bool} {i : Nat} (h : ws.any (dstIs isF i)) :
    (shadowsAfter a ws []).find? (fun x => x.isF = isF && x.idx = i) = none := by
  rw [List.find?_eq_none]
  intro x hx
  unfold shadowsAfter at hx
  simp only [List.map_nil, List.append_nil, List.filterMap_nil, List.mem_map, List.mem_filter] at hx
  obtain ⟨y, ⟨-, hy⟩, rfl⟩ := hx
  intro hc
  simp only [Bool.and_eq_true, decide_eq_true_eq] at hc
  obtain ⟨h1, h2⟩ := hc
  subst h1; subst h2
  simp [h] at hy

/-- The general register that a slot alone writes. -/
theorem PlainDone.g_value {s t : State} {n : Tri} {e : SlotEff} (h : PlainDone s t n e) (hcr : e.cr = none) (hlp : e.lpset = none)
    {rd : Nat} {v : Word} (hg : e.gw = [(rd, v)]) (hr : rd < 64) (h0 : rd ≠ 0) : (t.lp n).arch.rdG rd = v := by
  obtain ⟨pc, npc, d, hc, -, -⟩ := commitArch_one (s.lp n).arch (s.lpSealed n) hcr hlp
  obtain ⟨w1, -, -, -, -⟩ := writeAll_frame (s.lp n).arch e (s.lpSealed n)
  have hsh : (t.lp n).arch.shadow false rd = none := by
    rw [h.arch, hc]
    refine shadow_written ?_
    simp [writtenDsts, hg, h0, dstIs]
  unfold Arch.rdG
  rw [hsh]
  have hw : ((s.lp n).arch.writeAll [e] []).rawG rd = v := by
    unfold Arch.writeAll
    simp only [List.foldl_cons, List.foldl_nil, hg]
    have key : ((s.lp n).arch.wrG rd v).rawG rd = v := by rw [rawG_wrG _ hr hr]; simp [h0]
    have hf : ∀ (ws : List (Nat × Word)) (b : Arch), (ws.foldl (fun b w => b.wrF w.1 w.2) b).rawG rd = b.rawG rd := by
      intro ws; induction ws with
      | nil => intro b; rfl
      | cons w ws ih => intro b; rw [List.foldl_cons, ih, rawG_wrF]
    cases e.aw with
    | none => dsimp only; rw [hf]; exact key
    | some w => dsimp only; rw [rawG_wrAcc, hf]; exact key
  dsimp only
  rw [← hw]
  have hpl : ((t.lp n).arch).pl = ((s.lp n).arch.writeAll [e] []).pl := by
    rw [h.arch, hc]
    show bits (flagDz _ _ _) 1 0 = bits _ 1 0
    rw [w1.psw]
    unfold flagDz
    repeat (first | rfl | (exact bits_putBits_other _ (by decide) (by decide) (by decide) _) | split)
  unfold Arch.rawG
  rw [hpl, h.arch, hc]
  rfl

/-- The floating-point register that a slot alone writes. -/
theorem PlainDone.f_value {s t : State} {n : Tri} {e : SlotEff} (h : PlainDone s t n e) (hcr : e.cr = none) (hlp : e.lpset = none)
    {fd : Nat} {v : Word} (hg : e.fw = [(fd, v)]) (hr : fd < 32) : (t.lp n).arch.rdF fd = v := by
  obtain ⟨pc, npc, d, hc, -, -⟩ := commitArch_one (s.lp n).arch (s.lpSealed n) hcr hlp
  have hsh : (t.lp n).arch.shadow true fd = none := by
    rw [h.arch, hc]
    refine shadow_written ?_
    simp [writtenDsts, hg, dstIs]
  unfold Arch.rdF
  rw [hsh]
  dsimp only
  rw [h.arch, hc]
  show ((s.lp n).arch.writeAll [e] []).rawF fd = v
  unfold Arch.writeAll
  simp only [List.foldl_cons, List.foldl_nil, hg]
  cases e.aw with
  | none => dsimp only; rw [rawF_wrF _ hr]; simp
  | some w => dsimp only; simp only [Arch.rawF, wrAcc_f]; exact (rawF_wrF _ hr fd v).trans (if_pos rfl)

/-- The accumulator that a slot writes. -/
theorem PlainDone.acc_value {s t : State} {n : Tri} {e : SlotEff} (h : PlainDone s t n e) (hcr : e.cr = none) (hlp : e.lpset = none)
    {i : Nat} {v : Acc} (hg : e.aw = some (i, v)) (hr : i < 4) : (t.lp n).arch.rdAcc i = v := by
  obtain ⟨pc, npc, d, hc, -, -⟩ := commitArch_one (s.lp n).arch (s.lpSealed n) hcr hlp
  rw [h.arch, hc]
  show ((s.lp n).arch.writeAll [e] []).rdAcc i = v
  unfold Arch.writeAll
  simp only [List.foldl_cons, List.foldl_nil, hg]
  rw [rdAcc_wrAcc _ hr]; simp

/-! ### Whole commands -/

/-- A slot that does nothing but write registers, set sticky flags and take time. -/
structure QuietSlot (e : SlotEff) : Prop where
  valid : e.reserved = false
  noFault : e.fault = none
  short : e.group ≠ .long
  noMem : e.mem = none
  noLong : e.long = none
  noSys : e.sys = .none
  noMode : e.modeChg = false
  noBranch : e.branch = none
  noLoop : e.lpset = none
  noCr : e.cr = none

/-- The command of such a slot, where its group is accepted. -/
theorem stage_quiet {s : State} {at_ : Issue} (h : Ready s at_.lp) (hl : at_.last = true) {mk : SlotCtx → SlotEff}
    (hq : QuietSlot (mk (s.slotCtx at_.lp))) (ha : slotAccepts at_.slot.val (mk (s.slotCtx at_.lp)).group = true) :
    PlainDone s (s.stage at_ mk).settle at_.lp (s.slotOf at_ mk) := by
  refine stage_plain h hl ⟨hq.valid, hq.noFault, ha, hq.short, hq.noMem, hq.noLong, .inl hq.noSys, fun hm => ?_, fun hb => ?_⟩ hq.noSys
  · have := hq.noMode; simp_all [State.slotOf]
  · have := hq.noBranch; simp_all [State.slotOf]

/-- Such a command that writes one general register alone. -/
theorem stage_g {s : State} {at_ : Issue} (h : Ready s at_.lp) (hl : at_.last = true) {mk : SlotCtx → SlotEff} {rd : Reg} {v : Word}
    (hq : QuietSlot (mk (s.slotCtx at_.lp))) (ha : slotAccepts at_.slot.val (mk (s.slotCtx at_.lp)).group = true) {ks : List Nat}
    (hg : (mk (s.slotCtx at_.lp)).gw = [(rd.toNat, v)]) (hf : (mk (s.slotCtx at_.lp)).fw = []) (haw : (mk (s.slotCtx at_.lp)).aw = none)
    (hdz : 0 ∈ ks ∨ (mk (s.slotCtx at_.lp)).dzSet = false ∧ (mk (s.slotCtx at_.lp)).dzClr = false)
    (hff : 1 ∈ ks ∨ (mk (s.slotCtx at_.lp)).fflags = 0)
    (hfx : 2 ∈ ks ∨ (mk (s.slotCtx at_.lp)).aov = false ∧ (mk (s.slotCtx at_.lp)).sat = false) :
    Executed s (s.stage at_ mk).settle at_.lp [.g rd.toNat] ks ∧
    Sequential (s.lp at_.lp).arch ((s.stage at_ mk).settle.lp at_.lp).arch ∧
    (rd ≠ 0 → ((s.stage at_ mk).settle.lp at_.lp).arch.rdG rd.toNat = v) ∧
    ((s.stage at_ mk).settle.lp at_.lp).arch.psw =
      flagDz (s.lp at_.lp).arch.psw (mk (s.slotCtx at_.lp)).dzSet (mk (s.slotCtx at_.lp)).dzClr ∧
    ((s.stage at_ mk).settle.lp at_.lp).arch.fcsr = flagF (s.lp at_.lp).arch.fcsr (mk (s.slotCtx at_.lp)).fflags ∧
    ((s.stage at_ mk).settle.lp at_.lp).arch.fxcsr =
      flagFx (s.lp at_.lp).arch.fxcsr (mk (s.slotCtx at_.lp)).aov (mk (s.slotCtx at_.lp)).sat := by
  have hd := stage_quiet h hl hq ha
  refine ⟨hd.executed hq.noCr hq.noLoop ?_ ?_ ?_ hdz hff hfx, hd.sequential hq.noCr hq.noLoop hq.noBranch,
    fun h0 => hd.g_value hq.noCr hq.noLoop hg rd.isLt ?_, hd.flags hq.noCr hq.noLoop⟩
  · intro w hw
    have : w ∈ [(rd.toNat, v)] := hg ▸ hw
    simp only [List.mem_singleton] at this; subst this; right; simp
  · intro w hw
    have : w ∈ ([] : List (Nat × Word)) := hf ▸ hw
    simp at this
  · intro w hw
    have : none = some w := haw ▸ hw
    simp at this
  · intro hz; exact h0 (BitVec.eq_of_toNat_eq (by simpa using hz))

end Sys2Proof.Machine
end

