-- ==== Sys2Proof/Laws/Sequencer.lean ====
section
/-! SUPPORT. What the sequencer of the control store can do (16 R427 to R431): the next address by SEQ, the micro-stack, the conditions of
a word, and the redirection of ROM addresses. -/

namespace Sys2Proof.Machine
open Sys2Proof

/-! ### Next address (16 R427) -/

variable {u v : Useq} {w c a : Nat}

/-- An assigned next address is taken with its stack. -/
theorem ucGo_of_lt {st : List Nat} (h : a < 0x4400) : ucGo a st = .go { addr := a, stack := st } := by simp [ucGo, ucAssigned, h]

/-- Whatever goes on stands at an assigned address. -/
theorem ucGo_go {st : List Nat} (h : ucGo a st = .go v) : v = { addr := a, stack := st } ∧ a < 0x4400 := by
  unfold ucGo at h
  split at h
  · exact ⟨(UcStep.go.inj h).symm, of_decide_eq_true ‹_›⟩
  · cases h

/-- CONT goes to A + 1, and is an error at the end of either store. -/
theorem next_cont (h : ucSeq w = 0) (ha : u.addr < 0x4400) :
    u.next w c = if u.addr = 0x3FFF ∨ u.addr = 0x43FF then .error else .go { u with addr := u.addr + 1 } := by
  simp only [Useq.next, h, ucCont]
  split
  · rfl
  · exact ucGo_of_lt (by omega)

theorem next_jump (h : ucSeq w = 1) : u.next w c = ucGo (ucNext w) u.stack := by simp only [Useq.next, h]
theorem next_branch (h : ucSeq w = 2) : u.next w c = ucGo (ucNext w ||| c) u.stack := by simp only [Useq.next, h]
/-- CALL pushes A + 1; with four entries it is an error. -/
theorem next_call (h : ucSeq w = 3) :
    u.next w c = if 4 ≤ u.stack.length then .error else ucGo (ucNext w ||| c) ((u.addr + 1) :: u.stack) := by simp only [Useq.next, h]
theorem next_ret_nil (h : ucSeq w = 4) (hs : u.stack = []) : u.next w c = .error := by simp only [Useq.next, h, hs]
theorem next_ret_cons {st : List Nat} (h : ucSeq w = 4) (hs : u.stack = a :: st) : u.next w c = ucGo a st := by
  simp only [Useq.next, h, hs]
theorem next_end (h : ucSeq w = 5) : u.next w c = .done := by simp only [Useq.next, h]
/-- HOLD stays until bit 0 of c is 1. -/
theorem next_hold (h : ucSeq w = 6) : u.next w c = if c % 2 = 1 then ucGo (u.addr + 1) u.stack else .go u := by
  simp only [Useq.next, h]
theorem next_unused (h : ucSeq w = 7) : u.next w c = .error := by simp only [Useq.next, h]

/-- A BRANCH whose NEXT leaves the low bits to c goes to NEXT + c. -/
theorem next_dispatch (h : ucSeq w = 2) (hc : c < 16) (hn : ucNext w % 16 = 0) : u.next w c = ucGo (ucNext w + c) u.stack := by
  rw [next_branch h]
  congr 1
  obtain ⟨k, hk⟩ : ∃ k, ucNext w = 2 ^ 4 * k := ⟨ucNext w / 16, by omega⟩
  rw [hk, Nat.two_pow_add_eq_or_of_lt (by omega)]

/-- The RET that follows a CALL goes on after the CALL, with the stack that the CALL found. -/
theorem ret_after_call {w' c' : Nat} (h : ucSeq w = 3) (hv : u.next w c = .go v) (hr : ucSeq w' = 4) :
    v.next w' c' = ucGo (u.addr + 1) u.stack := by
  rw [next_call h] at hv
  split at hv
  · cases hv
  · exact next_ret_cons hr (by rw [(ucGo_go hv).1])

/-- The stack never holds more than four entries. -/
theorem next_stack (hu : u.stack.length ≤ 4) (hv : u.next w c = .go v) : v.stack.length ≤ 4 := by
  have step : ∀ {a st}, st.length ≤ 4 → ucGo a st = .go v → v.stack.length ≤ 4 := fun h e => by rw [(ucGo_go e).1]; exact h
  unfold Useq.next at hv
  split at hv
  · unfold ucCont at hv
    split at hv
    · cases hv
    · exact step hu hv
  · exact step hu hv
  · exact step hu hv
  · split at hv
    · cases hv
    · exact step (by simp only [List.length_cons]; omega) hv
  · split at hv
    · cases hv
    · rename_i hs; exact step (by simp only [hs, List.length_cons] at hu; omega) hv
  · cases hv
  · split at hv
    · exact step hu hv
    · cases hv; exact hu
  · cases hv

/-! ### Conditions (16 R428, R429) -/

/-- Bit k of c is the condition that selector Ck names. -/
theorem ucC_testBit (p : UcSample) (w k : Nat) (hk : k < 4) : (ucC p w).testBit k = ucCond p (ucUnit w) (ucSel w k) := by
  have h : ∀ b0 b1 b2 b3 : Bool, ∀ k < 4, (b2n b0 + 2 * b2n b1 + 4 * b2n b2 + 8 * b2n b3).testBit k = [b0, b1, b2, b3].getD k false := by
    decide
  unfold ucC
  rw [h _ _ _ _ k hk]
  match k, hk with
  | 0, _ => rfl
  | 1, _ => rfl
  | 2, _ => rfl
  | 3, _ => rfl

/-- c has four bits. -/
theorem ucC_lt (p : UcSample) (w : Nat) : ucC p w < 16 := by
  have h : ∀ b0 b1 b2 b3 : Bool, b2n b0 + 2 * b2n b1 + 4 * b2n b2 + 8 * b2n b3 < 16 := by decide
  exact h ..

/-- An event is not seen in a word that ends no unit. -/
theorem ucCond_event (p : UcSample) (unit : Bool) : ucCond p unit 6 = (unit && p.event) := rfl

/-! ### Redirection (16 R430, R431) -/

/-- Does match register m hold the ROM address? -/
def ucMatches (m a : Nat) : Bool := bit (w64 m) 63 && bits (w64 m) 23 10 = a

/-- Patch RAM addresses are never compared. -/
theorem ucRedirect_patch (ms : List Nat) (h : 0x4000 ≤ a) : ucRedirect ms a = a := by simp [ucRedirect, h]

/-- The lowest-numbered register that holds the address applies. -/
theorem ucRedirect_hit {m : Nat} {lo hi : List Nat} (h : a < 0x4000) (hm : ucMatches m a = true) (hlo : ∀ x ∈ lo, ucMatches x a = false) :
    ucRedirect (lo ++ m :: hi) a = 0x4000 + bits (w64 m) 9 0 := by
  have hf : (lo ++ m :: hi).find? (fun x => ucMatches x a) = some m := by
    rw [List.find?_append, List.find?_eq_none.mpr (fun x hx => by simp [hlo x hx])]
    simp [hm]
  simp only [ucRedirect, if_neg (Nat.not_le.mpr h)]
  exact (congrArg (fun r => match r with | some m => 0x4000 + bits (w64 m) 9 0 | none => a) hf : _)

/-- An address that no register holds is read from the ROM. -/
theorem ucRedirect_miss {ms : List Nat} (h : ∀ x ∈ ms, ucMatches x a = false) : ucRedirect ms a = a := by
  by_cases ha : 0x4000 ≤ a
  · exact ucRedirect_patch ms ha
  · have hf : ms.find? (fun x => ucMatches x a) = none := List.find?_eq_none.mpr fun x hx => by simp [h x hx]
    simp only [ucRedirect, if_neg ha]
    exact (congrArg (fun r => match r with | some m => 0x4000 + bits (w64 m) 9 0 | none => a) hf : _)

end Sys2Proof.Machine
end

