-- ==== Sys2Proof/Tests/Slice0.lean ====
section
/-! SUPPORT. Tests: an ill-formed term for each check of `Instr.wf`; states that meet the hypotheses of every statement; results of
single steps, calculated by hand from the rules that the comments cite. -/

namespace Sys2Proof.Tests
open Sys2Proof Sys2Proof.Machine Sys2Proof.Claims
set_option Elab.async false

/-! ### States -/

/-- A released module of one triad in mode TMR over 4 GiB behind link 0, LP 0 being f of one that stands at PC 0. The level-1 caches of its
cores hold the line of its bundle, the data lines from 0x1000 to 0x20FF, and translations at M of the lowest page. -/
def built (f : Lp → Lp) : State :=
  let s := { State.reset with kst := { State.reset.kst with phase := .released } }
  let s := s.setFld aMemMap 63 0 (2 ^ 63 + 1 * 2 ^ 40 + 2 ^ 16)
  let s := s.setFld (aMemLinkStatus 0) 2 0 2
  let s := s.setMode 0 1
  s.updLp 0 fun l => f (({ l with released := true }).cores fun c => { c with
    l1i := [(0, 1)], l1d := (List.range 34).map fun i => (4 * (32 + i), 33 + i), tlbI := [mEntry 0], tlbD := [mEntry 0] })

/-- As it is built. -/
def s0 : State := built id
/-- g2 and g3 of LP 0 set. -/
def withG (a b : Word) (s : State) : State := s.updArch 0 fun l => { l with g := (l.g.set 2 a).set 3 b }
/-- Registers set by hardware. -/
def withRegs (rs : List (Nat × Word)) (s : State) : State := rs.foldl (fun s r => s.setReg r.1 r.2) s
/-- A bundle of one instruction of LP 0 in slot k. -/
def at0 (k : Fin 4) : Issue := ⟨0, k, true⟩
/-- The state after a step that runs one command. -/
def after (i : Instr) (s : State) : State := match step { s with pending := [i] } with | .next t => t | _ => s
/-- Architectural state of LP 0 after it. -/
def arch (i : Instr) (s : State) : Arch := ((after i s).lp 0).arch

/-! ### Conditions as checks -/

/-- `Ready` as a check. -/
def readyB (s : State) (n : Tri) : Bool :=
  s.calm && s.issues n && (s.lp n).asm.isEmpty && (s.nextEvent n).isNone && !(s.lp n).waiting && !(s.lp n).flushNear && !(s.lp n).flushShared
    && (match s.fetchFault n with | .ok _ => true | .error _ => false) && !((s.lp n).arch.delay && isLoopEnd (s.lp n).arch)

theorem ready_of {s : State} {n : Tri} (h : readyB s n = true) : Ready s n := by
  simp only [readyB, Bool.and_eq_true, List.isEmpty_iff, Option.isNone_iff_eq_none, Bool.not_eq_true'] at h
  obtain ⟨⟨⟨⟨⟨⟨⟨⟨h1, h2⟩, h3⟩, h4⟩, h5⟩, h6⟩, h7⟩, h8⟩, h9⟩ := h
  refine ⟨h1, h2, h3, h4, h5, h6, h7, ?_, h9⟩
  cases hf : s.fetchFault n with
  | ok fa => exact ⟨fa, rfl⟩
  | error e => rw [hf] at h8; simp at h8

/-- `State.warm` as a check. -/
def warmB (s : State) (n : Tri) : Bool :=
  match s.fetchFault n with
  | .ok fa => fa.fills.all (fun f => decide (f = {})) &&
    (match fa.addrs.head? with | some b => decide ((s.lp n).lacking true (b / 128) = 0) | none => true)
  | .error _ => false

theorem warm_of {s : State} {n : Tri} (h : warmB s n = true) : s.warm n := by
  unfold warmB at h
  split at h
  · rename_i fa hf
    rw [Bool.and_eq_true, List.all_eq_true] at h
    refine ⟨fa, hf, fun f hm => of_decide_eq_true (h.1 f hm), fun b hb => ?_⟩
    have h2 := h.2
    rw [hb] at h2
    exact of_decide_eq_true h2
  · exact absurd h (by decide)

theorem soft_of {s : State} {src : Nat} (h : (!s.fcu.errHold && (match srcClass src with
    | some k => (match s.fcuTarget k with | some _ => decide (s.fcuLevel k (s.fld (aFcuSrcCfg src) 1 0) ≤ 1) | none => false)
    | none => false)) = true) : Soft s src := by
  rw [Bool.and_eq_true] at h
  obtain ⟨h1, h2⟩ := h
  refine ⟨by simpa using h1, ?_⟩
  split at h2
  · rename_i k hk
    split at h2
    · rename_i n hn
      exact ⟨k, n, hk, hn, of_decide_eq_true h2⟩
    · exact absurd h2 (by decide)
  · exact absurd h2 (by decide)

/-- Where no cache lists a line, none holds one twice. -/
theorem oneCopy_of {s : State} (h : ∀ m, (s.lp m).l2.ways = []) (h3 : ∀ d, (s.l3Of d).ways = []) (line : Nat) : OneCopy s line := by
  refine ⟨fun m j k a => absurd ?_ a, fun d j k a => absurd ?_ a⟩ <;> simp [Cache.pos, h, h3, smGet, noLine, CLine.empty]

/-! ### Witnesses: instructions -/

theorem ready0 : Ready s0 0 := ready_of (by decide +kernel)
theorem warm0 : s0.warm 0 := warm_of (by decide +kernel)

theorem wit_IntegerResults : ∃ s i at_ rd v, alu s i = some (at_, rd, v) ∧ Ready s at_.lp ∧ at_.last = true :=
  ⟨s0, .shI (at0 3) 1 2 191, _, _, _, rfl, ready0, rfl⟩
/-- The greatest shift has a result, and the next is an unassigned operand (02 R57, R58). -/
theorem test_shI_bound : (alu s0 (.shI (at0 0) 1 2 191)).isSome = true ∧ alu s0 (.shI (at0 0) 1 2 192) = none ∧
    unassigned (.shI (at0 0) 1 2 191) = false ∧ unassigned (.shI (at0 0) 1 2 192) = true := by decide +kernel
theorem wit_ConditionalMoves : (∃ s i at_ rd v, cmov s i = some (at_, rd, true, v) ∧ Ready s at_.lp ∧ at_.last = true) ∧
    ∃ s i at_ rd v, cmov s i = some (at_, rd, false, v) ∧ Ready s at_.lp ∧ at_.last = true :=
  ⟨⟨s0, .cmovZ (at0 0) 1 2 3, _, _, _, rfl, ready0, rfl⟩, s0, .cmovNz (at0 0) 1 2 3, _, _, _, rfl, ready0, rfl⟩
theorem wit_DivideResults : (∃ s i at_ rd v, divide s i = some (at_, rd, 0, v) ∧ Ready s at_.lp ∧ at_.last = true ∧ bit (s.lp at_.lp).arch.psw 17 = false) ∧
    ∃ s i at_ rd b v, divide s i = some (at_, rd, b, v) ∧ Ready s at_.lp ∧ at_.last = true ∧ b ≠ 0 :=
  ⟨⟨s0, .div (at0 0) 1 2 3, _, _, _, rfl, ready0, rfl, by decide +kernel⟩,
    withG 7 1 s0, .remu (at0 0) 1 2 3, _, _, _, _, rfl, ready_of (by decide +kernel), rfl, by decide +kernel⟩
theorem wit_FieldResults : ∃ s i at_ rd b, fieldBit s i = some (at_, rd, b) ∧ Ready s at_.lp ∧ at_.last = true :=
  ⟨s0, .bfExts (at0 0) 1 2 63 63, _, _, _, rfl, ready0, rfl⟩
theorem wit_CountResults : ∃ s i at_ rd, (∃ P, countIs s 0 i = some (at_, rd, P)) ∧ Ready s at_.lp ∧ at_.last = true :=
  ⟨s0, .clz (at0 0) 1 2, _, _, ⟨_, rfl⟩, ready0, rfl⟩
theorem wit_ChecksumSteps : ∃ s i at_ rd v, checksum s i = some (at_, rd, v) ∧ Ready s at_.lp ∧ at_.last = true :=
  ⟨s0, .crcStep64 (at0 0) 1 2 3, _, _, _, rfl, ready0, rfl⟩
theorem wit_FloatResults : ∃ s i at_ dst fields v fl, floatOp s i = some (at_, dst, fields, v, fl) ∧ Ready s at_.lp ∧ at_.last = true ∧
    at_.slot = 3 ∧ ∀ r ∈ fields, r.toNat < 32 :=
  ⟨s0, .fadd (at0 3) true 31 0 1, _, _, _, _, _, rfl, ready0, rfl, rfl, by decide⟩
theorem wit_FloatRounding : ∃ s i at_ d fd fields x, exactOp s i = some (at_, d, fd, fields, x) ∧ Ready s at_.lp ∧ at_.last = true ∧
    at_.slot = 3 ∧ (∀ r ∈ fields, r.toNat < 32) ∧ rmode s at_ ≤ 4 :=
  ⟨s0, .fcvtFl (at0 3) true 31 2, _, _, _, _, _, rfl, ready0, rfl, rfl, by decide, by decide +kernel⟩
theorem wit_AccumulatorSums : ∃ s i at_ k v, accSum s i = some (at_, k, v) ∧ Ready s at_.lp ∧ at_.last = true ∧ at_.slot = 3 ∧ k.toNat < 4 :=
  ⟨s0, .macQ63 (at0 3) 3 2 3, _, _, _, rfl, ready0, rfl, rfl, by decide⟩
theorem wit_AccumulatorWrites : ∃ s i at_ k b, accPut s i = some (at_, k, b) ∧ Ready s at_.lp ∧ at_.last = true ∧ at_.slot = 3 ∧ k.toNat < 4 :=
  ⟨s0, .accWrh (at0 3) 3 2, _, _, _, rfl, ready0, rfl, rfl, by decide⟩
theorem wit_AccumulatorReads : ∃ s i at_ rd k b, accGet s i = some (at_, rd, k, b) ∧ Ready s at_.lp ∧ at_.last = true ∧ at_.slot = 3 ∧ k.toNat < 4 :=
  ⟨s0, .accRdh (at0 3) 1 3, _, _, _, _, rfl, ready0, rfl, rfl, by decide⟩
theorem wit_Extractions : ∃ s i at_ rd k q, extract i = some (at_, rd, k, q) ∧ Ready s at_.lp ∧ at_.last = true ∧ at_.slot = 3 ∧ k.toNat < 4 :=
  ⟨s0, .extQ63 (at0 3) 1 3, _, _, _, _, rfl, ready0, rfl, rfl, by decide⟩
theorem wit_Branches : ∃ s i at_ target link, branchOp s i = some (at_, target, link) ∧ Ready s at_.lp ∧ at_.last = true ∧ at_.slot = 0 ∧
    (s.lp at_.lp).arch.delay = false ∧ isLoopEnd (s.lp at_.lp).arch = false :=
  ⟨s0, .jmp (at0 0) 1 0x80000, _, _, _, rfl, ready0, rfl, rfl, by decide +kernel, by decide +kernel⟩

/-- The bundle at PC 0 is the end of loop level 2, in its last iteration or not. -/
def looping (n : Word) : State := s0.updArch 0 fun a => { a with lct := a.lct.set 2 n }
theorem wit_Loops : (∃ (s : State) (at_ : Issue) (level : BitVec 2) (e : BitVec 18), Ready s at_.lp ∧ at_.last = true ∧ at_.slot = 0 ∧ level ≠ 3 ∧ e ≠ 0 ∧
      isLoopEnd (s.lp at_.lp).arch = false) ∧
    (∀ n ∈ [(1 : Word), 2], Ready (looping n) 0 ∧ EndsHere ((looping n).lp 0).arch 2 ∧ Reaches ((looping n).lp 0).arch 2) :=
  ⟨⟨s0, at0 0, 2, 1, ready0, rfl, rfl, by decide, by decide, by decide +kernel⟩,
    by
      intro n hn
      have hr : Reaches ((looping n).lp 0).arch 2 := fun j h h' => by omega
      rcases List.mem_cons.1 hn with rfl | hn
      · exact ⟨ready_of (by decide +kernel), ⟨by decide +kernel, by decide +kernel⟩, hr⟩
      · obtain rfl := List.mem_singleton.1 hn
        exact ⟨ready_of (by decide +kernel), ⟨by decide +kernel, by decide +kernel⟩, hr⟩⟩
theorem wit_ControlRegisterReads : ∀ x ∈ [(0x0, 1, true), (0x10, 0, true), (0xC1, 3, false)], crRow x.1 = some x.2 ∧ x.2.1 ≤ (s0.lp 0).arch.pl := by
  decide +kernel
theorem wit_ControlRegisterWrites : (faultOf s0 (.mtcr (at0 0) 0 2)).isNone = true ∧ (faultOf s0 (.mtcr (at0 0) 0x23 2)).isNone = true ∧
    (faultOf s0 (.mtcr (at0 0) 0xC0 2)).isNone = true := by decide +kernel
theorem wit_slot0 : ∃ (s : State) (at_ : Issue), Ready s at_.lp ∧ at_.last = true ∧ at_.slot = 0 ∧ 1 ≤ (s.lp at_.lp).arch.pl ∧ (s.lp at_.lp).arch.shadow false 63 = none :=
  ⟨s0, at0 0, ready0, rfl, rfl, by decide +kernel, by decide +kernel⟩
theorem wit_BundlesCommitTogether : ∃ s i j ai aj ri rj vi vj, alu s i = some (ai, ri, vi) ∧ alu s j = some (aj, rj, vj) ∧ Ready s ai.lp ∧ aj.lp = ai.lp ∧
    ai.slot < aj.slot ∧ ai.last = false ∧ aj.last = true ∧ (ri ≠ rj ∨ ri = 0) :=
  ⟨s0, .add ⟨0, 0, false⟩ 2 3 3, .add (at0 3) 3 2 2, _, _, _, _, _, _, rfl, rfl, ready0, rfl, by decide, rfl, rfl, by decide⟩

/-! ### Witnesses: exceptions -/

/-- The access that a check gives, if it does. -/
def acOf (e : Except Flt Access) : Access :=
  match e with | .ok a => a | .error _ => { region := .mem, addrs := [], pers := false, fills := [], cycles := 0 }
/-- Does a check pass? -/
def passes (e : Except Flt Access) : Bool := match e with | .ok _ => true | .error _ => false
theorem ok_of {e : Except Flt Access} (h : passes e = true) : e = .ok (acOf e) := by
  cases e with
  | ok a => rfl
  | error f => simp [passes] at h

/-- The state in which the bundle at PC of LP n has been fetched. -/
def fetched (s : State) (n : Tri) : State :=
  ((s.updLp n fun l => { l with orderMode := (s.reg aHubOrderMode).toNat, retried := false }).fetchWork n { effs := [] } (acOf (s.fetchFault n))).1
/-- Does the fetch of LP 0's bundle pass and change nothing? -/
def stillB (s : State) : Bool := passes (s.fetchFault 0) && decide (fetched s 0 = s)
theorem fetched_of {s : State} (h : stillB s = true) : Fetched s s 0 := by
  simp only [stillB, Bool.and_eq_true, decide_eq_true_eq] at h
  exact ⟨_, ok_of h.1, h.2.symm⟩
/-- `Served` as a check. -/
def servedB (s : State) (n : Tri) (ac : Access) : Bool :=
  ac.fills.all (fun f => decide (f = {})) && ac.addrs.all fun a => decide ((s.lp n).lacking false (a / 128) = 0) && (s.lp n).comb.all fun c => decide (a / 128 ≠ c.line)
theorem served_of {s : State} {n : Tri} {ac : Access} (h : servedB s n ac = true) : Served s n ac := by
  simp only [servedB, Bool.and_eq_true, List.all_eq_true, decide_eq_true_eq] at h
  exact ⟨h.1, fun a ha => h.2 a ha⟩

/-- `CanEnter` as a check, with the frame address and the handler that it gives. -/
def frameAt (s : State) (n : Tri) (t : Nat) : Word := BitVec.ofNat 64 ((((s.lp n).arch.sp t).toNat - 256) / 64 * 64)
def tableAc (s : State) (n : Tri) (v t : Nat) : Except Flt Access :=
  s.access n t { kind := .load, va := (if t = plS then (s.lp n).arch.vtbS else (s.lp n).arch.vtbM) + BitVec.ofNat 64 (8 * v), size := 8 }
def lineAc (s : State) (n : Tri) (t : Nat) (fa : Word) (i : Nat) : Except Flt Access :=
  s.access n t { kind := .store, va := fa + BitVec.ofNat 64 (64 * i), size := 64 }
def handlerOf (s : State) (n : Tri) (v t : Nat) : Word := BitVec.ofNat 64 (leNat (s.ownBytes n [] (acOf (tableAc s n v t)).addrs))
def levelFor (s : State) (n : Tri) (v : Nat) : Nat :=
  if v < 32 then (if bit (s.lp n).arch.deleg v && decide ((s.lp n).arch.pl ≠ plM) then plS else plM)
  else if v < 48 then plM else if bit (s.lp n).arch.deleg (48 + v / 16) then plS else plM
def enterB (s : State) (n : Tri) (v t : Nat) : Bool :=
  decide (t = levelFor s n v) && decide (v < 32 → (s.lp n).arch.escIs = false) && decide (v = 14 ∨ v = 15 → bit (s.lp n).arch.psw 8 = false) &&
  decide (v < 32 → v ≠ 6 → v ≠ 7 → (s.lp n).arch.handlerFirst = false) && decide ((s.reg aHubOrderMode).toNat.testBit (if t = plM then 0 else bits (s.lp n).arch.part 5 0) = true → (s.lp n).unperformed false = false) &&
  decide (256 ≤ ((s.lp n).arch.sp t).toNat) &&
  ((List.range 4).all fun i => decide (passes (lineAc s n t (frameAt s n t) i) = true ∧ (acOf (lineAc s n t (frameAt s n t) i)).region = .mem ∧
    ∀ f ∈ (acOf (lineAc s n t (frameAt s n t) i)).fills, f = {})) && servedB s n (acOf (tableAc s n v t)) &&
  decide (passes (tableAc s n v t) = true ∧ (acOf (tableAc s n v t)).region = .mem ∧ s.consumesPoison n [] (acOf (tableAc s n v t)).addrs = false) &&
  decide (handlerOf s n v t ≠ 0 ∧ bits (handlerOf s n v t) 3 0 = 0)

theorem enter_of {s : State} {n : Tri} {v t : Nat} (h : enterB s n v t = true) : CanEnter s n v t (frameAt s n t) (handlerOf s n v t) := by
  simp only [enterB, Bool.and_eq_true, decide_eq_true_eq, List.all_eq_true, List.mem_range] at h
  obtain ⟨⟨⟨⟨⟨⟨⟨⟨⟨h1, h2⟩, h3⟩, h4⟩, ho⟩, h5⟩, h6⟩, hs⟩, h7⟩, h8⟩ := h
  exact ⟨h1, h2, h3, h4, ho, h5, rfl, fun i hi => ⟨_, ok_of (h6 i hi).1, (h6 i hi).2⟩, ⟨_, ok_of h7.1, h7.2.1, served_of hs, h7.2.2, rfl⟩, h8⟩

/-- LP 0 with a stack below 0x2000 at level M, non-maskable transfer cleared, and a vector table at 0x1000 whose every handler is at 0x4000. -/
def handled : State :=
  let s := s0.updArch 0 fun a => { a with spM := 0x2000, vtbM := 0x1000, psw := 0x0F000003 }
  { s with mem := (List.range 256).map fun v => (0x1001 + 8 * v, 0x40) }
theorem ready_handled : Ready handled 0 := ready_of (by decide +kernel)
theorem warm_handled : handled.warm 0 := warm_of (by decide +kernel)
theorem mem_handled : Memory.wf handled.mem = true := by decide +kernel

/-- The same at level U of partition 1, with the page at 0 in the TLB. -/
def user : State := (handled.updArch 0 fun a => { a with psw := 0x0F000000, part := 1 }).updLp 0 fun l => l.cores fun c => { c with
  tlbI := [{ part := 1, asid := 0, g := false, en := false, va := 0, lg := 16, leaf := 0, pra := 0, pmt := 0x61 }] }

/-- What a synchronous fault needs, as a check: it is the one of `faultOf`, and its vector can be taken. -/
def faults (s : State) (i : Instr) (v detail : Nat) (faddr : Word) : Bool :=
  match faultOf s i with
  | some (a, v', d, f) => decide (a.lp = 0 ∧ a.last = true ∧ v' = v ∧ d = detail ∧ f = faddr) && stillB s && enterB s 0 v (levelFor s 0 v)
  | none => false

/-- One for each case of `faultOf`: Reserved Instruction of an operand, of a missing and of a read-only control register; Illegal Bundle; Privilege
Violation in level U, and of a locked register; Divide by Zero; misaligned branch target; misaligned access, for 8 and 16 bytes; reserved PL. -/
theorem wit_SynchronousFaults : Ready handled 0 ∧
    faults handled (.shI (at0 0) 1 2 192) 1 0 0 = true ∧ faults handled (.mfcr (at0 0) 1 0x1B) 1 0 0 = true ∧
    faults handled (.mtcr (at0 0) 0x30 1) 1 0 0 = true ∧ faults handled (.eret (at0 1)) 0 1 0 = true ∧
    faults user (.eret (at0 0)) 2 0 0 = true ∧
    faults (handled.updArch 0 fun a => { a with escLocked := true }) (.mtcr (at0 0) 0x23 1) 2 0 0 = true ∧
    faults (handled.updArch 0 fun a => { a with psw := 0x0F020003 }) (.div (at0 0) 1 2 3) 5 0 0 = true ∧
    faults (withG 8 0 handled) (.jr (at0 0) 1 2) 3 0 8 = true ∧ faults (withG 4 0 handled) (.ldNtD (at0 1) 1 2 3) 4 0 4 = true ∧
    faults (withG 8 0 handled) (.casQ (at0 1) 4 2 6) 4 0 8 = true ∧ faults (withG 2 0 handled) (.mtcr (at0 0) 0 2) 1 0 0 = true := by
  refine ⟨ready_handled, ?_⟩
  decide +kernel
theorem ready_user : Ready user 0 := ready_of (by decide +kernel)

theorem wit_MisplacedBranches : ∀ s ∈ [handled.updArch 0 fun a => { a with delay := true }, handled.updArch 0 fun a => { a with lct := a.lct.set 0 2 }],
    Ready s 0 ∧ (branchOp s (.jmp (at0 0) 1 4)).isSome = true ∧ (branchCase (s.lp 0).arch).isSome = true ∧ stillB s = true ∧ enterB s 0 0 3 = true := by
  intro s h
  rcases List.mem_cons.1 h with rfl | h
  · exact ⟨ready_of (by decide +kernel), by decide +kernel⟩
  · obtain rfl := List.mem_singleton.1 h
    exact ⟨ready_of (by decide +kernel), by decide +kernel⟩
theorem wit_SystemTraps : Ready handled 0 ∧ Fetched handled handled 0 ∧ isLoopEnd (handled.lp 0).arch = false ∧
    (∃ l fa h, CanEnter handled 0 6 l fa h) ∧ ∃ l fa h, CanEnter handled 0 7 l fa h :=
  ⟨ready_handled, fetched_of (by decide +kernel), by decide +kernel, ⟨3, _, _, enter_of (by decide +kernel)⟩, 3, _, _, enter_of (by decide +kernel)⟩

/-- The four lines of the frame at the stack pointer of LP 0. -/
def frameLines (s : State) : List Access := (List.range 4).map fun i =>
  acOf (s.access 0 (s.lp 0).arch.pl { kind := .load, va := (s.lp 0).arch.sp (s.lp 0).arch.pl + BitVec.ofNat 64 (64 * i), size := 64 })
theorem wit_ExceptionReturns : Ready handled 0 ∧ Fetched handled handled 0 ∧ handled.warm 0 ∧ (handled.lp 0).arch.pl = 3 ∧
    ¬(handled.ordered 0 = true ∧ (handled.lp 0).unperformed false = true) ∧ (frameLines handled).length = 4 ∧
    (∀ i, i < 4 → passes (handled.access 0 3 { kind := .load, va := (handled.lp 0).arch.rdG 63 + BitVec.ofNat 64 (64 * i), size := 64 }) = true) ∧
    (∀ ac ∈ frameLines handled, ac.region = .mem ∧ servedB handled 0 ac = true ∧ handled.consumesPoison 0 [] ac.addrs = false) ∧
    (let ws := dword (handled.ownBytes 0 [] ((frameLines handled).flatMap (·.addrs)))
     ws 0 % 4 ≠ 2 ∧ ws 1 % 16 = 0 ∧ ws 2 % 16 = 0) :=
  ⟨ready_handled, fetched_of (by decide +kernel), warm_handled, by decide +kernel, by decide +kernel, by decide +kernel, by decide +kernel,
    by decide +kernel, by decide +kernel⟩

/-! ### Witnesses: memory -/

/-- The access of LP 0 at level M, its bundle fetched. -/
def acs (s : State) (r : AccReq) : Access := acOf (s.access 0 (s.lp 0).arch.pl r)
/-- `Served` and `Apart` for an access to memory, as a check. -/
def quietB (s : State) (r : AccReq) : Bool :=
  stillB s && passes (s.access 0 (s.lp 0).arch.pl r) && decide ((acs s r).region = .mem ∧ (acs s r).addrs.Nodup) &&
    servedB s 0 (acs s r) && decide (∀ c ∈ (s.lp 0).comb, ∀ a ∈ (acs s r).addrs, a / 128 ≠ c.line) && !s.consumesPoison 0 [] (acs s r).addrs
/-- What a memory statement asks of an access. -/
structure Good (s : State) (r : AccReq) : Prop where
  fetch : Fetched s s 0
  ok : s.access 0 (s.lp 0).arch.pl r = .ok (acs s r)
  mem : (acs s r).region = .mem
  nodup : (acs s r).addrs.Nodup
  quiet : Quiet s 0 (acs s r)
  apart : Apart s 0 (acs s r).addrs
  clean : s.consumesPoison 0 [] (acs s r).addrs = false
theorem good_of {s : State} {r : AccReq} (w : s.warm 0) (h : quietB s r = true) : Good s r := by
  simp only [quietB, Bool.and_eq_true, decide_eq_true_eq, Bool.not_eq_true'] at h
  obtain ⟨⟨⟨⟨⟨h0, h1⟩, h2⟩, h3⟩, h4⟩, h5⟩ := h
  exact ⟨fetched_of h0, ok_of h1, h2.1, h2.2, ⟨w, served_of h3⟩, h4, h5⟩

/-- A load that crosses a line. -/
theorem wit_Loads : ∃ s v i at_ dst va size al signed ac, loadOp s i = some (at_, dst, va, size, signed, al) ∧ Ready s at_.lp ∧ at_.last = true ∧
    (at_.slot = 1 ∨ at_.slot = 2) ∧ unassigned i = false ∧ Fetched s v at_.lp ∧
    v.access at_.lp (s.lp at_.lp).arch.pl { kind := .load, va := va, size := size, align := al } = .ok ac ∧ ac.region = .mem ∧ Quiet s at_.lp ac ∧
    Apart v at_.lp ac.addrs ∧ v.consumesPoison at_.lp [] ac.addrs = false ∧ ¬(v.ordered at_.lp = true ∧ (v.lp at_.lp).unperformed false = true) := by
  have h := good_of (s := withG 0x1080 0 s0)
    (r := { kind := .load, va := g (withG 0x1080 0 s0) (at0 2) 2 + (0x3FFF : BitVec 14).signExtend 64, size := 8, align := 1 })
    (warm_of (by decide +kernel)) (by decide +kernel)
  exact ⟨withG 0x1080 0 s0, _, .ldD (at0 2) 63 2 0x3FFF, at0 2, _, _, _, _, _, _, rfl, ready_of (by decide +kernel), rfl, .inr rfl, rfl, h.fetch, h.ok,
    h.mem, h.quiet, h.apart, h.clean, by decide +kernel⟩
theorem wit_LoadShadowsRunDown : ∃ s i at_ rd v h r, alu s i = some (at_, rd, v) ∧ Ready s at_.lp ∧ at_.last = true ∧ rd.toNat ≠ r ∧ 1 ≤ r ∧ r < 64 ∧
    (s.lp at_.lp).arch.shadows.filter (fun x => !x.isF && x.idx = r) = [h] :=
  ⟨s0.updArch 0 fun a => { a with shadows := [{ isF := false, idx := 63, old := 5, remain := 1 }] }, .add (at0 0) 1 2 3, at0 0, 1, _, _, 63, rfl,
    ready_of (by decide +kernel), rfl, by decide, by decide, by decide, rfl⟩
theorem wit_Stores : ∃ s v i at_ va size al data ac, storeOp s i = some (at_, va, size, data, al) ∧ Ready s at_.lp ∧ at_.last = true ∧
    (at_.slot = 1 ∨ at_.slot = 2) ∧ unassigned i = false ∧ Fetched s v at_.lp ∧
    v.access at_.lp (s.lp at_.lp).arch.pl { kind := .store, va := va, size := size, align := al } = .ok ac ∧ ac.region = .mem ∧ ac.addrs.Nodup ∧
    Quiet s at_.lp ac ∧ Apart v at_.lp ac.addrs ∧ (s.lp at_.lp).fenced = false ∧ Unheld s at_.lp := by
  have h := good_of (s := withG 0x1008 0 s0)
    (r := { kind := .store, va := g (withG 0x1008 0 s0) (at0 1) 2 + g (withG 0x1008 0 s0) (at0 1) 3, size := 8, align := 8 })
    (warm_of (by decide +kernel)) (by decide +kernel)
  exact ⟨withG 0x1008 0 s0, _, .stNtD (at0 1) 5 2 3, at0 1, _, _, _, _, _, rfl, ready_of (by decide +kernel), rfl, .inl rfl, rfl, h.fetch, h.ok, h.mem,
    h.nodup, h.quiet, h.apart, by decide +kernel, by unfold Unheld; decide +kernel⟩

/-- LP 0 holds the line at 0x2000 modified, at the first way of its set. -/
def owning (s : State) : State :=
  s.updLp 0 fun l => { l with l2 := { ways := [(1024, { st := .m, line := 64, data := 0, pend := false, stored := false, poison := 0, pers := false })], tree := [] } }
theorem owns_of {s : State} (h : (s.lp 0).l2Find 64 = some 1024 ∧ ((s.lp 0).l2.pos 1024).st = .m ∧ (s.lp 0).vbuf = [] ∧ ∀ m : Tri, m ≠ 0 → (s.lp m).hasLine 64 = false) :
    Owns s 0 64 := ⟨⟨1024, h.1, h.2.1⟩, by simp [h.2.2.1], h.2.2.2⟩
theorem owns0 : Owns (owning (withG 0x2000 0 s0)) 0 64 := owns_of (by decide +kernel)
/-- The compare-and-swap of the 16 bytes at 0x2000. -/
def casReq : AccReq := { kind := .rmw, va := g (owning (withG 0x2000 0 s0)) (at0 1) 2, size := 16, align := 16, atomic := true }

theorem wit_Atomics : ∃ s v i at_ va size rds new ac, atomicOp s i = some (at_, va, size, rds, new) ∧ Ready s at_.lp ∧ at_.last = true ∧
    (at_.slot = 1 ∨ at_.slot = 2) ∧ unassigned i = false ∧ Fetched s v at_.lp ∧
    v.access at_.lp (s.lp at_.lp).arch.pl { kind := .rmw, va := va, size := size, align := size, atomic := true } = .ok ac ∧ ac.region = .mem ∧
    Quiet s at_.lp ac ∧ ac.addrs.Nodup ∧ Drained s at_.lp ∧ Unheld s at_.lp ∧ (∀ a ∈ ac.addrs, v.badByte a = false ∧ v.memOk a = true) ∧
    ∀ a ∈ ac.addrs, Owns s at_.lp (a / 128) := by
  have q := good_of (s := owning (withG 0x2000 0 s0)) (r := casReq) (warm_of (by decide +kernel)) (by decide +kernel)
  have h : ∀ y ∈ (acs (owning (withG 0x2000 0 s0)) casReq).addrs, y / 128 = 64 := by decide +kernel
  exact ⟨owning (withG 0x2000 0 s0), _, .casQ (at0 1) 4 2 6, at0 1, _, _, _, _, _, rfl, ready_of (by decide +kernel), rfl, .inl rfl, rfl, q.fetch, q.ok,
    q.mem, q.quiet, q.nodup, ⟨by decide +kernel, by decide +kernel, by decide +kernel⟩, by unfold Unheld; decide +kernel,
    by decide +kernel, fun x hx => by rw [h x hx]; exact owns0⟩

theorem drained0 : Drained s0 0 := ⟨by decide +kernel, by decide +kernel, by decide +kernel⟩
/-- LP 0 with a store in its buffer. -/
def storing (k : StKind) (a : Nat) (bs : List Byte) : State :=
  s0.updLp 0 fun l => { l with storeBuf := [{ kind := k, addr := a, pers := false, part := 0, bytes := (List.range bs.length).map fun i => (a + i, bs.getD i 0) }] }
theorem wit_Barriers : (∃ (s : State) (at_ : Issue), Ready s at_.lp ∧ at_.last = true ∧ (at_.slot = 1 ∨ at_.slot = 2) ∧ Drained s at_.lp ∧ Unheld s at_.lp) ∧
    ∃ (s : State) (at_ : Issue), Ready s at_.lp ∧ at_.last = true ∧ (at_.slot = 1 ∨ at_.slot = 2) ∧ (s.lp at_.lp).unperformed true = true :=
  ⟨⟨s0, at0 1, ready0, rfl, .inl rfl, drained0, by unfold Unheld; decide +kernel⟩, storing .cache 0x2000 [1], at0 2, ready_of (by decide +kernel), rfl, .inr rfl,
    by decide +kernel⟩
/-- `handled` with a failed store of LP 0 recorded. -/
def failed : State := handled.setFld (aTrdAseStatus 0) 63 63 1
theorem wit_AsynchronousStoreErrors : ∃ l fa h, Ready failed 0 ∧ (failed.lp 0).unperformed true = false ∧ (failed.lp 0).comb = [] ∧
    bit (failed.reg (aTrdAseStatus 0)) 63 = true ∧ Fetched failed failed 0 ∧ CanEnter failed 0 14 l fa h :=
  ⟨3, _, _, ready_of (by decide +kernel), by decide +kernel, by decide +kernel, by decide +kernel, fetched_of (by decide +kernel),
    enter_of (by decide +kernel)⟩

/-- g2 to g4: destination 0x2000, source 0x1F00 and a length. -/
def units (n : Word) : State := (owning (withG 0x2000 0x1F00 s0)).updArch 0 fun a => { a with g := a.g.set 4 n }
/-- What the statements on block instructions ask of a state, as a check. -/
def unitsB (s : State) : Bool :=
  readyB s 0 && warmB s 0 && stillB s && decide ((s.lp 0).unperformed true = false ∧ (s.lp 0).comb = [] ∧ bit (s.reg (aTrdAseStatus 0)) 63 = false) &&
    decide (smGet (fun _ => none) s.cmp.lp 0 = none ∧ smGet (fun _ => none) s.cph.lp 0 = none)
theorem units_of {s : State} (h : unitsB s = true) : Ready s 0 ∧ s.warm 0 ∧ Fetched s s 0 ∧ Drained s 0 ∧ NoEngine s 0 := by
  simp only [unitsB, Bool.and_eq_true, decide_eq_true_eq] at h
  exact ⟨ready_of h.1.1.1.1, warm_of h.1.1.1.2, fetched_of h.1.1.2, h.1.2, h.2⟩
theorem units_0 : unitsB (units 0) = true := by decide +kernel
theorem units_256 : unitsB (units 256) = true := by decide +kernel
theorem units_300 : unitsB (units 300) = true := by decide +kernel
theorem wit_BlockUnits : unitsB (units 0) = true ∧ unitsB (units 256) = true ∧ unitsB (units 300) = true ∧
    (∀ i ∈ [Instr.blkMv (at0 1) 2 3 4 1, .blkCmp (at0 1) 2 3 4 1, .blkCrc32 (at0 1) 2 3 4 1, .blkCrc32c (at0 1) 2 3 4 1, .blkCrc64 (at0 1) 2 3 4 1],
      blockOp i = some (at0 1, 2, 3, 4, 1) ∧ unassigned i = false ∧ (blockKind i).isSome = true) :=
  ⟨units_0, units_256, units_300, by decide⟩
/-- A unit's access passes, over consecutive bytes of memory that the level-1 caches hold. -/
def unitB (k : AccKind) (va : Word) : Bool :=
  let e := (units 256).unitAccess 0 k va 256
  passes e && decide ((acOf e).addrs = (List.range 256).map fun i => va.toNat + i) && servedB (units 256) 0 (acOf e)
theorem unit_of {k : AccKind} {va : Word} (h : unitB k va = true) :
    ∃ ac, (units 256).unitAccess 0 k va 256 = .ok ac ∧ ac.addrs.Nodup ∧ Quiet (units 256) 0 ac := by
  simp only [unitB, Bool.and_eq_true, decide_eq_true_eq] at h
  obtain ⟨⟨h1, h2⟩, h3⟩ := h
  exact ⟨_, ok_of h1, h2 ▸ List.nodup_range.map (fun a b e => by omega), (units_of units_256).2.1, served_of h3⟩
theorem wit_BlockUnits_accesses : (∃ sa, (units 256).unitAccess 0 .load 0x1F00 256 = .ok sa ∧ sa.addrs.Nodup ∧ Quiet (units 256) 0 sa) ∧
    (∃ da, (units 256).unitAccess 0 .load 0x2000 256 = .ok da ∧ da.addrs.Nodup ∧ Quiet (units 256) 0 da) ∧
    ∃ da, (units 256).unitAccess 0 .store 0x2000 256 = .ok da ∧ da.addrs.Nodup ∧ Quiet (units 256) 0 da :=
  ⟨unit_of (by decide +kernel), unit_of (by decide +kernel), unit_of (by decide +kernel)⟩
theorem wit_EngineInstructionsEnd : Ready s0 0 ∧ unassigned (.cmpx (at0 1) 4 8 9 1) = false ∧ Drained s0 0 ∧ (s0.lp 0).records = [] ∧ NoEngine s0 0 ∧
    (s0.lp 0).arch.rdG 5 = 0 :=
  ⟨ready0, rfl, drained0, by decide +kernel, ⟨by decide +kernel, by decide +kernel⟩, by decide +kernel⟩

/-! ### Witnesses: compression units, caches and translation -/

/-- An LP in the middle of a decompression of a stored block of 1,000 bytes from 0x1000 to 0x2000. -/
def inflating : State :=
  let s := (owning s0).updArch 0 fun a => { a with g := (((a.g.set 4 0x1000).set 5 1000).set 6 0x2000).set 7 4096 }
  let x : LpCmp := { codec := .dec (Dec.start false 0), ctl := 0, limit := 0, ctx := 0, hist := 0, regs := [0x1000, 1000, 0x2000, 4096], engine := 0 }
  { s with mem := [(0x1000, 1), (0x1001, 0xE8), (0x1002, 3), (0x1003, 0x17), (0x1004, 0xFC)], cmp := { s.cmp with lp := [(0, some x)] } }
/-- The unit ends without an end of the request. -/
def moreB (r : Codec × Nat × List Byte × Stretch) : Bool := match r.2.2.2 with | .more => true | _ => false
/-- The effect that its bundle stages. -/
def effInfl : SlotEff := { effCmpx 4 8 9 1 (inflating.slotCtx 0) with slot := 1 }
theorem fetch_inflating : ((inflating.updLp 0 fun l => { l with asm := [effInfl], orderMode := (inflating.reg aHubOrderMode).toNat, retried := false }).fetchWork 0
    { effs := [effInfl] } (acOf (inflating.fetchFault 0))).1 = inflating.updLp 0 fun l => { l with asm := [effInfl] } := by decide +kernel
/-- What the unit needs, in a state where it works. -/
def unitRuns (v : State) : Bool :=
  match v.vRd 0 0x1000 256 with
  | .ok (u, bs) =>
    let r := (Codec.dec (Dec.start false 0)).work bs (1000 - 256) 4096 true 256
    moreB r && (match u.vWr 0 0x2000 r.2.2.1 with | .ok _ => true | .error _ => false)
  | .error _ => false
theorem wit_CompressionUnits : Ready inflating 0 ∧ inflating.fetchFault 0 = .ok (acOf (inflating.fetchFault 0)) ∧ unassigned (.cmpx (at0 1) 4 8 9 1) = false ∧
    Drained inflating 0 ∧ (inflating.lp 0).records = [] ∧ (∃ x, smGet (fun _ => none) inflating.cmp.lp 0 = some x ∧ x.codec = .dec (Dec.start false 0)) ∧
    smGet (fun _ => none) inflating.cph.lp 0 = none ∧ inflating.engineFull 0 { kind := .cmpx, rd := 4, ra := 8, rb := 9, budget := 1 } = false ∧
    unitRuns (atUnit inflating 0 effInfl 4 (acOf (inflating.fetchFault 0))) = true := by
  refine ⟨ready_of (by decide +kernel), ok_of (by decide +kernel), rfl, ⟨by decide +kernel, by decide +kernel, by decide +kernel⟩, by decide +kernel,
    ⟨_, rfl, rfl⟩, by decide +kernel, by decide +kernel, ?_⟩
  unfold atUnit
  rw [fetch_inflating]
  decide +kernel

/-- Where a maintenance operation acts. -/
def cmOf (e : Except Flt (Option Nat × XFill)) : Option (Option Nat × XFill) := match e with | .ok x => some x | .error _ => none
theorem cm_of {e : Except Flt (Option Nat × XFill)} {x : Option Nat × XFill} (h : cmOf e = some x) : e = .ok x := by
  cases e with
  | ok y => simp only [cmOf, Option.some.injEq] at h; rw [h]
  | error f => simp [cmOf] at h
theorem sole0 : SoleCopy (owning (withG 0x2000 0 s0)) 0 64 1024 := by
  refine ⟨by decide +kernel, fun j hj => .inl ?_, by decide +kernel, by decide +kernel, by decide +kernel⟩
  show (smGet noLine [(1024, _)] j).st = .i
  simp [smGet, hj, noLine, CLine.empty]
theorem wit_CacheLines : ∀ i ∈ [Instr.cmCl (at0 0) 0 2 0, .cmInv (at0 0) 0 2 0, .cmCli (at0 0) 0 2 0],
    ∃ act va, lineOp (owning (withG 0x2000 0 s0)) i = some (at0 0, act, va) ∧ Ready (owning (withG 0x2000 0 s0)) 0 ∧ (owning (withG 0x2000 0 s0)).warm 0 ∧
      unassigned i = false ∧ levelOf (owning (withG 0x2000 0 s0)) i ≤ ((owning (withG 0x2000 0 s0)).lp 0).arch.pl ∧ Drained (owning (withG 0x2000 0 s0)) 0 ∧
      Unheld (owning (withG 0x2000 0 s0)) 0 ∧
      (owning (withG 0x2000 0 s0)).cmXlat 0 (if act = .clean then .load else .store) va = .ok (some 0x2000, {}) := by
  have r : Ready (owning (withG 0x2000 0 s0)) 0 := ready_of (by decide +kernel)
  have w : (owning (withG 0x2000 0 s0)).warm 0 := warm_of (by decide +kernel)
  have d : Drained (owning (withG 0x2000 0 s0)) 0 := ⟨by decide +kernel, by decide +kernel, by decide +kernel⟩
  have u : Unheld (owning (withG 0x2000 0 s0)) 0 := by unfold Unheld; decide +kernel
  intro i h
  rcases List.mem_cons.1 h with rfl | h
  · exact ⟨_, _, rfl, r, w, rfl, by decide +kernel, d, u, cm_of (by decide +kernel)⟩
  · rcases List.mem_cons.1 h with rfl | h
    · exact ⟨_, _, rfl, r, w, rfl, by decide +kernel, d, u, cm_of (by decide +kernel)⟩
    · obtain rfl := List.mem_singleton.1 h
      exact ⟨_, _, rfl, r, w, rfl, by decide +kernel, d, u, cm_of (by decide +kernel)⟩
/-- g2 in the control space, whose page is in the TLB. -/
def toCtl : State := (withG 0xFFF0000000000 0 s0).updLp 0 fun l => l.cores fun c => { c with tlbD := [mEntry 0xFFF0000000000] }
theorem wit_CacheLines_control : ∃ va, lineOp toCtl (.cmCl (at0 0) 0 2 0) = some (at0 0, .clean, va) ∧
    toCtl.cmXlat 0 .load va = .ok (none, {}) := ⟨_, rfl, cm_of (by decide +kernel)⟩
theorem wit_CacheRanges : (Ready (withG 0x2000 0x2080 s0) 0 ∧ (withG 0x2000 0x2080 s0).warm 0 ∧ Drained (withG 0x2000 0x2080 s0) 0 ∧
      (∀ i ∈ [Instr.cmClR (at0 0) 1 2 3, .cmInvR (at0 0) 1 2 3, .cmCliR (at0 0) 1 2 3, .cmLkfill (at0 0) 1 2 3],
        (rangeOp (withG 0x2000 0x2080 s0) i).isSome = true ∧ levelOf (withG 0x2000 0x2080 s0) i ≤ 3) ∧
      ∃ x, (withG 0x2000 0x2080 s0).cmXlat 0 .store 0x2000 = .ok x) ∧ ∃ x, (withG 0x2000 0x2080 s0).cmXlat 0 .load 0x2000 = .ok x :=
  ⟨⟨ready_of (by decide +kernel), warm_of (by decide +kernel), ⟨by decide +kernel, by decide +kernel, by decide +kernel⟩, by decide +kernel,
    (some 0x2000, {}), cm_of (by decide +kernel)⟩, (some 0x2000, {}), cm_of (by decide +kernel)⟩
/-- Any address, those of the last position of each array and of the first that does not exist among them (07 R204). -/
theorem wit_CacheSetWay (v : Word) : Ready s0 0 ∧ s0.warm 0 ∧ (s0.lp 0).arch.pl = 3 ∧ Drained s0 0 ∧
    (setWayOp s0 (.cmClSw (at0 0) 0 2 0)).isSome = true ∧ (setWayOp (withG v 0 s0) (.cmInvSw (at0 0) 0 2 0)).isSome = true ∧
    (setWayOp (withG v 0 s0) (.cmCliSw (at0 0) 0 2 0)).isSome = true :=
  ⟨ready0, warm0, by decide +kernel, drained0, rfl, rfl, rfl⟩
theorem idle0 (m : Tri) (p : Nat) (hm : m ≠ 0) (_ : p ≠ 0) : s0.partBusy m p = false := by
  have h : ∀ m : Tri, m ≠ 0 → (s0.lp m).records = [] ∧ (s0.lp m).storeBuf = [] ∧ (s0.lp m).comb = [] ∧ (s0.lp m).devReq = none ∧ (s0.lp m).frozen = none := by
    decide +kernel
  obtain ⟨h1, h2, h3, h4, h5⟩ := h m hm
  simp [State.partBusy, h1, h2, h3, h4, h5]
theorem wit_TlbInvalidations : Ready s0 0 ∧ s0.warm 0 ∧ Drained s0 0 ∧ (s0.lp 0).devHold = [] ∧ (∀ m p, m ≠ 0 → p ≠ 0 → s0.partBusy m p = false) ∧
    ∀ i ∈ [Instr.tlbInvVa (at0 0) 0 2 3, .tlbInvAsid (at0 0) 0 2 0, .tlbInvAll (at0 0) 0 0 0, .tlbInvPra (at0 0) 0 2 3, .tlbInvPart (at0 0) 0 2 0],
      (tlbOp s0 i).isSome = true ∧ unassigned i = false ∧ levelOf s0 i ≤ (s0.lp 0).arch.pl := ⟨ready0, warm0, drained0, by decide +kernel, idle0, by decide +kernel⟩

/-! ### Witnesses: commands that are no instruction -/

/-- A command of a table whose conditions a state meets. -/
def Meets (base : State → Prop) (table : State → Instr → Option Event) (s : State) (i : Instr) : Prop := base s ∧ ∃ e, table s i = some e ∧ e.pre
theorem work0 : Working s0 := ⟨by decide +kernel, by decide +kernel⟩

/-- The event 33 is due, and can be entered. -/
def due33 : State := handled.setFld (aTrdIntPend 0 0) 33 33 1
theorem wit_exceptionEntry : Meets Working triadEvent due33 (.exceptionEntry 0) ∧ due33.nextEvent 0 = some (.vec 33) ∧ (∃ l fa h, CanEnter due33 0 33 l fa h) ∧
    Meets Working triadEvent s0 (.exceptionEntry 0) ∧ s0.nextEvent 0 = none :=
  ⟨⟨⟨by decide +kernel, by decide +kernel⟩, _, rfl, by decide +kernel⟩, by decide +kernel, ⟨3, _, _, enter_of (by decide +kernel)⟩,
    ⟨work0, _, rfl, by decide +kernel⟩, by decide +kernel⟩
/-- A record with one store waits for the voter. -/
def recorded : State := s0.updLp 0 fun l => { l with records := [{ post := { Arch.reset with pc := 16, npc := 32 }, stores :=
  [{ kind := .cache, addr := 0x2000, pers := false, part := 0, bytes := [(0x2000, 1)] }], writes := [.g 1], reads := [], held := [], evt := none }] }
theorem work_recorded : Working recorded := ⟨by decide +kernel, by decide +kernel⟩
theorem room_recorded : ∃ r rest, (recorded.lp 0).records = r :: rest ∧ (recorded.lp 0).roomFor r = true := ⟨_, _, rfl, by decide +kernel⟩
theorem tooMany0 (core : Nat) : recorded.tooMany 0 core = false := by
  have h : (recorded.lp 0).resyncs = [] := by decide +kernel
  simp [State.tooMany, h, smGet]
theorem wit_voterRelease : Meets Working triadEvent recorded (.voterRelease 0 .agree) ∧ Meets Working triadEvent recorded (.voterRelease 0 (.odd .third 1 1 [])) :=
  ⟨⟨work_recorded, _, rfl, by decide +kernel, by decide +kernel, by decide +kernel, by decide +kernel, by decide +kernel, room_recorded, trivial⟩,
    work_recorded, _, rfl, by decide +kernel, by decide +kernel, by decide +kernel, by decide +kernel, by decide +kernel, room_recorded,
    by decide +kernel, rfl, by decide +kernel, tooMany0, soft_of (by decide +kernel)⟩
/-- The same, with a second triad that takes the events of its class. -/
def recorded2 : State := (recorded.setMode 1 1).setFld (aFcuClassCfg 3) 28 24 1
theorem wit_instructionRetry : Meets Working triadEvent recorded (.instructionRetry 0 1 ⟨1, []⟩) ∧ Meets Working triadEvent recorded2 (.instructionRetry 0 1 ⟨1, [5]⟩) := by
  refine ⟨⟨work_recorded, _, rfl, by decide +kernel, by decide +kernel, by decide +kernel, by decide +kernel, by decide +kernel, by decide +kernel, by decide +kernel,
      fun _ => soft_of (by decide +kernel), fun h => absurd rfl h⟩,
    ⟨by decide +kernel, by decide +kernel⟩, _, rfl, by decide +kernel, by decide +kernel, by decide +kernel, by decide +kernel, by decide +kernel, by decide +kernel,
      by decide +kernel, fun h => absurd h (by decide), fun _ => ⟨soft_of (by decide +kernel), fun k hk => ?_⟩⟩
  have h : srcClass (16 * (0 : Tri).val + 7) = some 3 ∧ recorded2.fcuTarget 3 ≠ some 0 := by decide +kernel
  obtain rfl := Option.some.inj (h.1.symm.trans hk)
  exact h.2
/-- The target of a resynchronisation holds what the lead does. -/
def again (s : State) : Resync := { tgt := (s.lp 0).lead, touched := [], restart := false }
theorem wit_resyncFreeze : Meets Working triadEvent (s0.updLp 0 fun l => { l with recov := .resync 25 (again s0) }) (.resyncFreeze 0 [] false) :=
  ⟨⟨by decide +kernel, by decide +kernel⟩, _, rfl, by decide +kernel, rfl, 25, _, rfl, rfl, by decide⟩
theorem wit_spareSubstitution : Meets Working triadEvent ((s0.setMode 0 3).updLp 0 fun l => { l with recov := .subst 5 0 none }) (.spareSubstitution 0 true) :=
  ⟨⟨by decide +kernel, by decide +kernel⟩, _, rfl, rfl, by decide +kernel, 5, 0, by decide +kernel⟩
/-- A checkstopped triad of cores 0 to 2. -/
def stopped : State := withRegs [(aTrdState 0, 5 * 2 ^ 36 + 0x1F * 2 ^ 24 + 2 * 2 ^ 16 + 1 * 2 ^ 8)] s0
theorem wit_trdCtlRecover : Meets Working triadEvent stopped (.trdCtlRecover 0 []) :=
  ⟨⟨by decide +kernel, by decide +kernel⟩, _, rfl, by decide +kernel, by decide +kernel, by decide +kernel, rfl, 0, 1, 2, by decide +kernel⟩
theorem wit_trdCtlStart : Meets Working triadEvent (s0.setMode 0 6) (.trdCtlStart 0) ∧ Meets Working triadEvent ((s0.setMode 0 4).setFld (aTrdState 0) 30 30 1) (.trdCtlStart 0) :=
  ⟨⟨⟨by decide +kernel, by decide +kernel⟩, _, rfl, by decide +kernel⟩, ⟨by decide +kernel, by decide +kernel⟩, _, rfl, by decide +kernel⟩
theorem wit_trdVsDataAccess : ∀ v, Meets Working triadEvent s0 (.trdVsDataAccess 0 v) := by
  have h : s0.domState 0 ≠ 3 := by decide +kernel
  intro v
  cases v <;> exact ⟨work0, _, rfl, h⟩
theorem wit_flushes : Meets Working triadEvent s0 (.flushNear 0) ∧ Meets Working triadEvent s0 (.flushShared 0) ∧ Meets Working triadEvent s0 (.trdIntPendWrite 0 3 1) :=
  ⟨⟨work0, _, rfl, by decide +kernel⟩, ⟨work0, _, rfl, by decide +kernel⟩, work0, _, rfl, trivial⟩

/-- The tick runs. -/
def running (s : State) : State := { s with tick := { s.tick with running := true }, pwr := { s.pwr with todRun := true } }
def s1 : State := running s0
theorem work1 : Working s1 := ⟨by decide +kernel, by decide +kernel⟩
theorem plain_of {s : State} (h : (s.tick.running = true ∧ s.pwr.todRun = true) ∧ s.nextBoundary < 2 ^ 64 ∧ (∀ m : Tri, (s.lp m).frozen = none ∧ (s.lp m).entry = none ∧ (s.lp m).stopTick = false) ∧
    ∀ p, p ≤ 32 → s.sealed p = false ∧ bit (s.reg (aHubPartCfg p)) 63 = false) : PlainTick s := ⟨h.1, h.2.1, h.2.2.1, h.2.2.2⟩
theorem plain1 : PlainTick s1 := plain_of (by decide +kernel)
theorem nodev1 : NoDevice s1 := ⟨by decide +kernel, by decide +kernel⟩
theorem notlost1 : NotLost s1 := .inl (by decide +kernel)
theorem wit_tickBoundary : Meets Working tickEvent s1 .tickBoundary := ⟨work1, _, rfl, plain1, nodev1, notlost1⟩
/-- The quiet interval of class 2 ends at the next boundary. -/
def quiet2 : State := { s1 with fcu := { s1.fcu with quiet := [(2, some { ticks := 1, due := some 5120 })] } }
theorem wit_intervals : Meets Working tickEvent quiet2 (.intervalExpiry (.quiet 2)) ∧ Meets Working tickEvent quiet2 (.quietIntervalExpiry 2) :=
  have p : PlainTick quiet2 := plain_of (by decide +kernel)
  have d : NoDevice quiet2 := ⟨by decide +kernel, by decide +kernel⟩
  have n : NotLost quiet2 := .inl (by decide +kernel)
  have w : Working quiet2 := ⟨by decide +kernel, by decide +kernel⟩
  ⟨⟨w, _, rfl, p, d, n, 2, _, rfl, rfl, by decide +kernel⟩, w, _, rfl, p, d, n, _, rfl, by decide +kernel⟩
theorem wit_hubTickPeriodWrite : Meets Working tickEvent s1 (.hubTickPeriodWrite 0x500) ∧ Meets Working tickEvent s1 (.hubTickPeriodWrite 0xC801) :=
  ⟨⟨work1, _, rfl, trivial⟩, work1, _, rfl, trivial⟩
/-- Follow mode, three periods after the last edge. -/
def following : State := { s1.setFld aHubTickCfg 1 0 1 with tick := { s1.tick with missed := 3 } }
theorem wit_tickIn : Meets Working tickEvent following .tickInEdge ∧ Meets Working tickEvent following .tickInLost :=
  have w : Working following := ⟨by decide +kernel, by decide +kernel⟩
  ⟨⟨w, _, rfl, by decide +kernel⟩, w, _, rfl, plain_of (by decide +kernel), ⟨by decide +kernel, by decide +kernel⟩, by decide +kernel, by decide +kernel,
    by decide +kernel, by decide +kernel, soft_of (by decide +kernel)⟩

/-! ### Witnesses: stores, devices, caches -/

/-- LP 0 owns the line at 0x2000 and has a store to it in its buffer. -/
def writing : State := (owning s0).updLp 0 fun l => { l with storeBuf := ((storing .cache 0x2000 [1, 2]).lp 0).storeBuf }
theorem calm_of {s : State} (h : s.calm = true ∧ s.kst.phase = .released) : Working s := h
theorem still_of {s : State} (h : ∀ m : Tri, (s.lp m).frozen = none ∧ (s.lp m).entry = none) : NoFrozen s := h
/-- What STORE_PERFORMED needs for each kind of store. -/
theorem wit_storePerformed : Meets Working memoryEvent writing (.storePerformed 0) ∧
    ∀ s ∈ [storing .nt 0x2000 [1], storing .fence 0 [], storing .devPosted 0xC000000000000 [1], storing .devStrict 0xC000000000000 [1],
      storing .ctl aHubTickPeriod [0, 6, 0, 0, 0, 0, 0, 0]], Meets Working memoryEvent s (.storePerformed 0) := by
  refine ⟨⟨calm_of (by decide +kernel), _, rfl, still_of (by decide +kernel), _, _, rfl, by decide +kernel, by decide, ?_⟩, ?_⟩
  · have h : ∀ b ∈ [((0x2000 : Nat), (1 : Byte)), (0x2001, 2)], b.1 / 128 = 64 := by decide
    have o : Owns writing 0 64 := owns_of (by decide +kernel)
    have k : ∀ b ∈ [((0x2000 : Nat), (1 : Byte)), (0x2001, 2)], writing.memOk b.1 = true := by decide +kernel
    exact fun b hb => ⟨k b hb, (h b hb) ▸ o⟩
  · have w : ∀ s ∈ [storing .nt 0x2000 [1], storing .fence 0 [], storing .devPosted 0xC000000000000 [1], storing .devStrict 0xC000000000000 [1],
        storing .ctl aHubTickPeriod [0, 6, 0, 0, 0, 0, 0, 0]], (s.calm = true ∧ s.kst.phase = .released) ∧ ∀ m, (s.lp m).frozen = none ∧ (s.lp m).entry = none := by
      decide +kernel
    intro s hs
    refine ⟨⟨(w s hs).1.1, (w s hs).1.2⟩, _, rfl, (w s hs).2, ?_⟩
    rcases List.mem_cons.1 hs with rfl | hs
    · exact ⟨_, _, rfl, by decide +kernel, by decide, by decide, by decide⟩
    · rcases List.mem_cons.1 hs with rfl | hs
      · exact ⟨_, _, rfl, by decide +kernel⟩
      · rcases List.mem_cons.1 hs with rfl | hs
        · exact ⟨_, _, rfl, trivial⟩
        · rcases List.mem_cons.1 hs with rfl | hs
          · exact ⟨_, _, rfl, by decide +kernel⟩
          · obtain rfl := List.mem_singleton.1 hs
            exact ⟨_, _, rfl, by decide +kernel⟩
/-- A line of the combining buffer, and one whose every byte has drained. -/
def combining (bs : List (Nat × Byte)) : State := s0.updLp 0 fun l => { l with comb := [{ line := 64, bytes := bs }] }
theorem wit_combiningBufferDrain : Meets Working memoryEvent (combining [(0x2000, 1), (0x207F, 2)]) (.combiningBufferDrain 0 64) :=
  ⟨⟨by decide +kernel, by decide +kernel⟩, _, rfl, still_of (by decide +kernel), by decide +kernel, oneCopy_of (by decide +kernel) (by decide +kernel) 64,
    _, rfl, by decide, by decide⟩

/-- A device behind root port 0 of PCIe port 0, at the first address of its window (12 R338), whose page is in the TLB of LP 0. -/
def device (s : State) : State := { s.updLp 0 fun l => l.cores fun c => { c with tlbD := [mEntry 0xC000000000000] } with
  pci := { s.pci with up := 1, cfg := [(1, 2), (10, 0xC0000), (11, 0xC0000)] } }
/-- LP 0 has issued a load of 8 bytes from it to g5. -/
def asking : State := after (.ldD (at0 1) 5 2 0) (device (withG 0xC000000000000 0 s0))
/-- The check of its address. -/
def acDev : Access := { region := .devStrict, addrs := (List.range 8).map (0xC000000000000 + ·), pers := false, fills := [{}], cycles := 0 }
theorem wit_deviceAccessAnswer_load : ∀ v, Meets Working memoryEvent asking (.deviceAccessAnswer 0 .load true v) := by
  have w : Working asking := calm_of (by decide +kernel)
  have l : LoadWaits asking 0 5 8 := ⟨⟨{ slot := 1, group := .memory, dests := [.g 5], reads := [.g 2], mem := some (.load (.g 5) 0xC000000000000 8 .zero false) },
      0xC000000000000, acDev, none, rfl, by decide +kernel, .inr rfl, by decide +kernel, _, rfl, by decide +kernel, by decide +kernel, by decide +kernel, by decide +kernel⟩,
    by decide +kernel⟩
  have f : ∀ m : Tri, (asking.lp m).entry = none ∧ (m ≠ 0 → (asking.lp m).frozen = none) := by decide +kernel
  exact fun v => ⟨w, _, rfl, fun m => ⟨(f m).1, fun h => (f m).2 (h.resolve_right fun h => h rfl)⟩, rfl, 5, 8, l, by decide, by decide, by decide⟩
/-- A strict store to the device has left, and a posted write. -/
def sent (due : Option Nat) : State :=
  let r : DevReq := { addr := 0xC000000000000, size := 1, slot := 0, part := 0, due := due }
  (running (storing .devStrict 0xC000000000000 [1])).updLp 0 fun l => { l with stReq := some r, posted := if due.isNone then [r] else [] }
theorem wit_deviceAccessAnswer_store : ∀ ok v, Meets Working memoryEvent (sent none) (.deviceAccessAnswer 0 .store ok v) ∧
    Meets Working memoryEvent (sent none) (.deviceAccessAnswer 0 (.posted 0) ok v) := by
  have w : Working (sent none) := calm_of (by decide +kernel)
  have f : ∀ m : Tri, ((sent none).lp m).entry = none ∧ ((sent none).lp m).frozen = none := by decide +kernel
  exact fun ok v => ⟨⟨w, _, rfl, fun m => ⟨(f m).1, fun _ => (f m).2⟩, _, _, rfl, by decide +kernel, fun _ => by decide, fun _ =>
      ⟨by decide +kernel, soft_of (by decide +kernel), by decide⟩⟩,
    w, _, rfl, fun m => ⟨(f m).1, fun _ => (f m).2⟩, _, rfl, by decide +kernel, fun _ => soft_of (by decide +kernel)⟩
theorem wit_deviceTimeout : Meets Working memoryEvent (sent (some 5120)) (.deviceTimeout 0 .store) :=
  ⟨calm_of (by decide +kernel), _, rfl, plain_of (by decide +kernel), .inl (by decide +kernel), by decide +kernel, by decide +kernel, rfl, by decide +kernel,
    by decide +kernel, soft_of (by decide +kernel), by decide +kernel, _, _, rfl, rfl, by decide +kernel, by decide⟩
/-- LP 0 has missed a line. -/
def missing (left : Bool) : State := s0.updLp 0 fun l => { l with miss := [{ MissReg.of 64 with left := left, l1d := true }] }
theorem empty_pos {c : Cache} (h : c.ways = []) (k : Nat) : (c.pos k).st = .i := by simp [Cache.pos, h, smGet, noLine, CLine.empty]
theorem wit_cacheFill : Meets Working memoryEvent (missing true) (.cacheFill 0 64) ∧ Meets Working memoryEvent (missing false) (.directoryRequest 0 64) :=
  ⟨⟨calm_of (by decide +kernel), _, rfl, by decide +kernel, by decide +kernel, by decide +kernel, by decide +kernel, fun k _ => empty_pos (by decide +kernel) k,
    fun k _ => empty_pos (by decide +kernel) k, by decide +kernel, by decide +kernel, by decide +kernel, _, rfl, rfl, rfl⟩,
    calm_of (by decide +kernel), _, rfl, by decide +kernel, _, rfl, rfl, rfl⟩
/-- A modified victim on its way to memory. -/
def evicting : State := s0.updLp 0 fun l => { l with vbuf := [{ line := 64, data := 5, toMem := true, issued := false, poison := 0, pers := false }] }
theorem wit_victimBufferAck : Meets Working memoryEvent evicting (.victimBufferAck 0 0) := by
  refine ⟨calm_of (by decide +kernel), _, rfl, by decide +kernel, fun v hv => ?_⟩
  have h : (evicting.lp 0).vbuf = [{ line := 64, data := 5, toMem := true, issued := false, poison := 0, pers := false }] := by decide +kernel
  rw [h] at hv ⊢
  obtain rfl : _ = v := Option.some.inj hv
  refine ⟨by decide +kernel, rfl, rfl, by decide +kernel, by decide +kernel, by decide +kernel, fun j w hw _ => ?_⟩
  cases j with
  | zero => rfl
  | succ j => simp at hw
theorem wit_registers : (∀ d b, Meets Working memoryEvent s0 (.d2dFlitFail d b)) ∧ (∀ v, Meets Working memoryEvent s0 (.hubOrderModeWrite v)) ∧
    ∀ p a z v, Meets Working memoryEvent s0 (.registerWrite p a z v) :=
  ⟨fun _ _ => ⟨work0, _, rfl, soft_of (by decide +kernel)⟩, fun _ => ⟨work0, _, rfl, trivial⟩, fun _ _ _ _ => ⟨work0, _, rfl, fun _ => soft_of (by decide +kernel)⟩⟩

/-! ### Witnesses: clocks, power, memory links, faults -/

/-- CLK_STATUS: REFSTATE k with both references sound. -/
def clk (k : Nat) : State := s0.setReg aClkStatus (BitVec.ofNat 64 (24 + k))
theorem work_clk : ∀ k, k < 4 → Working (clk k) := by
  have h : ∀ k, k < 4 → (clk k).calm = true ∧ (clk k).kst.phase = .released := by decide +kernel
  exact fun k hk => ⟨(h k hk).1, (h k hk).2⟩
theorem soft_clk (src : Nat) (h : src = 0x4D4 ∨ src = 0x4D5) : ∀ k, k < 4 → Soft (clk k) src := by
  intro k hk
  have : k = 0 ∨ k = 1 ∨ k = 2 ∨ k = 3 := by omega
  rcases h with rfl | rfl <;> rcases this with rfl | rfl | rfl | rfl <;> exact soft_of (by decide +kernel)
theorem wit_references : (∀ k ∈ [1, 2, 3], Meets Working powerEvent (clk k) .refclkMonitorTrip) ∧ (∀ k ∈ [1, 2], Meets Working powerEvent (clk k) .crystalMonitorTrip) ∧
    (∀ k ∈ [0, 2, 3], Meets Working powerEvent ((clk k).setFld aClkStatus 4 4 0) .crystalStartCount) ∧ Meets Working powerEvent s0 .refclkJudgedSound ∧
    Meets Working powerEvent (clk 2) .returnRef ∧ ∀ p, Meets Working powerEvent (clk 1) (.clkPllUnlock p) := by
  refine ⟨fun k hk => ?_, fun k hk => ?_, fun k hk => ?_, ⟨work0, _, rfl, trivial⟩, ⟨work_clk 2 (by decide), _, rfl, (by decide +kernel : (clk 2).fld aClkStatus 2 0 = 2), by decide +kernel⟩, fun p =>
    ⟨work_clk 1 (by decide), _, rfl, (by decide +kernel : ¬(clk 1).fld aClkStatus 2 0 = 0), soft_of (by decide +kernel)⟩⟩
  · have l : ∀ k ∈ [1, 2, 3], k < 4 ∧ ((clk k).fld aClkStatus 2 0 = 1 ∨ (clk k).fld aClkStatus 2 0 = 2 ∨ (clk k).fld aClkStatus 2 0 = 3) := by decide +kernel
    exact ⟨work_clk k (l k hk).1, _, rfl, (l k hk).2, fun _ => soft_clk _ (.inl rfl) k (l k hk).1⟩
  · have l : ∀ k ∈ [1, 2], k < 4 ∧ ((clk k).fld aClkStatus 2 0 = 1 ∨ (clk k).fld aClkStatus 2 0 = 2) := by decide +kernel
    exact ⟨work_clk k (l k hk).1, _, rfl, (l k hk).2, fun _ => soft_clk _ (.inr rfl) k (l k hk).1⟩
  · have l : ∀ k ∈ [0, 2, 3], (((clk k).setFld aClkStatus 4 4 0).calm = true ∧ ((clk k).setFld aClkStatus 4 4 0).kst.phase = .released) ∧
      ((clk k).setFld aClkStatus 4 4 0).flag aClkStatus 4 = false := by decide +kernel
    exact ⟨⟨(l k hk).1.1, (l k hk).1.2⟩, _, rfl, (l k hk).2⟩
/-- A die at 0.60 V, its first triad at step 8. -/
def low : State := let s := s0.setFld (aClkTrdFreq 0) 6 0 8; { s with pwr := { s.pwr with vdd := s.pwr.vdd.set 0 600 } }
theorem wit_clkTrdFreqWrite : (∀ v, Meets Working powerEvent s0 (.clkTrdFreqWrite 0 v)) ∧ (∀ v, Meets Working powerEvent low (.clkTrdFreqWrite 0 v)) ∧
    low.fld (aClkTrdFreq 0) 6 0 = 8 ∧ low.vdd (dieOf 0) < vddOf 33 ∧ low.domState 0 ≠ 3 ∧ low.mode 0 ≠ 0 := by
  have w : Working low := ⟨by decide +kernel, by decide +kernel⟩
  have h : ∀ s ∈ [s0, low], s.flag (aClkTrdFreq 0) 63 = false ∧ (s.lp 0).records = [] ∧ (s.lp 0).frozen = none := by decide +kernel
  exact ⟨fun v => ⟨work0, _, rfl, h s0 (by simp)⟩, fun v => ⟨w, _, rfl, h low (by simp)⟩, by decide +kernel⟩
/-- The same, waiting for its regulator. -/
def waiting : State := { (low.setFld (aClkTrdFreq 0) 6 0 40).setFld (aClkTrdFreq 0) 63 63 1 with
  pwr := { low.pwr with freq := [{ tri := 0, old := 8, new := 40, avs := true, lower := false }] } }
theorem wit_regulator : Meets (fun s => State.calm { s with pwr.freq := [] } = true ∧ s.kst.phase = .released) regulatorEvent waiting (.voltageWriteAcknowledge 0) ∧
    Meets (fun s => State.calm { s with pwr.freq := [] } = true ∧ s.kst.phase = .released) regulatorEvent waiting (.avsWriteTimeout 0) :=
  have h : State.calm { waiting with pwr.freq := [] } = true ∧ waiting.kst.phase = .released := by decide +kernel
  ⟨⟨h, _, rfl, _, rfl, by decide +kernel⟩, h, _, rfl, ⟨_, rfl, by decide +kernel⟩, soft_of (by decide +kernel)⟩
theorem wit_gates : (∀ v, Meets Working powerEvent s0 (.clkGateWrite v)) ∧
    ∀ f, Meets Working powerEvent (s0.setFld (aClkGate 1) 32 32 1) (.gateClosure 32 f) := by
  have w : Working (s0.setFld (aClkGate 1) 32 32 1) := ⟨by decide +kernel, by decide +kernel⟩
  exact ⟨fun v => ⟨work0, _, rfl, trivial⟩, fun f => ⟨w, _, rfl, by decide +kernel, fun _ => ⟨soft_of (by decide +kernel), fun _ h => absurd h (by decide)⟩⟩⟩
theorem wit_domains : (∀ f, Meets Working powerEvent s0 (.cmdOff 31 0x8000000000000000 f)) ∧ s0.offOk 31 = true ∧ (∀ f, Meets Working powerEvent s0 (.cmdOff 0 0x8000000000000000 f)) ∧
    s0.offOk 0 = false ∧ Meets Working powerEvent s0 (.pwrDomainFail 31) ∧ Meets Working powerEvent s0 (.idleEntry 60) ∧
    Meets Working powerEvent ((s0.setFld (aPwrDom 0) 5 4 2).updLp 0 fun l => { l with waiting := true }) (.idleEntry 0) ∧
    Meets Working powerEvent s0 (.idleExit 60) ∧ Meets Working powerEvent (s0.setFld (aPwrDom 0) 1 0 1) (.idleExit 0) :=
  ⟨fun _ => ⟨work0, _, rfl, by decide +kernel⟩, by decide +kernel, fun _ => ⟨work0, _, rfl, by decide +kernel⟩, by decide +kernel,
    ⟨work0, _, rfl, by decide +kernel, by decide +kernel, by decide +kernel, soft_of (by decide +kernel), by
      have h : ∀ k, s0.fcuTarget k ≠ some (triOf 31) := by
        intro k
        have z : s0.fcuTargetLp k = 0 ∨ s0.fcuTarget k = allTri.find? s0.fcuAble := by
          by_cases h : s0.fcuTargetLp k = 0
          · exact .inl h
          · right
            have : ∀ m : Tri, m ≠ 0 → s0.fcuAble m = false := by decide +kernel
            simp [State.fcuTarget, this _ h]
        have y : s0.fcuAble 0 = true ∧ allTri.find? s0.fcuAble = some 0 ∧ triOf 31 ≠ 0 := by decide +kernel
        rcases z with z | z
        · simp only [State.fcuTarget, z, y.1, if_true]; exact fun e => y.2.2 (Option.some.inj e).symm
        · rw [z, y.2.1]; exact fun e => y.2.2 (Option.some.inj e).symm
      exact h⟩,
    ⟨work0, _, rfl, by decide +kernel⟩, ⟨⟨by decide +kernel, by decide +kernel⟩, _, rfl, by decide +kernel⟩, ⟨work0, _, rfl, by decide⟩,
    ⟨by decide +kernel, by decide +kernel⟩, _, rfl, by decide⟩
theorem wit_todComparatorFire : Meets Working powerEvent (s1.setFld (aClkTodcmpCfg 7) 63 63 1) (.todComparatorFire 7) :=
  ⟨⟨by decide +kernel, by decide +kernel⟩, _, rfl, by decide +kernel⟩
/-- 36 sensors at one temperature. -/
def at36 (b : Byte) : List Byte := List.replicate 36 b
theorem wit_sensorRead : (∀ b ∈ [(40 : Byte), 99, 100, 114, 115, 130], Meets Working powerEvent s0 (.sensorRead (at36 b))) ∧ s0.overTemp (at36 114) 115 = none ∧
    (s0.overTemp (at36 115) 115).isSome = true := by
  have h : ∀ b ∈ [(40 : Byte), 99, 100, 114, 115, 130], (at36 b).length = 36 := by decide
  exact ⟨fun b hb => ⟨work0, _, rfl, h b hb, by decide +kernel, fun _ _ _ => soft_of (by decide +kernel)⟩, by decide +kernel⟩
theorem wit_buses : (∀ c, Meets Working powerEvent s0 (.i2cRead c)) ∧ ∀ r v, Meets Working powerEvent s0 (.pwrRailUv r v) :=
  ⟨fun _ => ⟨work0, _, rfl, trivial⟩, fun _ _ => ⟨work0, _, rfl, by decide +kernel, soft_of (by decide +kernel)⟩⟩

theorem wit_memLinks : Meets Working faultTable s0 (.memLaneDegrade 0) ∧ s0.linkState 0 = 2 ∧ Meets Working faultTable s0 (.memLinkFail 0) ∧ s0.linkUsable 0 = true ∧
    Meets Working faultTable s0 (.memLinkFail 15) ∧ s0.linkUsable 15 = false :=
  ⟨⟨work0, _, rfl, fun _ => soft_of (by decide +kernel), fun _ => soft_of (by decide +kernel)⟩, by decide +kernel, ⟨work0, _, rfl, fun _ => soft_of (by decide +kernel)⟩,
    by decide +kernel, ⟨work0, _, rfl, fun _ => soft_of (by decide +kernel)⟩, by decide +kernel⟩
/-- Link 0 at half width. -/
def halved : State := s0.setFld (aMemLinkStatus 0) 2 0 3
theorem wit_memLinks_half : Meets Working faultTable halved (.memLaneDegrade 0) ∧ halved.linkState 0 = 3 :=
  ⟨⟨⟨by decide +kernel, by decide +kernel⟩, _, rfl, fun _ => soft_of (by decide +kernel), fun _ => soft_of (by decide +kernel)⟩, by decide +kernel⟩
theorem softMem : Soft s0 0x240 ∧ Soft s0 0x241 := ⟨soft_of (by decide +kernel), soft_of (by decide +kernel)⟩
theorem wit_memErrors_at (a : Word) (h : s0.linkOf a.toNat = 0) : Meets Working faultTable s0 (.memCe a) ∧ Meets Working faultTable s0 (.memUe a) :=
  ⟨⟨work0, _, rfl, fun _ => by rw [h]; exact softMem.1⟩, work0, _, rfl, fun _ => by rw [h]; exact softMem.2⟩
/-- The last byte of memory and the first that does not exist. -/
theorem wit_memErrors : s0.linkOf (0xFFFFFFFF : Word).toNat = 0 ∧ s0.memOk (0xFFFFFFFF : Word).toNat = true ∧ s0.linkOf (0x100000000 : Word).toNat = 0 ∧
    s0.memOk (0x100000000 : Word).toNat = false := by decide +kernel
/-- What FAULT_EVENT needs, as a check. -/
def heardB (src : BitVec 11) : Bool :=
  decide (src.toNat = 0x610) || (decide (src.toNat < 0x600) && (!(srcClass src.toNat).isSome || (!arrayLine src.toNat && (!s0.fcu.errHold && (match srcClass src.toNat with
    | some k => (match s0.fcuTarget k with | some _ => decide (s0.fcuLevel k (s0.fld (aFcuSrcCfg src.toNat) 1 0) ≤ 1) | none => false)
    | none => false)))))
theorem heard_of {src : BitVec 11} (h : heardB src = true) (a : Word) (b c : BitVec 16) (d : BitVec 7) (e : BitVec 6) :
    Meets Working faultTable s0 (.faultEvent src a b c d e) := by
  refine ⟨work0, _, rfl, ?_⟩
  simp only [heardB, Bool.or_eq_true, Bool.and_eq_true, decide_eq_true_eq] at h
  refine h.imp id fun h => ⟨h.1, fun hc _ => ?_⟩
  rcases h.2 with h | ⟨h1, h2⟩
  · simp [hc] at h
  · exact ⟨by simpa using h1, soft_of (by rw [Bool.and_eq_true]; exact h2)⟩
/-- A correctable error, an uncorrectable one of an L2, a link, TRS_BOUND_EXCEEDED, the last source, a number that is none, and SELF_CE. -/
theorem wit_faultEvent (a : Word) (b c : BitVec 16) (d : BitVec 7) (e : BitVec 6) : Meets Working faultTable s0 (.faultEvent 0x006 a b c d e) ∧
    Meets Working faultTable s0 (.faultEvent 0x240 a b c d e) ∧ Meets Working faultTable s0 (.faultEvent 0x4C0 a b c d e) ∧
    Meets Working faultTable s0 (.faultEvent 0x4C1 a b c d e) ∧ Meets Working faultTable s0 (.faultEvent 0x4E6 a b c d e) ∧
    Meets Working faultTable s0 (.faultEvent 0x5FF a b c d e) ∧ Meets Working faultTable s0 (.faultEvent 0x610 a b c d e) ∧ srcClass 0x5FF = none :=
  ⟨heard_of (by decide +kernel) a b c d e, heard_of (by decide +kernel) a b c d e, heard_of (by decide +kernel) a b c d e, heard_of (by decide +kernel) a b c d e,
    heard_of (by decide +kernel) a b c d e, heard_of (by decide +kernel) a b c d e, heard_of (by decide +kernel) a b c d e, by decide⟩
theorem wit_unackWrite (k : Fin 16) : Meets Working faultTable s0 (.unackWrite k) := ⟨work0, _, rfl, trivial⟩
/-- Source 4C0H at level 3, with a save possible and without. -/
def harsh : State := s0.setFld (aFcuSrcCfg 0x4C0) 1 0 3
/-- What a chip reset by a reaction needs. -/
def harshB (s : State) : Bool := decide ((s.calm = true ∧ s.kst.phase = .released) ∧ srcClass (0x4C0 : BitVec 11).toNat = some 12 ∧
  s.fcu.errHold = false ∧ s.fcuLevel 12 (s.fld (aFcuSrcCfg (0x4C0 : BitVec 11).toNat) 1 0) = 3)
/-- The first state reacts to an error of class 15 in the collector's own state too. -/
theorem wit_ChipResetReactions : harshB harsh = true ∧ harsh.canSave = true ∧ harshB (harsh.setFld (aMemLinkStatus 0) 2 0 4) = true ∧
    (harsh.setFld (aMemLinkStatus 0) 2 0 4).canSave = false ∧ (0x60F : BitVec 11).toNat = 0x600 + 15 :=
  ⟨by decide +kernel, by decide +kernel, by decide +kernel, by decide +kernel, by decide⟩

/-! ### Witnesses: debug port, saves, the start -/

/-- A request over JTAG to LP 0. -/
def jtag (a v : Word) : DbgReq := { path := .jtag, triad := 0, tag := 7, addr := a, data := v }
theorem hears (a v : Word) : s0.dbgHears (jtag a v) = true := by
  have h : s0.dbgHears { path := .jtag, triad := 0, tag := 7, addr := 0, data := 0 } = true := by decide +kernel
  exact h
theorem soft_dbg : Soft s0 0x4E0 ∧ Soft s0 0x4E1 ∧ Soft s0 0x4E2 ∧ Soft s0 0x4E3 :=
  ⟨soft_of (by decide +kernel), soft_of (by decide +kernel), soft_of (by decide +kernel), soft_of (by decide +kernel)⟩
/-- LP 0 is halted. -/
def halted0 : State := s0.setFld (aTrdState 0) 33 33 1
/-- LP 0 runs, with no record and with one; LP 1 has none; and the port is locked out. -/
theorem wit_halt : Meets Working debugEvent s0 (.halt (jtag 0 0)) ∧ Meets Working debugEvent recorded (.halt (jtag 0 0)) ∧
    Meets Working debugEvent s0 (.halt { jtag 0 0 with triad := 1 }) ∧ s0.mode 1 = 0 ∧
    Meets Working debugEvent (s0.setFld aDbgCtl 0 0 1) (.halt (jtag 0 0)) ∧ (s0.setFld aDbgCtl 0 0 1).flag aDbgCtl 0 = true := by
  refine ⟨⟨work0, _, rfl, by decide +kernel, by decide, by decide +kernel, by decide +kernel, by decide +kernel, by decide +kernel, soft_dbg.2.1⟩,
    ⟨work_recorded, _, rfl, by decide +kernel, by decide, by decide +kernel, by decide +kernel, by decide +kernel, by decide +kernel, soft_of (by decide +kernel)⟩,
    ⟨work0, _, rfl, by decide +kernel, by decide, by decide +kernel, by decide +kernel, by decide +kernel, by decide +kernel, soft_dbg.2.1⟩, by decide +kernel,
    ⟨calm_of (by decide +kernel), _, rfl, by decide +kernel, by decide, by decide +kernel, by decide +kernel, by decide +kernel, by decide +kernel,
      soft_of (by decide +kernel)⟩, by decide +kernel⟩
theorem wit_step : Meets Working debugEvent halted0 (.step (jtag 0 0) 1) ∧ halted0.halted 0 = true := by
  refine ⟨⟨calm_of (by decide +kernel), _, rfl, by decide +kernel, by decide +kernel, by decide +kernel, warm_of (by decide +kernel), by decide +kernel,
    by decide +kernel, ⟨_, ok_of (by decide +kernel), by decide +kernel, by decide +kernel⟩, by decide +kernel⟩, by decide +kernel⟩
theorem wit_dbgResume (a v : Word) : Meets Working debugEvent s0 (.dbgResume (jtag a v)) ∧ Meets Working debugEvent halted0 (.dbgResume (jtag 0 0)) :=
  ⟨⟨work0, _, rfl, hears a v⟩, calm_of (by decide +kernel), _, rfl, by decide +kernel⟩
/-- Main memory, its last doubleword, an address that is none, and a register. -/
theorem wit_rdAbs : Meets Working debugEvent s0 (.rdAbs (jtag 0x2000 0)) ∧ s0.absOk 0x2000 = true ∧ Meets Working debugEvent s0 (.rdAbs (jtag 0xFFFFFFF8 0)) ∧
    s0.absOk 0xFFFFFFF8 = true ∧ Meets Working debugEvent s0 (.rdAbs (jtag 0xFFFFFFF9 0)) ∧ s0.absOk 0xFFFFFFF9 = false ∧
    Meets Working debugEvent s0 (.rdAbs (jtag (BitVec.ofNat 64 aHubTickPeriod) 0)) := by
  have m : ∀ a : Word, isCtl a.toNat = false → Meets Working debugEvent s0 (.rdAbs (jtag a 0)) := fun a h =>
    ⟨work0, _, rfl, hears a 0, fun hc => by rw [show (jtag a 0).addr = a from rfl, h] at hc; simp at hc⟩
  have c : ∀ d, regDesc (jtag (BitVec.ofNat 64 aHubTickPeriod) 0).addr.toNat = some d → d.rc = 0 := by
    have e : (regDesc (jtag (BitVec.ofNat 64 aHubTickPeriod) 0).addr.toNat).map (·.rc) = some 0 := by decide +kernel
    intro d hd
    rw [hd] at e
    exact Option.some.inj e
  refine ⟨m _ (by decide), by decide +kernel, m _ (by decide), by decide +kernel, m _ (by decide), by decide +kernel, work0, _, rfl, hears _ _, fun _ d hd => ?_⟩
  exact ⟨c d hd, by decide +kernel⟩
theorem wit_wrAbs : Meets Working debugEvent s0 (.wrAbs (jtag 0x2004 5)) ∧ Meets Working debugEvent s0 (.wrAbs (jtag (BitVec.ofNat 64 aHubOrderMode) 5)) := by
  have o : ∀ line, OneCopy s0 line := oneCopy_of (by decide +kernel) (by decide +kernel)
  exact ⟨⟨work0, _, rfl, hears _ _, soft_dbg.2.2.1, fun h => absurd h (by decide), o _, o _⟩,
    work0, _, rfl, hears _ _, soft_dbg.2.2.1, fun _ => by decide, o _, o _⟩
theorem wit_registersDebug (a v : Word) : Meets Working debugEvent s0 (.rdReg (jtag a v)) ∧ Meets Working debugEvent s0 (.wrReg (jtag a v)) ∧
    Meets Working debugEvent s0 (.rdCs (jtag a v)) ∧ Meets Working debugEvent halted0 (.rdReg (jtag 5 0)) ∧ Meets Working debugEvent halted0 (.wrReg (jtag 5 9)) :=
  ⟨⟨work0, _, rfl, hears a v⟩, ⟨work0, _, rfl, hears a v, soft_dbg.2.2.1⟩, ⟨work0, _, rfl, hears a v⟩,
    ⟨calm_of (by decide +kernel), _, rfl, by decide +kernel⟩, calm_of (by decide +kernel), _, rfl, by decide +kernel, soft_of (by decide +kernel)⟩
theorem vmem_of (k : AccKind) (a : Word) (h : (match halted0.leadAccess 0 k a with
    | .error _ => true | .ok ac => decide (ac.region = .mem) && ac.fills.all fun f => decide (f = {})) = true) :
    match halted0.leadAccess 0 k a with | .error _ => True | .ok ac => ac.region = .mem ∧ ∀ f ∈ ac.fills, f = {} := by
  split at h
  · trivial
  · simpa only [Bool.and_eq_true, decide_eq_true_eq, List.all_eq_true] using h
theorem wit_vmem : Meets Working debugEvent halted0 (.rdVmem (jtag 0x2000 0)) ∧ passes (halted0.leadAccess 0 .load 0x2000) = true ∧
    Meets Working debugEvent halted0 (.wrVmem (jtag 0x2000 5)) ∧ passes (halted0.leadAccess 0 .store 0x2000) = true ∧
    Meets Working debugEvent halted0 (.rdVmem (jtag 0x200000000 0)) ∧ passes (halted0.leadAccess 0 .load 0x200000000) = false :=
  have w : Working halted0 := calm_of (by decide +kernel)
  ⟨⟨w, _, rfl, by decide +kernel, vmem_of .load 0x2000 (by decide +kernel)⟩, by decide +kernel,
    ⟨w, _, rfl, by decide +kernel, soft_of (by decide +kernel), by decide +kernel, vmem_of .store 0x2000 (by decide +kernel)⟩, by decide +kernel,
    ⟨w, _, rfl, by decide +kernel, vmem_of .load 0x200000000 (by decide +kernel)⟩, by decide +kernel⟩
theorem wit_debugRest (a v : Word) (op : Byte) : Meets Working debugEvent s0 .lock ∧ Meets Working debugEvent s0 .servicePortConnect ∧
    Meets Working debugEvent s0 .servicePortConnectionClose ∧ Meets Working debugEvent s0 (.debugRequestCrcError (jtag a v) op) :=
  ⟨⟨work0, _, rfl, by decide +kernel⟩, ⟨work0, _, rfl, by decide +kernel, by decide +kernel, soft_dbg.1⟩, ⟨work0, _, rfl, trivial⟩, work0, _, rfl, hears a v,
    soft_dbg.2.2.2⟩

/-- A save in a phase, with a valid save area at 16 MiB. -/
def saving (p : SavePhase) (f : Save → Save) : State :=
  let s := (s1.setFld aMemSaveBase 63 63 1).setFld aMemSaveBase 51 0 0x1000000
  { s with save := f { Save.reset with phase := p } }
theorem steady_of {s : State} (h : State.calm { s with save := Save.reset } = true ∧ s.kst.phase = .released) : Steady s := h
theorem wit_SaveEvents : Meets Steady saveEvent s1 .pfWarnNAssert ∧ Meets Steady saveEvent (saving .quiesce id) .quiesceStoreLimit ∧
    Meets Steady saveEvent (saving .quiesce id) .quiesceEnd ∧ Meets Steady saveEvent (saving .contexts id) .contextsWritten ∧
    Meets Steady saveEvent (saving .persistent id) .persistentWritebackEnd ∧ Meets Steady saveEvent (saving .others id) .writebackEnd ∧
    Meets Steady saveEvent (saving .selfRefresh id) (.selfRefreshAck 0 true) ∧ (saving .selfRefresh id).refreshLeft = [0] ∧
    Meets Steady saveEvent (saving .selfRefresh fun v => { v with stay := true }) (.selfRefreshAck 0 true) ∧
    Meets Steady saveEvent (saving .ended fun v => { v with stay := true }) .pfWarnNQuiet := by
  have w : ∀ p f, State.calm { saving p f with save := Save.reset } = State.calm { saving .none id with save := Save.reset } ∧
      (saving p f).kst.phase = (saving .none id).kst.phase := fun _ _ => ⟨rfl, rfl⟩
  have c : State.calm { saving .none id with save := Save.reset } = true ∧ (saving .none id).kst.phase = .released := by decide +kernel
  have w : ∀ p f, Steady (saving p f) := fun p f => ⟨(w p f).1.trans c.1, (w p f).2.trans c.2⟩
  exact ⟨⟨steady_of (by decide +kernel), _, rfl, by decide +kernel⟩, ⟨w _ _, _, rfl, by decide +kernel⟩, ⟨w _ _, _, rfl, by decide +kernel⟩,
    ⟨w _ _, _, rfl, by decide +kernel⟩, ⟨w _ _, _, rfl, by decide +kernel⟩, ⟨w _ _, _, rfl, by decide +kernel⟩, ⟨w _ _, _, rfl, by decide +kernel⟩,
    by decide +kernel, ⟨w _ _, _, rfl, by decide +kernel⟩, w _ _, _, rfl, by decide +kernel⟩
/-- A device store keeps the quiesce waiting. -/
def stuck : State := { storing .devStrict 0xC000000000000 [1] with save := { Save.reset with phase := .quiesce } }
theorem wit_quiesceStoreLimit : Meets Steady saveEvent stuck .quiesceStoreLimit ∧ (stuck.lp 0).storeBuf ≠ [] :=
  ⟨⟨steady_of (by decide +kernel), _, rfl, by decide +kernel⟩, by decide +kernel⟩

/-! ### Witnesses: rings -/

/-- Partition 1 has a PMT of one increment, main memory with PERS = 1, which the hub has read, and a journal area at 0x30000 (08 R218, 11 R306); port 0 is trained. -/
def hub1 : State :=
  let s := withRegs [(aHubPmt 1, 2 ^ 63), (aCssJrnl 1, 2 ^ 63 + 0x30000 + 8), (aSpnPortStatus 0, 2)] s0
  { s with hubPmt := [{ part := 1, idx := 0, entry := 0xE1 }] }
/-- A ring of partition 1 with its next entry at 0x10000 and completions from 0x20000 on. -/
def ring0 : Ring :=
  { part := 1, rt := false, log2 := 4, sqBase := 0x10000, cqBase := 0x20000, intEn := true, vector := 64, target := 0, slot := 0, dbl := 0, ver := 3, feat := 15,
    state := 1, consumed := 0, produced := 0, intPend := false, irqOff := false, head := 0, tail := 1, pers := true, retarget := none, owed := [], noCq := false }
/-- A session of partition 1 with one usable path over port 0. -/
def sess0 : Session :=
  { name := 5, epoch := 9, rev := 5, sstate := 2, part := 1, revMask := 7, nextSeq := 4, ackMark := 3, ackedAbove := [],
    paths := [{ valid := true, pstate := 2, port := 0, faddr := 3, sends := 0, login := none, ka := none, tx := false, rx := false }],
    loggedIn := true, wait := none, noPathTicks := 0, resume := none }
/-- Ring 5 and session 0 exist; an entry stands at 0x10000. -/
def ringed (q : Ring) (e : List Word) : State :=
  { hub1 with css := { hub1.css with rings := [(5, some q)] }, spn := { hub1.spn with sessions := [(0, some sess0)] }
              mem := (List.range 64).map fun i => (0x10000 + i, (bytesOf e).getD i 0) }
/-- The eight doublewords of an entry: tag 7, opcode, partner, length and buffer at 0x40000. -/
def entry (op partner len : Nat) : List Word := [BitVec.ofNat 64 (7 * 2 ^ 32 + partner * 2 ^ 16 + op), BitVec.ofNat 64 (len * 2 ^ 32), 0, if len = 0 then 0 else 0x40000, 0, 0, 0, 0]

/-- The entry of an engine's operation, with its parameter block at 0x40000. -/
def engEntry (op : Nat) : List Word := [BitVec.ofNat 64 (7 * 2 ^ 32 + op), 0x1000000000, 0, 0, 0, 0x40000, 0, 0]
/-- A state whose counters are others. -/
def recount (s : State) (c : Cnt) : State := { s with cnt := c }
/-- The state once the entry is fetched: the read is counted. -/
def gotten (s : State) (q : Ring) : State := recount s (s.hubRd q.part (q.sqBase + 64 * (q.consumed % 2 ^ q.log2)) 64).1.cnt
def servesB (s : State) (q : Ring) (e : List Word) : Bool :=
  let x := s.hubRd q.part (q.sqBase + 64 * (q.consumed % 2 ^ q.log2)) 64
  decide (s.ring 5 = some q ∧ q.admitted = none ∧ s.servable q = true ∧ s.servedNext 5 q = true ∧ x.1 = gotten s q) &&
    (match x.2 with | .ok bs => decide (e = (List.range 8).map fun i => dword bs i |> BitVec.ofNat 64) | .error _ => false)
theorem serves_of {s : State} {q : Ring} {e : List Word} (h : servesB s q e = true) : Serves s 5 q e (gotten s q) := by
  simp only [servesB, Bool.and_eq_true, decide_eq_true_eq] at h
  obtain ⟨⟨h1, h2, h3, h4, h5⟩, h6⟩ := h
  refine ⟨h1, h2, ⟨h3, h4⟩, ?_⟩
  generalize gotten s q = u at h5 ⊢
  generalize s.hubRd q.part (q.sqBase + 64 * (q.consumed % 2 ^ q.log2)) 64 = x at h5 h6 ⊢
  rcases x with ⟨v, b | bs⟩
  · simp at h6
  · exact ⟨bs, by rw [show v = u from h5], by simpa using h6⟩
/-- Other parts of the state than these decide whether a hub transfer translates, whether memory answers and whether the module is calm. -/
theorem same_hub (s : State) (c : Cnt) (r : Css) (p : Span) (m : List Host.Cell) (i : Nat) (w : Bool) :
    (∀ e, State.hubCached s 1 i = some e → State.pmtIn s 1 i = true → s2Perm (if w then .store else .load) e = none →
      State.hubEntry (recount { s with css := r, spn := p, mem := m } c) 1 i w = .ok (e, false)) := by
  intro e h1 h2 h3
  have h1' : State.hubCached (recount { s with css := r, spn := p, mem := m } c) 1 i = some e := h1
  have h2' : State.pmtIn (recount { s with css := r, spn := p, mem := m } c) 1 i = true := h2
  simp [State.hubEntry, State.pmtGet, h1', h2', h3]
theorem same_rest (s : State) (c : Cnt) (r : Css) (p : Span) (m : List Host.Cell) (a : Nat) :
    State.memOk (recount { s with css := r, spn := p, mem := m } c) a = s.memOk a ∧ State.calm { s with css := r, spn := p, mem := m } = s.calm := ⟨rfl, rfl⟩
theorem complete0 (e : List Word) : CanComplete (gotten (ringed ring0 e) ring0) ring0 0x20000 := by
  have p : State.hubCached hub1 1 0 = some 0xE1 ∧ State.pmtIn hub1 1 0 = true ∧ hub1.memOk 0x20000 = true ∧ (∀ m, (hub1.lp m).l2.ways = []) ∧
      ∀ d, (hub1.l3Of d).ways = [] := by decide +kernel
  refine ⟨rfl, ⟨0xE1, same_hub hub1 _ _ _ _ 0 true _ p.1 p.2.1 (by decide), by decide, by decide⟩, by decide, (same_rest hub1 _ _ _ _ _).1.trans p.2.2.1,
    oneCopy_of (fun m => p.2.2.2.1 m) (fun d => p.2.2.2.2 d) _⟩
theorem listed (q : Ring) (e : List Word) : Listed (ringed q e) := ⟨rfl, rfl⟩
theorem work_ringed (q : Ring) (e : List Word) : Working (ringed q e) := by
  have h : hub1.calm = true ∧ hub1.kst.phase = .released := by decide +kernel
  exact ⟨(same_rest hub1 hub1.cnt _ _ _ 0).2.trans h.1, h.2⟩

/-- `NOP`, a zero length, an unknown partner, an entry with a Reserved bit, and an opcode that is none. -/
theorem wit_admission_done : ∀ e ∈ [entry 0 0 0, entry 1 0 0, entry 2 1 16, entry 0x10 1 0, entry 0x40 0 0], servesB (ringed ring0 e) ring0 e = true ∧
    (refused (ringed ring0 e) ring0 e).isSome = true := by
  intro e h
  simp only [List.mem_cons, List.not_mem_nil, or_false] at h
  rcases h with rfl | rfl | rfl | rfl | rfl
  all_goals exact ⟨by decide +kernel, by decide +kernel⟩
theorem admits {q : Ring} {e : List Word} {want : Option Nat} (h : servesB (ringed q e) q e = true) (w : want = none ∨ want = some (subOp e))
    (r : match refused (ringed q e) q e with
      | some _ => ∃ a, CanComplete (gotten (ringed q e) q) q a
      | none => opEngine (subOp e) = true ∨ ((gotten (ringed q e) q).admitMove q e).2 = .journal) :
    (admitted (ringed q e) 5 want).pre := ⟨listed q e, .inl ⟨q, e, _, serves_of h, w, r⟩⟩
theorem wit_opNop : Meets Working ringEvent (ringed ring0 (entry 0 0 0)) (.opNop 5) ∧ Meets Working ringEvent (ringed ring0 (entry 0 0 0)) (.entryAdmission 5) := by
  have h : servesB (ringed ring0 (entry 0 0 0)) ring0 (entry 0 0 0) = true := (wit_admission_done _ (by simp)).1
  have r : refused (ringed ring0 (entry 0 0 0)) ring0 (entry 0 0 0) = some 0 := by decide +kernel
  exact ⟨⟨work_ringed _ _, _, rfl, admits h (.inr (by decide)) (by rw [r]; exact ⟨_, complete0 _⟩)⟩,
    work_ringed _ _, _, rfl, admits h (.inl rfl) (by rw [r]; exact ⟨_, complete0 _⟩)⟩
theorem admits_none {q : Ring} {e : List Word} {want : Option Nat} (h : servesB (ringed q e) q e = true) (w : want = none ∨ want = some (subOp e))
    (r : refused (ringed q e) q e = none) (m : opEngine (subOp e) = true ∨ ((gotten (ringed q e) q).admitMove q e).2 = .journal) :
    (admitted (ringed q e) 5 want).pre := admits h w (by rw [r]; exact m)
/-- READ, WRITE and CONTROL go to the journal, the engines' operations to their queues. -/
theorem wit_admission : (Meets Working ringEvent (ringed ring0 (entry 1 0 16)) (.opRead 5) ∧ Meets Working ringEvent (ringed ring0 (entry 2 0 16)) (.opWrite 5) ∧
      Meets Working ringEvent (ringed ring0 (entry 3 0 0)) (.opControl 5)) ∧
    Meets Working ringEvent (ringed ring0 (engEntry 0x10)) (.opCompress 5) ∧ Meets Working ringEvent (ringed ring0 (engEntry 0x11)) (.opDecompress 5) ∧
    Meets Working ringEvent (ringed ring0 (engEntry 0x18)) (.opCipher 5) := by
  refine ⟨⟨?_, ?_, ?_⟩, ?_, ?_, ?_⟩
  all_goals refine ⟨work_ringed _ _, _, rfl, admits_none (by decide +kernel) (.inr (by decide +kernel)) (by decide +kernel) ?_⟩
  all_goals decide +kernel
/-- A ring whose next entry has passed its checks and waits for a free slot, which there is now. -/
def ringWait : Ring := { ring0 with admitted := some (entry 1 0 16) }
theorem wit_admitted : Meets Working ringEvent (ringed ringWait (entry 1 0 16)) (.entryAdmission 5) ∧ ((ringed ringWait (entry 1 0 16)).ring 5) = some ringWait :=
  ⟨⟨work_ringed _ _, _, rfl, listed _ _, .inr ⟨ringWait, entry 1 0 16, by decide +kernel⟩⟩, rfl⟩
/-- The first and the last line, in the increment and beyond the PMT, to be watched and to be freed. -/
theorem wit_cssDblWrite (line : Fin 1024) (v : Word) : Meets Working ringEvent hub1 (.cssDblWrite line v) ∧
    (∃ l, hub1.dblLine 1 (bits (0x8000100000000080 : Word) 43 7 * 128) = some l) ∧ hub1.dblLine 1 (2 ^ 28) = none ∧ hub1.dblUsed line.val = false :=
  ⟨⟨calm_of (by decide +kernel), _, rfl, fun _ => soft_of (by decide +kernel)⟩, Option.isSome_iff_exists.1 (by decide +kernel), by decide +kernel, rfl⟩
/-- Line 0 is watched, at 0x50000, for ring 5. -/
def watched : State :=
  let s := ringed ring0 (entry 0 0 0)
  { s with css := { s.css with watch := [(0, some { line := 0xA00, stale := true })] } }
theorem wit_doorbellReread : Meets Working ringEvent watched (.doorbellReread 0) ∧ watched.dblUsed 0 = true := by
  refine ⟨⟨calm_of (by decide +kernel), _, rfl, ⟨rfl, rfl⟩, _, rfl, by decide +kernel, fun r q hr _ => ?_⟩, rfl⟩
  have h : r = 5 ∧ q = ring0 := by
    replace hr : smGet (fun _ => none) [(5, some ring0)] r = some q := hr
    unfold smGet at hr
    by_cases k : r = 5
    · subst k
      exact ⟨rfl, (Option.some.inj hr).symm⟩
    · rw [if_neg k] at hr
      cases hr
  obtain ⟨rfl, rfl⟩ := h
  exact ⟨by decide, by decide +kernel⟩
theorem soft_same (s : State) (r : Css) (p : Span) (m : List Host.Cell) (src : Nat) (h : Soft s src) : Soft { s with css := r, spn := p, mem := m } src := h
theorem soft_4C4 (q : Ring) (e : List Word) : Soft (ringed q e) 0x4C4 := by
  have h : Soft hub1 0x4C4 := soft_of (by decide +kernel)
  exact soft_same hub1 _ _ _ _ h
/-- A free number, one in use, one that drains, one in ERROR. -/
theorem wit_ringCommands (r : BitVec 14) : Meets Working ringEvent hub1 (.createRing r) ∧ Meets Working ringEvent hub1 (.destroyRing r) ∧
    Meets Working ringEvent hub1 (.retargetRing r) ∧ Meets Working ringEvent hub1 (.resumeRing r) := by
  have w : Working hub1 := calm_of (by decide +kernel)
  have z : hub1.flag aCssRcmdStatus 63 = false := by decide +kernel
  have n : ∀ k, hub1.ring k = none := fun _ => rfl
  exact ⟨⟨w, _, rfl, z, fun _ => soft_of (by decide +kernel)⟩, ⟨w, _, rfl, z, fun q h => by rw [n] at h; cases h⟩, ⟨w, _, rfl, z⟩,
    w, _, rfl, z, fun q h => by rw [n] at h; cases h⟩
theorem ring5 (q : Ring) (e : List Word) : (ringed q e).ring 5 = some q := rfl
theorem wit_ringCommands_used : Meets Working ringEvent (ringed ring0 []) (.createRing 5) ∧ Meets Working ringEvent (ringed ring0 []) (.destroyRing 5) ∧
    Meets Working ringEvent (ringed { ring0 with state := 3 } []) (.destroyEnd 5) ∧ Meets Working ringEvent (ringed ring0 []) (.retargetRing 5) ∧
    Meets Working ringEvent (ringed { ring0 with state := 2 } []) (.resumeRing 5) ∧ Meets Working ringEvent (ringed ring0 []) (.queryRing 5) := by
  refine ⟨⟨work_ringed _ _, _, rfl, by decide +kernel, fun _ => soft_4C4 _ _⟩,
    ⟨work_ringed _ _, _, rfl, by decide +kernel, fun q h => by cases (ring5 ring0 []).symm.trans h; decide⟩,
    ⟨work_ringed _ _, _, rfl, by decide +kernel, _, rfl, rfl⟩, ⟨work_ringed _ _, _, rfl, by decide +kernel⟩,
    ⟨work_ringed _ _, _, rfl, by decide +kernel, fun q h _ => by cases (ring5 { ring0 with state := 2 } []).symm.trans h; exact ⟨rfl, by decide +kernel, fun _ => soft_4C4 _ _⟩⟩,
    work_ringed _ _, _, rfl, by decide +kernel, by decide +kernel, by decide +kernel, oneCopy_of (by decide +kernel) (by decide +kernel) _⟩
theorem wit_cssJrnlWrite (p : Fin 32) (v : Word) : Meets Working ringEvent hub1 (.cssJrnlWrite p v) ∧ hub1.partRing 1 = false ∧
    Meets Working ringEvent (ringed ring0 []) (.cssJrnlWrite 0 v) ∧ (ringed ring0 []).partRing 1 = true :=
  ⟨⟨calm_of (by decide +kernel), _, rfl, trivial⟩, rfl, ⟨work_ringed _ _, _, rfl, trivial⟩, rfl⟩
/-- A READ in PREPARED. -/
def jent0 : JEnt :=
  { tag := 7, ring := 5, part := 1, state := 1, seq := 0, epoch := 0, path := 0, session := 0, unknown := false, cqCount := 0, redrives := 0, pstatus := 0
    prepTod := 0, result := 0, aux := 0, sub := entry 1 0 16, dirty := true, warm := false, resume := false, sent := 0 }
/-- Slot 3 of partition 1 holds it; port 0 has credits or not. -/
def prepared (credit : Nat) : State :=
  let s := ringed ring0 []
  { s with css := { s.css with jent := [(65539, some jent0)] }, spn := { s.spn with ports := [(0, { SpanPort.reset with credit1 := credit })] } }
theorem listed_prepared (c : Nat) : Listed (prepared c) := ⟨rfl, rfl⟩
theorem wit_operationIssue : ∀ c ∈ [0, 1], Meets Working ringEvent (prepared c) (.operationIssue 0 3) := by
  intro c h
  simp only [List.mem_cons, List.not_mem_nil, or_false] at h
  rcases h with rfl | rfl
  · exact ⟨calm_of (by decide +kernel), _, rfl, jent0, sess0, 0, by decide +kernel, rfl, rfl, rfl, rfl, by decide +kernel, by decide +kernel, by decide +kernel, listed_prepared _,
      .inl (by decide +kernel)⟩
  · exact ⟨calm_of (by decide +kernel), _, rfl, jent0, sess0, 0, by decide +kernel, rfl, rfl, rfl, rfl, by decide +kernel, by decide +kernel, by decide +kernel, listed_prepared _,
      .inr (by decide +kernel)⟩
theorem wit_journalWriteback : Meets Working ringEvent (prepared 0) (.journalWriteback 0 3) :=
  ⟨calm_of (by decide +kernel), _, rfl, by decide +kernel, by decide +kernel, oneCopy_of (by decide +kernel) (by decide +kernel) _, jent0, by decide +kernel, rfl⟩
/-- Partition 1 waits for its PMT. -/
def deferred1 : State := { hub1 with css := { hub1.css with deferred := 2 } }
theorem wit_hubPmtWriteResume (p : Fin 32) (v : Word) : Meets Working ringEvent deferred1 (.hubPmtWriteResume p v) := by
  have n : deferred1.css.rings = [] ∧ deferred1.css.jent = [] ∧ deferred1.spn.ports = [] ∧ deferred1.spn.closing = none := by decide +kernel
  refine ⟨calm_of (by decide +kernel), _, rfl, ⟨n.2.1, fun p => ?_, n.2.2.2⟩, fun r q h => ?_, ?_, ?_⟩
  · simp [State.port, n.2.2.1, smGet, SpanPort.reset]
  · simp [State.ring, n.1, smGet] at h
  · rw [n.1]; rfl
  · rw [n.2.1]; rfl

/-! ### Witnesses: Span ports and sessions -/

/-- Port 0 in a state, with a link layer. -/
def ported (st : Word) (p : SpanPort) : State :=
  let s := withRegs [(aSpnPortStatus 0, st)] hub1
  { s with spn := { s.spn with ports := [(0, p)] } }
/-- A frame that has left with an LSN and has been replayed k times. -/
def frame (lsn k : Nat) : Frame :=
  { lsn := lsn, vc := 0, stype := 0, dst := 0, session := 0, path := 0, seq := 0, frameNo := 0, last := true, words := [], payload := [], replays := k }
/-- A link layer with such frames unacknowledged. -/
def linked (fs : List Frame) : SpanPort := { SpanPort.reset with unacked := fs, credit0 := 3 }
theorem soft_port (st : Word) (p : SpanPort) (h : st = 1 ∨ st = 2 ∨ st = 3) : Soft (ported st p) 0x2C0 ∧ Soft (ported st p) 0x2C1 ∧ Soft (ported st p) 0x2C2 := by
  have g : ∀ st ∈ [(1 : Word), 2, 3], Soft (withRegs [(aSpnPortStatus 0, st)] hub1) 0x2C0 ∧ Soft (withRegs [(aSpnPortStatus 0, st)] hub1) 0x2C1 ∧
      Soft (withRegs [(aSpnPortStatus 0, st)] hub1) 0x2C2 := by
    intro st h
    simp only [List.mem_cons, List.not_mem_nil, or_false] at h
    rcases h with rfl | rfl | rfl <;> exact ⟨soft_of (by decide +kernel), soft_of (by decide +kernel), soft_of (by decide +kernel)⟩
  have h : Soft (withRegs [(aSpnPortStatus 0, st)] hub1) 0x2C0 ∧ Soft (withRegs [(aSpnPortStatus 0, st)] hub1) 0x2C1 ∧
      Soft (withRegs [(aSpnPortStatus 0, st)] hub1) 0x2C2 := g st (by simpa using h)
  exact ⟨soft_same _ _ _ _ _ h.1, soft_same _ _ _ _ _ h.2.1, soft_same _ _ _ _ _ h.2.2⟩
theorem wit_portStates : Meets Working portEvent (ported 2 SpanPort.reset) (.spnLaneDegrade 0) ∧ Meets Working portEvent (ported 3 SpanPort.reset) (.spnLaneDegrade 0) ∧
    Meets Working portEvent (ported 2 SpanPort.reset) (.spnPortFail 0 5) ∧ Meets Working portEvent (ported 1 SpanPort.reset) (.portRetrain 0 true) ∧
    Meets Working portEvent (ported 1 SpanPort.reset) (.portRetrain 0 false) := by
  refine ⟨⟨calm_of (by decide +kernel), _, rfl, by unfold NoPath; decide +kernel, fun _ => (soft_port 2 _ (by simp)).1, fun _ => (soft_port 2 _ (by simp)).2.1⟩,
    ⟨calm_of (by decide +kernel), _, rfl, by unfold NoPath; decide +kernel, fun _ => (soft_port 3 _ (by simp)).1, fun _ => (soft_port 3 _ (by simp)).2.1⟩,
    ⟨calm_of (by decide +kernel), _, rfl, by unfold NoPath; decide +kernel, fun _ => (soft_port 2 _ (by simp)).2.1⟩,
    ⟨calm_of (by decide +kernel), _, rfl, by unfold NoPath; decide +kernel, fun _ _ => (soft_port 1 _ (by simp)).2.2⟩,
    ⟨calm_of (by decide +kernel), _, rfl, by unfold NoPath; decide +kernel, fun _ _ => (soft_port 1 _ (by simp)).2.2⟩⟩
/-- A replay of a frame kept, of one replayed eight times, and of one that is not kept. -/
theorem wit_replayReq : Meets Working portEvent (ported 2 (linked [frame 4 0])) (.replayReq 0 4) ∧ Meets Working portEvent (ported 2 (linked [frame 4 8])) (.replayReq 0 4) ∧
    replaySpent [frame 4 8] 4 = true ∧ Meets Working portEvent (ported 2 (linked [])) (.replayReq 0 4) ∧
    Meets Working portEvent (ported 2 (linked [frame 4 7])) (.ackTimeoutReplay 0) := by
  refine ⟨⟨calm_of (by decide +kernel), _, rfl, by unfold NoPath; decide +kernel, fun _ => (soft_port 2 _ (by simp)).2.1⟩,
    ⟨calm_of (by decide +kernel), _, rfl, by unfold NoPath; decide +kernel, fun _ => (soft_port 2 _ (by simp)).2.1⟩, by decide,
    ⟨calm_of (by decide +kernel), _, rfl, by unfold NoPath; decide +kernel, fun _ => (soft_port 2 _ (by simp)).2.1⟩,
    ⟨calm_of (by decide +kernel), _, rfl, by decide +kernel⟩⟩
theorem idle_port (p : SpanPort) (h : p.queue = []) : PortIdle (ported 2 p) 0 := ⟨h, fun e he => by cases he⟩
/-- Every kind, the next frame, an old one and a gap. -/
theorem wit_frameReceive : ∀ k (lsn ack a b : BitVec 16), Meets Working portEvent (ported 2 (linked [frame 4 0])) (.frameReceive 0 k lsn ack a b) := by
  have w : Working (ported 2 (linked [frame 4 0])) := calm_of (by decide +kernel)
  have o : (ported 2 (linked [frame 4 0])).portOk 0 = true := by decide +kernel
  exact fun k lsn ack a b => ⟨w, _, rfl, o, idle_port _ rfl, by decide, by decide⟩
theorem wit_fabric (peer : Bool) (a : BitVec 24) (v : Word) : Meets Working portEvent (ported 2 SpanPort.reset) (.fabricLogin 0 peer v) ∧
    Meets Working portEvent (ported 2 SpanPort.reset) (.arrive 0 a v) ∧ Meets Working portEvent (ported 2 SpanPort.reset) (.depart 0 a) := by
  have w : Working (ported 2 SpanPort.reset) := calm_of (by decide +kernel)
  have o : (ported 2 SpanPort.reset).portOk 0 = true := by decide +kernel
  have n : (ported 2 SpanPort.reset).pathList = [] := by decide +kernel
  exact ⟨⟨w, _, rfl, o, fun _ => rfl⟩, ⟨w, _, rfl, o, fun e h => by rw [n] at h; cases h⟩, w, _, rfl, o, fun e h => by rw [n] at h; cases h⟩
/-- The tick runs, and Span port 0 is trained. -/
def s2 : State := running (withRegs [(aSpnPortStatus 0, 2)] s0)
theorem work2 : Working s2 := calm_of (by decide +kernel)
theorem plain2 : PlainTick s2 := plain_of (by decide +kernel)
theorem nodev2 : NoDevice s2 := ⟨by decide +kernel, by decide +kernel⟩
theorem notlost2 : NotLost s2 := .inl (by decide +kernel)
/-- Session 0 is x; the tick runs. -/
def holding (x : Session) : State := { s2 with spn := { s2.spn with sessions := [(0, some x)] } }
/-- A session with path 0 as given, and path 1 or none. -/
def sess8 (p : Path) (rest : List Path) (f : Session → Session) : Session := f { sess0 with paths := p :: (rest ++ List.replicate (7 - rest.length) Path.none) }
/-- A path over port 0. -/
def path0 (st sends : Nat) (login ka : Option Ival) : Path :=
  { valid := true, pstate := st, port := 0, faddr := 3, sends := sends, login := login, ka := ka, tx := false, rx := false }
/-- An interval that ends at once. -/
def ending : Option Ival := some { ticks := 1, due := some 0 }
theorem work_holding (x : Session) : Working (holding x) := by
  exact ⟨(same_rest s2 s2.cnt s2.css _ s2.mem 0).2.trans work2.1, work2.2⟩
theorem nowork_holding (x : Session) : NoWork (holding x) := by
  have n : s2.css.jent = [] ∧ s2.spn.ports = [] ∧ s2.spn.closing = none := by decide +kernel
  refine ⟨n.1, fun p => ?_, n.2.2⟩
  show (smGet (fun _ => SpanPort.reset) s2.spn.ports p).queue = []
  rw [n.2.1]; rfl
theorem holds_holding (x : Session) (h : x.paths.length = 8) : Holds (holding x) 0 x := ⟨rfl, h, nowork_holding x⟩
theorem same_tick (s : State) (r : Css) (p : Span) (m : List Host.Cell) (h : PlainTick s) (l : NotLost s) : PlainTick { s with css := r, spn := p, mem := m } ∧
    NotLost { s with css := r, spn := p, mem := m } := ⟨⟨h.1, h.2, h.3, h.4⟩, l⟩
theorem same_dev (s : State) (r : Css) (p : Span) (m : List Host.Cell) :
    (∀ n, (s.lp n).devReq = none ∧ (s.lp n).awaited = none ∧ (s.lp n).posted = []) → ∀ n, (State.lp { s with css := r, spn := p, mem := m } n).devReq = none ∧
      (State.lp { s with css := r, spn := p, mem := m } n).awaited = none ∧ (State.lp { s with css := r, spn := p, mem := m } n).posted = [] := fun h => h
theorem same_span (s : State) (r : Css) (p : Span) (m : List Host.Cell) (a : Nat) : SpanOpen s ∧ s.flag aSpnScmdStatus 63 = false ∧ s.memOk a = true →
    SpanOpen { s with css := r, spn := p, mem := m } ∧ State.flag { s with css := r, spn := p, mem := m } aSpnScmdStatus 63 = false ∧
      State.memOk { s with css := r, spn := p, mem := m } a = true := fun h => h
theorem same_copy (s : State) (r : Css) (p : Span) (m : List Host.Cell) (l : Nat) (h : OneCopy s l) : OneCopy { s with css := r, spn := p, mem := m } l := h
theorem alone_holding (x : Session) (h : x.paths.length = 8) : AloneAt (holding x) 0 x :=
  ⟨(same_tick s2 s2.css _ s2.mem plain2 notlost2).1, same_dev s2 s2.css _ s2.mem nodev2.1, (same_tick s2 s2.css _ s2.mem plain2 notlost2).2, rfl, holds_holding x h⟩
theorem ends0 (x : Session) : endsNow (holding x) ending := ⟨_, 0, rfl, rfl, Nat.zero_le _⟩

/-- The session commands, on a free number and on a session. -/
theorem wit_sessionCommands (a : Word) : Meets Working sessionEvent s2 (.openSess 0 a) ∧ Meets Working sessionEvent s2 (.modifySess 0 a) ∧
    Meets Working sessionEvent s2 (.closeSess 0) ∧ Meets Working sessionEvent s2 (.sessionQuery 0 0x2000) ∧
    Meets Working sessionEvent (holding (sess8 (path0 2 0 none none) [] id)) (.openSess 0 a) ∧
    Meets Working sessionEvent (holding (sess8 (path0 2 0 none none) [] id)) (.modifySess 0 a) ∧
    Meets Working sessionEvent (holding (sess8 (path0 2 0 none none) [] id)) (.closeSess 0) ∧
    Meets Working sessionEvent (holding (sess8 (path0 2 0 none none) [] id)) (.sessionQuery 0 0x2000) := by
  have o : SpanOpen s2 ∧ s2.flag aSpnScmdStatus 63 = false ∧ s2.memOk 0x2000 = true := by unfold SpanOpen; decide +kernel
  have n : s2.spn.ports = [] ∧ s2.spn.sessions = [] ∧ s2.css.jent = [] ∧ s2.spn.closing = none := by decide +kernel
  have q : ∀ p, (s2.port p).queue = [] := fun p => by simp [State.port, n.1, smGet, SpanPort.reset]
  have w : NoWork s2 := ⟨n.2.2.1, q, n.2.2.2⟩
  have x : ∀ i, s2.session i = none := fun i => by simp [State.session, n.2.1, smGet]
  have c : ∀ l, OneCopy s2 l := oneCopy_of (by decide +kernel) (by decide +kernel)
  have o' : ∀ x, SpanOpen (holding x) ∧ (holding x).flag aSpnScmdStatus 63 = false ∧ (holding x).memOk 0x2000 = true :=
    fun x => same_span s2 s2.css _ s2.mem 0x2000 o
  exact ⟨⟨work2, _, rfl, o.1, o.2.1, q⟩, ⟨work2, _, rfl, o.1, o.2.1, w, fun y h => by rw [x] at h; cases h⟩, ⟨work2, _, rfl, o.1, o.2.1, w⟩,
    ⟨work2, _, rfl, o.1, o.2.1, by decide, o.2.2, c _, c _⟩,
    ⟨work_holding _, _, rfl, (o' _).1, (o' _).2.1, (nowork_holding _).2.1⟩,
    ⟨work_holding _, _, rfl, (o' _).1, (o' _).2.1, nowork_holding _, fun y h => by cases (show some _ = some y from h); decide⟩,
    ⟨work_holding _, _, rfl, (o' _).1, (o' _).2.1, nowork_holding _⟩,
    work_holding _, _, rfl, (o' _).1, (o' _).2.1, by decide, (o' _).2.2, same_copy s2 s2.css _ s2.mem _ (c _), same_copy s2 s2.css _ s2.mem _ (c _)⟩

/-- A session whose path 0 logs in, or is usable. -/
def logging (f : Session → Session) : Session := sess8 (path0 1 5 none none) [] f
def usable (f : Session → Session) : Session := sess8 (path0 2 0 none none) [] f
theorem soft2 : Soft s2 0x2C3 ∧ Soft s2 0x2C4 ∧ s2.portOk 0 = true := ⟨soft_of (by decide +kernel), soft_of (by decide +kernel), by decide +kernel⟩
theorem same_port (s : State) (r : Css) (p : Span) (m : List Host.Cell) (k : Nat) (h : s.portOk k = true) : State.portOk { s with css := r, spn := p, mem := m } k = true := h
theorem soft_holding (x : Session) : Soft (holding x) 0x2C3 ∧ Soft (holding x) 0x2C4 ∧ (holding x).portOk 0 = true :=
  ⟨soft_same _ _ _ _ _ soft2.1, soft_same _ _ _ _ _ soft2.2.1, same_port _ _ _ _ _ soft2.2.2⟩
/-- Any answer to a login: no common revision, another name, another revision, success; any reason. -/
theorem wit_logins (m r : Byte) (v : Word) : Meets Working sessionEvent (holding (logging id)) (.loginAccept 0 0 m v) ∧
    Meets Working sessionEvent (holding (logging fun x => { x with rev := 0, sstate := 1 })) (.loginAccept 0 0 m v) ∧
    Meets Working sessionEvent (holding (logging id)) (.loginReject 0 0 r) :=
  ⟨⟨work_holding _, _, rfl, _, holds_holding _ rfl, rfl, rfl, by decide, (soft_holding _).2.2, (soft_holding _).2.1⟩,
    ⟨work_holding _, _, rfl, _, holds_holding _ rfl, rfl, rfl, by decide, (soft_holding _).2.2, (soft_holding _).2.1⟩,
    work_holding _, _, rfl, _, holds_holding _ rfl, rfl, by decide, (soft_holding _).2.1, .inr (soft_holding _).1⟩
/-- The fifth LOGIN without an answer, and one before. -/
theorem wit_loginTimeout : Meets Working sessionEvent (holding (sess8 (path0 1 5 ending none) [] id)) (.loginTimeout 0 0) ∧
    Meets Working sessionEvent (holding (sess8 (path0 1 4 ending none) [] id)) (.loginTimeout 0 0) :=
  ⟨⟨work_holding _, _, rfl, _, alone_holding _ rfl, rfl, rfl, by decide, rfl, rfl, rfl, ends0 _⟩,
    work_holding _, _, rfl, _, alone_holding _ rfl, rfl, rfl, by decide, rfl, rfl, rfl, ends0 _⟩
theorem wit_sessionIntervals : Meets Working sessionEvent (holding (sess8 (path0 2 0 none ending) [] id)) (.keepaliveTimeout 0 0) ∧
    Meets Working sessionEvent (holding (usable fun x => { x with sstate := 3, wait := ending })) (.pathWaitExpiry 0) ∧
    Meets Working sessionEvent (holding (usable fun x => { x with sstate := 3, resume := ending })) (.resumeTicksExpiry 0) :=
  ⟨⟨work_holding _, _, rfl, _, alone_holding _ rfl, rfl, rfl, rfl, rfl, rfl, rfl, ends0 _⟩,
    ⟨work_holding _, _, rfl, _, alone_holding _ rfl, by decide, ends0 _⟩, work_holding _, _, rfl, _, alone_holding _ rfl, by decide, ends0 _⟩
/-- Two usable paths, one, and one that logs in. -/
def twoPaths : Session := sess8 (path0 2 0 none none) [path0 2 0 none none] id
theorem wit_paths (b : Bool) : Meets Working sessionEvent (holding (usable id)) (.logout 0 0 b) ∧ Meets Working sessionEvent (holding (logging id)) (.logout 0 0 b) ∧
    Meets Working sessionEvent (holding (usable id)) (.pathFailed 0 0) ∧ Meets Working sessionEvent (holding twoPaths) (.pathFailed 0 0) ∧
    Meets Working sessionEvent (holding (usable id)) (.keepalive 0 0) :=
  ⟨⟨work_holding _, _, rfl, _, holds_holding _ rfl, rfl, by decide⟩, ⟨work_holding _, _, rfl, _, holds_holding _ rfl, rfl, by decide⟩,
    ⟨work_holding _, _, rfl, _, holds_holding _ rfl, rfl, rfl, rfl⟩, ⟨work_holding _, _, rfl, _, holds_holding _ rfl, rfl, rfl, rfl⟩,
    work_holding _, _, rfl, _, rfl, rfl⟩
/-- A READ is ISSUED on the session, sequence number 4 of epoch 9, with data held or not; its ring is in ERROR; transfers of partition 1 are deferred or not. -/
def issued (held : List (Nat × List Byte)) : JEnt := { jent0 with state := 2, seq := 4, epoch := 9, held := held }
def reading (held : List (Nat × List Byte)) (deferred : Nat) : State :=
  { hub1 with
    css := { hub1.css with rings := [(5, some { ring0 with state := 2 })], jent := [(65539, some (issued held))], deferred := deferred }
    spn := { hub1.spn with sessions := [(0, some (usable id))] } }
theorem work_reading (h : List (Nat × List Byte)) (d : Nat) : Working (reading h d) := by
  have k : hub1.calm = true ∧ hub1.kst.phase = .released := by decide +kernel
  exact ⟨(same_rest hub1 hub1.cnt _ _ hub1.mem 0).2.trans k.1, k.2⟩
theorem ring_reading (h : List (Nat × List Byte)) (d r : Nat) (q : Ring) (e : (reading h d).ring r = some q) : q.state = 2 ∧ q.noCq = false := by
  replace e : smGet (fun _ => none) [(5, some { ring0 with state := 2 })] r = some q := e
  unfold smGet at e
  by_cases k : r = 5
  · rw [if_pos k] at e
    cases e
    exact ⟨rfl, rfl⟩
  · rw [if_neg k] at e
    cases e
theorem op_of (s : State) (r : Css) (p : Span) (m : List Host.Cell) (j : JEnt) (h : r.jent = [(65539, some j)]) (hj : j.state = 2 ∧ j.session = 0 ∧ j.seq = 4 ∧ j.epoch = 9) :
    State.findOp { s with css := r, spn := p, mem := m } 0 4 9 = some (1, 3, j) := by
  simp [State.findOp, State.jents, h, hj]
theorem op_reading (h : List (Nat × List Byte)) (d : Nat) : (reading h d).findOp 0 4 9 = some (1, 3, issued h) := op_of hub1 _ _ hub1.mem _ rfl ⟨rfl, rfl, rfl, rfl⟩
theorem meets_answer (h : List (Nat × List Byte)) (c : BitVec 32) (r : Word) (hc : c.toNat ≤ 16) : Meets Working sessionEvent (reading h 0) (.answer 0 0 4 9 c r) := by
  have n : hub1.spn.closing = none := by decide +kernel
  exact ⟨work_reading h 0, _, rfl, ⟨rfl, rfl⟩, _, _, _, _, rfl, rfl, show (2 : Nat) ≠ 4 by decide, rfl, op_reading h 0, show (3 : Nat) < 65536 by decide,
    show c.toNat ≤ subLen jent0.sub from hc, n, ring_reading h 0 _⟩
/-- The answer comes when all data are there, and when some wait for HUB_PMT_1; the count is the length and 0. -/
theorem wit_answer (r : Word) : Meets Working sessionEvent (reading [] 0) (.answer 0 0 4 9 16 r) ∧
    Meets Working sessionEvent (reading [(0, [5])] 0) (.answer 0 0 4 9 0 r) :=
  ⟨meets_answer _ 16 r (by decide), meets_answer _ 0 r (by decide)⟩
theorem entry_same (s : State) (r : Css) (p : Span) (m : List Host.Cell) (i : Nat) (w : Bool) (e : Word) (h1 : State.hubCached s 1 i = some e)
    (h2 : State.pmtIn s 1 i = true) (h3 : s2Perm (if w then .store else .load) e = none) :
    State.hubEntry { s with css := r, spn := p, mem := m } 1 i w = .ok (e, false) := same_hub s s.cnt r p m i w e h1 h2 h3
theorem mem_same (s : State) (r : Css) (p : Span) (m : List Host.Cell) (a : Nat) : State.memOk { s with css := r, spn := p, mem := m } a = s.memOk a := rfl
theorem wit_data : Meets Working sessionEvent (reading [] 0) (.data 0 0 4 9 0 (List.replicate 16 7)) ∧ (reading [] 0).deferredFor 1 = false ∧
    Meets Working sessionEvent (reading [] 2) (.data 0 0 4 9 0 (List.replicate 16 7)) ∧ (reading [] 2).deferredFor 1 = true := by
  have p : State.hubCached hub1 1 0 = some 0xE1 ∧ State.pmtIn hub1 1 0 = true ∧ (∀ b, b < 16 → hub1.memOk (0x40000 + b) = true) ∧ (∀ m, (hub1.lp m).l2.ways = []) ∧
      ∀ d, (hub1.l3Of d).ways = [] := by decide +kernel
  have g : (reading [] 0).hubEntry 1 0 true = .ok (0xE1, false) := entry_same hub1 _ _ hub1.mem 0 true _ p.1 p.2.1 (by decide)
  have z : pmtAbs 0xE1 0x40000 = 0x40000 := by decide
  have l : subBuf (issued []).sub + 8192 * (BitVec.toNat (0 : BitVec 18)) = 0x40000 := by decide
  have d : (reading [] 0).deferredFor 1 = false → let lo := subBuf (issued []).sub + 8192 * (BitVec.toNat (0 : BitVec 18))
      lo / 2 ^ 28 = (lo + (List.replicate 16 (7 : Byte)).length - 1) / 2 ^ 28 ∧ ∃ e, (reading [] 0).hubEntry 1 (lo / 2 ^ 28) true = .ok (e, false) ∧ bits e 2 1 = 0 ∧
        ∀ b, b < (List.replicate 16 (7 : Byte)).length → (reading [] 0).memOk (pmtAbs e lo + b) = true ∧ OneCopy (reading [] 0) ((pmtAbs e lo + b) / 128) := by
    intro _
    dsimp only
    rw [l, List.length_replicate, show 0x40000 / 2 ^ 28 = 0 by decide]
    exact ⟨by decide, 0xE1, g, by decide, fun b hb =>
      ⟨(mem_same hub1 _ _ hub1.mem _).trans ((congrArg (fun a => hub1.memOk (a + b)) z).trans (p.2.2.1 b hb)), same_copy hub1 _ _ hub1.mem _ (oneCopy_of p.2.2.2.1 p.2.2.2.2 _)⟩⟩
  refine ⟨⟨work_reading _ _, _, rfl, ⟨rfl, rfl⟩, _, _, _, _, rfl, show (2 : Nat) ≠ 4 by decide, rfl, op_reading _ _, show (3 : Nat) < 65536 by decide,
      by decide +kernel, by decide +kernel, by decide +kernel, by decide, d⟩, rfl,
    ⟨work_reading _ _, _, rfl, ⟨rfl, rfl⟩, _, _, _, _, rfl, show (2 : Nat) ≠ 4 by decide, rfl, op_reading _ _, show (3 : Nat) < 65536 by decide,
      by decide +kernel, by decide +kernel, by decide +kernel, by decide, fun h => by cases h⟩, rfl⟩

/-! ### Witnesses: resets and the start -/

/-- A step of Keystone that is due. -/
def due (k : Nat) : State := { State.reset with kst := { State.reset.kst with phase := .due k } }
/-- The journal of a released module: it has been loaded, and has changed or not. -/
def loaded (retry : Bool) : State := { s0 with kst := { s0.kst with aon := true, rest := { s0.kst.rest with retryOpt := retry } } }
theorem meets_start {s : State} {i : Instr} {e : Event} (h : startEvent s i = some e) (p : e.pre) : Meets (fun _ => True) startEvent s i := ⟨trivial, e, h, p⟩
theorem wit_resets (s : State) : Meets (fun _ => True) startEvent s .resetNAssert ∧ Meets (fun _ => True) startEvent s .pwrokFall ∧
    Meets (fun _ => True) startEvent s .alwaysOnPowerGood ∧ Meets (fun _ => True) startEvent s .vddAonFall :=
  ⟨meets_start rfl trivial, meets_start rfl trivial, meets_start rfl trivial, meets_start rfl trivial⟩
theorem wit_keystoneStepLimit (env : StartEnv) : Meets (fun _ => True) startEvent (due 2) (.keystoneStepLimit 1 env) ∧
    Meets (fun _ => True) startEvent ((due 2).setFld (aKstStep 2) 1 0 2) (.keystoneStepLimit 1 env) :=
  ⟨meets_start rfl ⟨by decide +kernel, rfl, rfl⟩, meets_start rfl ⟨by decide +kernel, by decide +kernel, rfl⟩⟩
theorem wit_journal : Meets (fun _ => True) startEvent (loaded true) .journalFlashWrite ∧ Meets (fun _ => True) startEvent s0 .clearAttempts ∧
    Meets (fun _ => True) startEvent s0 .retryOpt ∧ Meets (fun _ => True) startEvent s0 .flush :=
  ⟨meets_start rfl ⟨by decide +kernel, rfl⟩, meets_start rfl work0, meets_start rfl work0, meets_start rfl work0⟩

/-- A firmware image of one byte, loaded at 0, and a patch image without words (16 R434, 19 R492). -/
def fw0 : FlashSlot := { bytes := [0x51, 0x4E, 0x46, 0x57, 1, 0, 0, 0x81, 0x10, 0] ++ List.replicate 10 0 ++ [1] ++ List.replicate 4075 0 ++ [0xAA], sigOk := true }
def pch0 : FlashSlot := { bytes := [0x55, 0x43, 0x50, 0x54, 1, 0, 0, 0x81, 0x10, 0] ++ List.replicate 22 0, sigOk := true }
/-- An environment in which every unit works: memory link 0 has 16 GiB, and nothing is attached to Span ports and PCIe links. -/
def env0 : StartEnv :=
  { fwA := fw0, fwB := fw0, patchA := pch0, patchB := pch0, badPlls := [], badDies := [], badCores := [], links := [{ cap := 4, version := 2, width := 8, saved := false, kept := false }]
    badGranules := [], ports := [], roots := [], badEngines := [], badPipes := [], rngOk := true, times := [] }
/-- The fuses let those images through: their key is not revoked, and no minimum revision excludes them. -/
def FusesLet : Prop := Config.keyRevoked 0 = false ∧ Config.fwMinRev = 0 ∧ Config.patchMinRev = 0
theorem fw0_fine (h : FusesLet) : fwReason fw0 = 0 := by
  have b : (fw0.bytes.length < 0x1000 || fw0.bytes.take 4 ≠ [0x51, 0x4E, 0x46, 0x57]) = false ∧
      (imgNum fw0.bytes 4 2 ≠ 1 || !imgZero fw0.bytes 0x0A 6 || !imgZero fw0.bytes 0x30 4048) = false ∧
      (imgNum fw0.bytes 6 2 ≠ 0x8100 || imgNum fw0.bytes 8 1 ≠ 0x10) = false ∧ imgNum fw0.bytes 9 1 = 0 ∧
      (fwSize fw0.bytes = 0 || decide (32501664 < fwSize fw0.bytes)) = false := by decide +kernel
  unfold fwReason
  simp only [b.1, b.2.1, b.2.2.1, b.2.2.2.1, b.2.2.2.2, h.1, h.2.1]
  rfl
theorem pch0_fine (h : FusesLet) : pchReason pch0 = 0 := by
  have b : (pch0.bytes.length < 0x20 || pch0.bytes.take 4 ≠ [0x55, 0x43, 0x50, 0x54]) = false ∧
      (imgNum pch0.bytes 4 2 ≠ 1 || !imgZero pch0.bytes 0x0D 3 || !imgZero pch0.bytes 0x14 12) = false ∧
      (imgNum pch0.bytes 6 2 ≠ 0x8100 || imgNum pch0.bytes 8 1 ≠ 0x10) = false ∧ imgNum pch0.bytes 9 1 = 0 ∧
      (1024 < pchW pch0.bytes || 64 < pchM pch0.bytes) = false ∧ pchOk pch0.bytes = true := by decide +kernel
  unfold pchReason
  simp only [b.1, b.2.1, b.2.2.1, b.2.2.2.1, b.2.2.2.2, h.1, h.2.2]
  rfl

/-- What the first try of a slot leaves where both images are accepted (16 R436, 19 R493). -/
def pickSlot0 (firstB : Bool) : Option Bool × Nat × Nat := (some firstB, 0, 0)
theorem pick_of {r : FlashSlot → Nat} {f : FlashSlot} (h : r f = 0) (b : Bool) : pickSlot r f f b = pickSlot0 b := by
  cases b <;> simp [pickSlot, pickSlot0, h]
/-- Steps 6 and 7 of such a start. -/
def fwTaken (f : FlashSlot) (s : State) (other : Bool) : State :=
  let b := decide (s.kst.rest.fwSlot = 1) != other
  let s := s.setReg aKstFw (w64 (imgNum f.bytes 0x10 4 * 2 ^ 32 + 0 * 2 ^ 8 + 0 * 2 ^ 4 + 2 * b2n b + imgNum f.bytes 9 1))
  { s with kst := { s.kst with rest := { s.kst.rest with fwSlot := b2n b } } }
theorem fwCheck_of {f : FlashSlot} (h : fwReason f = 0) (env : StartEnv) (hA : env.fwA = f) (hB : env.fwB = f) (s : State) (o : Bool) :
    s.fwCheck env o = (fwTaken f s o, true) := by
  unfold State.fwCheck
  dsimp only
  rw [hA, hB, pick_of h]
  unfold fwTaken
  generalize (decide (s.kst.rest.fwSlot = 1) != o) = b
  cases b <;> rfl
def pchTaken (f : FlashSlot) (s : State) (other : Bool) : State :=
  let b := decide (s.kst.rest.patchSlot = 1) != other
  let bs := f.bytes
  let s := s.setReg aHubUcStatus (w64 (imgNum bs 0x10 4 * 2 ^ 32 + 0 * 2 ^ 28 + 0 * 2 ^ 24 + pchM bs * 2 ^ 16 + pchW bs * 2 ^ 5
      + 4 * b2n b + 2 * imgNum bs 9 1 + 1))
  { s with kst := { s.kst with patch := { words := pchWords bs, matches_ := pchMatches bs }
                               rest := { s.kst.rest with patchSlot := b2n b } } }
theorem patchLoad_of {f : FlashSlot} (h : pchReason f = 0) (env : StartEnv) (hA : env.patchA = f) (hB : env.patchB = f) (s : State) (o : Bool) :
    s.patchLoad env o = (pchTaken f s o, true) := by
  unfold State.patchLoad
  dsimp only
  rw [hA, hB, pick_of h]
  unfold pchTaken
  generalize (decide (s.kst.rest.patchSlot = 1) != o) = b
  cases b <;> rfl
/-- Registers that a cold start resets (19 R495) lie here: in windows 0x2, 0x10 to 0x12 and 0x19, and the partition registers of window 0. -/
def coldReg (a : Nat) : Bool :=
  let w := (a - ctlSpace) / 2 ^ 32
  let o := (a - ctlSpace) % 2 ^ 32
  w = 2 || w = 16 || w = 17 || w = 18 || w = 25 || (w = 0 && decide (0x2000 ≤ o) && decide (o < 0x2600))
theorem smDel_absent {α : Type} (k : Nat) (m : SMap α) (h : ∀ e ∈ m, e.1 ≠ k) : smDel k m = m := by
  induction m with
  | nil => rfl
  | cons e m ih =>
    rw [smDel, if_neg (h e (List.mem_cons_self ..)), ih fun x hx => h x (List.mem_cons_of_mem _ hx)]
theorem smGet_absent {α : Type} (d : Nat → α) (k : Nat) (m : SMap α) (h : ∀ e ∈ m, e.1 ≠ k) : smGet d m k = d k := by
  induction m with
  | nil => rfl
  | cons e m ih =>
    rw [smGet, if_neg fun q => h e (List.mem_cons_self ..) q.symm, ih fun x hx => h x (List.mem_cons_of_mem _ hx)]
/-- No register of the cold ones is listed. -/
def ColdClean (s : State) : Prop := ∀ e ∈ s.ctl, coldReg e.1 = false
theorem setReg_clean {s : State} (h : ColdClean s) {a : Nat} (ha : coldReg a = true) : s.setReg a (ctlReset a) = s := by
  have n : ∀ e ∈ s.ctl, e.1 ≠ a := fun e he q => by rw [← q, h e he] at ha; cases ha
  unfold State.setReg smSet
  rw [if_pos rfl, smDel_absent _ _ n]
theorem setFld_clean {s : State} (c : ColdClean s) {a x l v : Nat} (ha : coldReg a = true) (hv : putBits (ctlReset a) x l v = ctlReset a) : s.setFld a x l v = s := by
  have n : ∀ e ∈ s.ctl, e.1 ≠ a := fun e he q => by rw [← q, c e he] at ha; cases ha
  have r : s.reg a = ctlReset a := smGet_absent _ _ _ n
  unfold State.setFld
  rw [r, hv, setReg_clean c ha]
theorem fold_clean (f : State → Nat → State) (P : State → Prop) (l : List Nat) (h : ∀ a ∈ l, ∀ s, P s → f s a = s) (s : State) (p : P s) : l.foldl f s = s := by
  induction l with
  | nil => rfl
  | cons a l ih => rw [List.foldl_cons, h a (List.mem_cons_self ..) s p, ih fun b hb => h b (List.mem_cons_of_mem _ hb)]
theorem coldFields_clean (s : State) (c : ColdClean s) (j : s.kst.rest.dblLine = [] ∧ s.kst.rest.ringNoPers = [] ∧ s.kst.rest.engSubs = []) : s.coldFields = s := by
  have one : ∀ l : List Nat, (∀ a ∈ l, coldReg a = true) → l.foldl (fun s a => s.setReg a (ctlReset a)) s = s :=
    fun l hl => fold_clean _ ColdClean l (fun a ha s p => setReg_clean p (hl a ha)) s c
  have two : (List.range 0x4E7).foldl (fun s i => (s.setFld (aFcuSrcCfg i) 2 2 (bits (w64 (srcCfgRst i)) 2 2)).setFld (aFcuSrcCfg i) 1 0 (bits (w64 (srcCfgRst i)) 1 0)) s = s := by
    have k : ∀ i ∈ List.range 0x4E7, coldReg (aFcuSrcCfg i) = true ∧ putBits (ctlReset (aFcuSrcCfg i)) 2 2 (bits (w64 (srcCfgRst i)) 2 2) = ctlReset (aFcuSrcCfg i) ∧
      putBits (ctlReset (aFcuSrcCfg i)) 1 0 (bits (w64 (srcCfgRst i)) 1 0) = ctlReset (aFcuSrcCfg i) := by decide +kernel
    refine fold_clean _ ColdClean _ (fun i hi s p => ?_) s c
    obtain ⟨k1, k2, k3⟩ := k i hi
    rw [setFld_clean p k1 k2, setFld_clean p k1 k3]
  unfold State.coldFields
  dsimp only
  rw [one _ (by decide +kernel), one _ (by decide +kernel), one _ (by decide +kernel), one _ (by decide +kernel), two, one _ (by decide +kernel)]
  have r : ({ s.kst.rest with dblLine := [], ringNoPers := [], engSubs := [] } : Jrnl) = s.kst.rest := by
    generalize s.kst.rest = r at j
    cases r
    simp_all
  rw [r]


/-- The path becomes cold where no cold register is listed. -/
def cold0 (s : State) : State := let s := s.setFld aKstStatus 13 12 1; { s with kst := { s.kst with dram := 0 } }
/-- The steps of such a start. -/
def step0 (s : State) (n : Nat) (alt : Bool) : State × StepEnd :=
  if n = 6 then (fwTaken fw0 s (decide (0 < s.attempts 19)), .pass)
  else if n = 7 then (pchTaken pch0 s alt, .pass)
  else if n = 13 then (cold0 s, if (cold0 s).ctl.all (fun e => !coldReg e.1) && s.kst.rest.dblLine.isEmpty && s.kst.rest.ringNoPers.isEmpty && s.kst.rest.engSubs.isEmpty &&
    !s.saveArea then .pass else .failed)
  else s.kstStep env0 n alt
theorem step13_eq (s : State) (h : ((cold0 s).ctl.all (fun e => !coldReg e.1) && s.kst.rest.dblLine.isEmpty && s.kst.rest.ringNoPers.isEmpty && s.kst.rest.engSubs.isEmpty &&
    !s.saveArea) = true) : s.step13 env0 = (cold0 s, .pass) := by
  simp only [Bool.and_eq_true, List.isEmpty_iff, Bool.not_eq_true', List.all_eq_true] at h
  obtain ⟨⟨⟨⟨h1, h2⟩, h3⟩, h4⟩, h5⟩ := h
  unfold State.step13
  rw [h5]
  dsimp only
  rw [Bool.false_and, if_neg (by decide)]
  unfold State.goCold
  dsimp only
  rw [coldFields_clean (s.setFld aKstStatus 13 12 1) h1 ⟨h2, h3, h4⟩]
  rfl
theorem step0_eq (h : FusesLet) (s : State) (n : Nat) (alt : Bool) (k : (step0 s n alt).2 ≠ .failed) : s.kstStep env0 n alt = step0 s n alt := by
  unfold step0 at k ⊢
  by_cases h6 : n = 6
  · subst h6
    rw [if_pos rfl]
    show (let (s, ok) := s.fwCheck env0 (decide (0 < s.attempts 19)); (s, if ok then StepEnd.pass else StepEnd.failed)) = _
    rw [fwCheck_of (fw0_fine h) env0 rfl rfl]
    rfl
  · by_cases h7 : n = 7
    · subst h7
      rw [if_neg h6, if_pos rfl]
      show (let (s, ok) := s.patchLoad env0 alt; (s, if ok then StepEnd.pass else StepEnd.failed)) = _
      rw [patchLoad_of (pch0_fine h) env0 rfl rfl]
      rfl
    · by_cases h13 : n = 13
      · subst h13
        rw [if_neg h6, if_neg h7, if_pos rfl] at k ⊢
        split at k
        · rename_i c
          rw [if_pos c]
          exact step13_eq s c
        · exact absurd rfl k
      · rw [if_neg h6, if_neg h7, if_neg h13]
/-- One step, where none exceeds its limit and no optional step was given up. -/
def one0 (s : State) (n : Nat) : State × Bool :=
  let s := s.setFld aKstStatus 4 0 n
  let alt := s.stepAlt n
  let s0 := if n = 20 then s.stepRecord 20 1 0 alt else s
  let (s', e) := step0 s0 n alt
  let s' := if n = 20 then s' else s'.stepRecord n (if e = .excluded then 2 else 1) 0 alt
  let s' := if stepOptional n then s'.updRest fun j => { j with optFail := smSet (fun _ => 0) j.optFail n 0 } else s'
  (if 5 ≤ n ∧ n ≠ 20 then s'.logHeld else s', decide (e ≠ .failed ∧ smGet (fun _ => 0) s.kst.rest.optFail n = 0))
theorem one0_eq (h : FusesLet) (s : State) (n : Nat) (k : (one0 s n).2 = true) : s.kstOne env0 none n = one0 s n := by
  unfold one0 at k ⊢
  unfold State.kstOne
  dsimp only at k ⊢
  rw [decide_eq_true_eq] at k
  obtain ⟨k1, k2⟩ := k
  rw [k2, if_neg (by simp), if_neg (by simp), show env0.times.getD (n - 1) 0 = 0 from rfl, step0_eq h _ _ _ k1]
  generalize step0 _ n _ = r at k1 ⊢
  obtain ⟨t, e⟩ := r
  cases e with
  | failed => exact absurd rfl k1
  | _ => simp
/-- All of them from n on, k of them. -/
def all0 : Nat → State → Nat → State × Bool
  | 0, s, _ => (s, true)
  | k + 1, s, n => let r := one0 s n; if r.2 then all0 k r.1 (n + 1) else (r.1, false)
theorem all0_eq (h : FusesLet) (k : Nat) : ∀ (s : State) (n : Nat), (all0 k s n).2 = true → stepsPass env0 k s n ∧ State.kstRun s env0 none k n = (all0 k s n).1 := by
  induction k with
  | zero => exact fun _ _ _ => ⟨trivial, rfl⟩
  | succ k ih =>
    intro s n p
    unfold all0 at p ⊢
    dsimp only at p ⊢
    split at p
    · rename_i q
      have e := one0_eq h s n q
      have i := ih _ _ p
      refine ⟨⟨e ▸ q, e ▸ i.1⟩, ?_⟩
      unfold State.kstRun
      rw [e, if_pos q]
      generalize one0 s n = r at q i
      obtain ⟨a, b⟩ := r
      obtain rfl : b = true := q
      exact i.2
    · cases p
/-- With those fuses a start from step 2 passes every step. -/
def starting : State := (due 2).setFld aClkStatus 3 3 1
theorem starting_passes : (all0 19 (ready starting) 2).2 = true := by decide +kernel
theorem starting_quiet : (all0 19 (ready starting) 2).1.raised = [] := by decide +kernel
theorem wit_chipReset (h : FusesLet) : Meets (fun _ => True) startEvent starting (.chipReset env0) := by
  have a : starting.calm = true ∧ starting.kst.phase = .due 2 := by decide +kernel
  have q := all0_eq h 19 _ _ starting_passes
  exact meets_start rfl ⟨a.1, 2, .inr rfl, a.2, q.1, q.2 ▸ starting_quiet⟩

/-! ### Witnesses: PCIe and partitions -/

/-- Where the hub keeps an entry within LIMIT that permits it, a transfer needs nothing else (08 R218, R220). -/
theorem hub_of {s : State} {p i : Nat} {w : Bool} {e : Word} (h1 : s.hubCached p i = some e) (h2 : s.pmtIn p i = true)
    (h3 : s2Perm (if w then .store else .load) e = none) : s.hubEntry p i w = .ok (e, false) := by
  simp [State.hubEntry, State.pmtGet, h1, h2, h3]
/-- No class answers an event with more than an interrupt (17 R442). -/
def gentle (s : State) : State := (List.range 16).foldl (fun s k => s.setFld (aFcuClassCfg k) 41 40 0) s
/-- Root port 0 of segment 0 is up; requester 5 is of partition 1, requester 6 of none; increment 1 of partition 1 is a device's. -/
def pci1 : State :=
  let s := gentle (withRegs [(aPciRidt 0, 2 ^ 63), (aHubPmt 1, 2 ^ 63 + 1)] hub1)
  { s with hubPmt := { part := 1, idx := 1, entry := 0xC0000100000E5 } :: s.hubPmt, pci := { s.pci with up := 1, rid := [(5, 2), (6, 34), (7, 2), (8, 3)] } }
theorem work_pci : Working pci1 := calm_of (by decide +kernel)
theorem region_pci (k : Nat) (hk : k ≤ 16) (w : Bool) : Region pci1 1 0x40000 k 0x40000 w := by
  have b : ∀ i, i < 16 → pci1.memOk (0x40000 + i) = true ∧ pci1.badByte (0x40000 + i) = false := by decide +kernel
  have h : pci1.hubCached 1 0 = some 0xE1 ∧ pci1.pmtIn 1 0 = true := by decide +kernel
  refine ⟨by omega, 0xE1, hub_of h.1 h.2 (by cases w <;> decide), by decide, by decide, fun i hi => ⟨(b i (by omega)).1, ?_⟩⟩
  cases w
  · exact (b i (by omega)).2
  · exact oneCopy_of (by decide +kernel) (by decide +kernel) _
/-- A write and a read that are let through, one of a requester without a partition, and one to a device, which another requester claims or the same partition's. -/
theorem wit_inboundRequest : Meets Working pcieEvent pci1 (.inboundRequest 0 0 5 0x40000 (.write [1, 2]) 0) ∧
    Meets Working pcieEvent pci1 (.inboundRequest 0 0 5 0x40000 (.read 8) 0) ∧ Meets Working pcieEvent pci1 (.inboundRequest 0 0 6 0x40000 (.read 8) 0) ∧
    Meets Working pcieEvent pci1 (.inboundRequest 0 0 5 0x10000000 (.read 8) 7) ∧ Meets Working pcieEvent pci1 (.inboundRequest 0 0 5 0x10000000 (.write [1]) 8) ∧
    requesterPart pci1 0 5 0x40000 = some 1 ∧ requesterPart pci1 0 6 0x40000 = none := by
  have q : ∀ a ∈ [0x40000, 0x10000000], requesterPart pci1 0 5 a = some 1 := by decide +kernel
  have q1 := q 0x40000 (by simp)
  have q2 := q 0x10000000 (by simp)
  have q6 : requesterPart pci1 0 6 0x40000 = none := by decide +kernel
  have f : Soft pci1 0x3C3 := soft_of (by decide +kernel)
  have h : pci1.hubCached 1 1 = some 0xC0000100000E5 ∧ pci1.pmtIn 1 1 = true := by decide +kernel
  refine ⟨⟨work_pci, _, rfl, fun _ _ _ => ?_⟩, ⟨work_pci, _, rfl, fun _ _ _ => ?_⟩, ⟨work_pci, _, rfl, fun _ _ _ => ?_⟩,
    ⟨work_pci, _, rfl, fun _ _ _ => ?_⟩, ⟨work_pci, _, rfl, fun _ _ _ => ?_⟩, q1, q6⟩
  · rw [show requesterPart pci1 (0 : Fin 4).val (5 : BitVec 16).toNat (0x40000 : Word).toNat = some 1 from q1]
    exact ⟨(fun _ _ => by decide), .inl ⟨_, _, rfl, region_pci 2 (by decide) true⟩⟩
  · rw [show requesterPart pci1 (0 : Fin 4).val (5 : BitVec 16).toNat (0x40000 : Word).toNat = some 1 from q1]
    exact ⟨(fun _ e => by cases e), .inr (.inl ⟨_, _, rfl, region_pci 8 (by decide) false⟩)⟩
  · rw [show requesterPart pci1 (0 : Fin 4).val (6 : BitVec 16).toNat (0x40000 : Word).toNat = none from q6]
    exact f
  · rw [show requesterPart pci1 (0 : Fin 4).val (5 : BitVec 16).toNat (0x10000000 : Word).toNat = some 1 from q2]
    exact ⟨(fun _ e => by cases e), .inr (.inr ⟨f, _, hub_of h.1 h.2 (by decide), by decide⟩)⟩
  · rw [show requesterPart pci1 (0 : Fin 4).val (5 : BitVec 16).toNat (0x10000000 : Word).toNat = some 1 from q2]
    exact ⟨(fun _ _ => by decide), .inr (.inr ⟨f, _, hub_of h.1 h.2 (by decide), by decide⟩)⟩
theorem wit_messageInterrupt (v : BitVec 32) : Meets Working pcieEvent pci1 (.messageInterrupt 0 0 5 0xFFFF v) ∧ Meets Working pcieEvent pci1 (.messageInterrupt 0 0 6 0 v) := by
  have q : requesterPart pci1 0 5 (0xFFFFFF00000 + 0xFFFF) = some 1 := by decide +kernel
  have q6 : requesterPart pci1 0 6 (0xFFFFFF00000 + 0) = none := by decide +kernel
  refine ⟨⟨work_pci, _, rfl, fun _ => ⟨by decide, ?_⟩⟩, work_pci, _, rfl, fun _ => ⟨by decide, ?_⟩⟩
  · rw [show requesterPart pci1 (0 : Fin 4).val (5 : BitVec 16).toNat (0xFFFFFF00000 + (0xFFFF : BitVec 20).toNat) = some 1 from q]
    exact soft_of (by decide +kernel)
  · rw [show requesterPart pci1 (0 : Fin 4).val (6 : BitVec 16).toNat (0xFFFFFF00000 + (0 : BitVec 20).toNat) = none from q6]
    exact soft_of (by decide +kernel)
/-- A configuration request is out. -/
def asked (q : CfgReq) : State := { pci1 with pci := { pci1.pci with req := some q } }
theorem same_pci (s : State) (p : Pci) (h : Working s) : Working { s with pci := p } := h
theorem work_asked (q : CfgReq) : Working (asked q) := same_pci pci1 _ work_pci
theorem wit_configuration (a : Word) (ans : CfgAnswer) : Meets Working pcieEvent pci1 (.pciCfgAddrWrite a) ∧ Meets Working pcieEvent pci1 (.pciCfgDataWrite a) ∧
    (∀ q, Meets Working pcieEvent (asked q) (.configCompletion ans)) ∧ Meets Working pcieEvent s0 (.configCompletion ans) ∧ Meets Working pcieEvent pci1 (.invRid 0) := by
  have w : pci1.winShut aPciCfgAddr = false ∧ pci1.winShut aPciCfgData = false ∧ pci1.winShut (aPciRidt 0) = false := by decide +kernel
  exact ⟨⟨work_pci, _, rfl, w.1⟩, ⟨work_pci, _, rfl, w.2.1⟩, fun q => ⟨work_asked q, _, rfl, trivial⟩, ⟨work0, _, rfl, trivial⟩, work_pci, _, rfl, w.2.2⟩
theorem wit_rootPorts (rid : BitVec 16) : Meets Working pcieEvent pci1 (.pciLinkDown 0 0) ∧ Meets Working pcieEvent pci1 (.aerErrorReported 0 0 rid true true) ∧
    Meets Working pcieEvent pci1 (.aerErrorReported 0 0 rid true false) ∧ Meets Working pcieEvent pci1 (.aerErrorReported 0 0 rid false false) ∧
    rootRuns pci1 0 0 = true ∧ rootRuns s0 0 0 = false := by
  have n : NoFrozen pci1 ∧ ∀ m, (pci1.lp m).devReq = none ∧ (pci1.lp m).stReq = none ∧ (pci1.lp m).posted = [] := by unfold NoFrozen; decide +kernel
  have f : Soft pci1 0x3C0 ∧ Soft pci1 0x3C1 ∧ Soft pci1 0x3C2 := ⟨soft_of (by decide +kernel), soft_of (by decide +kernel), soft_of (by decide +kernel)⟩
  have g : ∀ k, k < 16 → pci1.fld (aFcuClassCfg k) 41 40 ≤ 1 := by decide +kernel
  exact ⟨⟨work_pci, _, rfl, n.1, n.2, fun _ => f.1⟩, ⟨work_pci, _, rfl, n.1, n.2, fun _ => ⟨f.2.2, fun _ _ => ⟨f.1, g⟩⟩⟩,
    ⟨work_pci, _, rfl, n.1, n.2, fun _ => ⟨f.2.2, fun _ e => by cases e⟩⟩, ⟨work_pci, _, rfl, n.1, n.2, fun _ => ⟨f.2.1, fun e => by cases e⟩⟩,
    by decide +kernel, by decide +kernel⟩
theorem wit_PartitionEvents (p : Fin 32) (v : Word) : Meets Working partitionEvent s0 (.hubPartCfgWrite p v) ∧ Meets Working partitionEvent s0 (.hubPartL3qWrite p v) ∧
    Meets Working partitionEvent s0 (.hubPartResWrite p v) := ⟨⟨work0, _, rfl, trivial⟩, ⟨work0, _, rfl, trivial⟩, work0, _, rfl, trivial⟩

/-! ### Witnesses: engines and pipelines -/

/-- The channel subsystem, the engines and the pipelines set. -/
def vary (s : State) (r : Css) (m : Cmp) (h : Cph) : State := { s with css := r, cmp := m, cph := h }
theorem vary_work (s : State) (r : Css) (m : Cmp) (h : Cph) (w : Working s) : Working (vary s r m h) := w
theorem vary_soft (s : State) (r : Css) (m : Cmp) (h : Cph) (src : Nat) (w : Soft s src) : Soft (vary s r m h) src := w
theorem vary_hub (s : State) (r : Css) (m : Cmp) (h : Cph) : (∀ p i, (vary s r m h).hubCached p i = s.hubCached p i) ∧ (∀ p i, (vary s r m h).pmtIn p i = s.pmtIn p i) ∧
    (∀ a, (vary s r m h).memOk a = s.memOk a) ∧ (∀ a, (vary s r m h).badByte a = s.badByte a) := ⟨fun _ _ => rfl, fun _ _ => rfl, fun _ => rfl, fun _ => rfl⟩
theorem vary_copy (s : State) (r : Css) (m : Cmp) (h : Cph) (l : Nat) (w : OneCopy s l) : OneCopy (vary s r m h) l := w
theorem vary_free (s : State) (r : Css) (m : Cmp) (h : Cph) (p : Nat) : (vary s r m h).memReserved p = s.memReserved p := rfl
theorem vary_byte (s : State) (r : Css) (m : Cmp) (h : Cph) (a : Nat) : (vary s r m h).byte a = s.byte a := rfl
theorem vary_cmp (s : State) (r : Css) (m : Cmp) (h : Cph) (e a i : Nat) : (vary s r m h).cmpRes e = smGet (fun _ => []) m.engines e ∧ (vary s r m h).flag a i = s.flag a i :=
  ⟨rfl, rfl⟩
theorem vary_def (s : State) (r : Css) (m : Cmp) (h : Cph) (p : Nat) (k : r.deferred = 0) (k' : s.memReserved p = false) :
    (vary s r m h).deferredFor p = false := by
  have d : (vary s r m h).deferredFor p = (r.deferred.testBit p || (s.memReserved p && smGet (fun _ => 0) s.part.memLeft p = 0)) := rfl
  rw [d, k, k', Nat.zero_testBit]
  rfl
theorem modLine_of {s : State} (h : ∀ m, (s.lp m).l2.ways = [] ∧ (s.lp m).vbuf = []) (h3 : ∀ d, (s.l3Of d).ways = []) (line : Nat) : s.modLine line = none := by
  have a : ∀ n, (s.lp n).l2Mod line = none ∧ (s.lp n).vbMod line = none := fun n => by simp [Lp.l2Mod, Lp.vbMod, Lp.l2Find, Cache.find, h]
  have b : ∀ d, (s.l3Of d).l3Mod line = none := fun d => by simp [Cache.l3Mod, Cache.find, h3]
  have n : ∀ {α β : Type} (l : List α), l.findSome? (fun _ => (none : Option β)) = none := fun l => List.findSome?_eq_none_iff.2 fun _ _ => rfl
  simp only [State.modLine, a, b, n]
/-- The first 256 MiB are at partition 1's service: the hub keeps their entry, one link holds them, nothing is cached, poisoned or written, and no ring
exists. -/
structure Fine (b : State) : Prop where
  work : Working b
  pmt : b.hubCached 1 0 = some 0xE1 ∧ b.pmtIn 1 0 = true
  clean : b.poison = [] ∧ b.mem = []
  link : b.mapLinks = [0] ∧ b.memSize = 2 ^ 32 ∧ b.linkState 0 = 2
  caches : ∀ m, (b.lp m).l2.ways = [] ∧ (b.lp m).vbuf = []
  l3s : ∀ d, (b.l3Of d).ways = []
  free : b.css.deferred = 0 ∧ b.memReserved 1 = false
theorem fine_mem {b : State} (f : Fine b) (a : Nat) (h : a < 2 ^ 28) : b.memOk a = true := by
  have l := f.link
  have k : b.linkOf a = 0 := by
    unfold State.linkOf
    rw [l.1]
    simp
  simp only [State.memOk, State.isMain, k, l.2.1, l.2.2, Bool.and_eq_true, decide_eq_true_eq]
  exact ⟨by omega, by decide⟩
theorem fine_byte {b : State} (f : Fine b) (a : Nat) : b.byte a = 0 ∧ b.badByte a = false := by
  have m := modLine_of f.caches f.l3s
  unfold State.byte State.badByte
  rw [m, f.clean.1, f.clean.2]
  exact ⟨rfl, rfl⟩
theorem fine_copy {b : State} (f : Fine b) (l : Nat) : OneCopy b l := oneCopy_of (fun m => (f.caches m).1) f.l3s l
theorem region_vary {b : State} (f : Fine b) (r : Css) (m : Cmp) (h : Cph) (w : Bool) (a n : Nat) (le : a + n ≤ 2 ^ 28) (lt : a < 2 ^ 28) :
    Region (vary b r m h) 1 a n a w := by
  have v := vary_hub b r m h
  have e : pmtAbs 0xE1 a = a := by
    unfold pmtAbs
    rw [show bits (0xE1 : Word) 51 28 = 0 by decide, Nat.mod_eq_of_lt lt]
    omega
  refine ⟨by rw [Nat.mod_eq_of_lt lt]; exact le, 0xE1, ?_, by decide, e.symm, fun i hi => ⟨?_, ?_⟩⟩
  · rw [Nat.div_eq_of_lt lt]
    exact hub_of ((v.1 1 0).trans f.pmt.1) ((v.2.1 1 0).trans f.pmt.2) (by cases w <;> decide)
  · exact (v.2.2.1 _).trans (fine_mem f _ (by omega))
  · cases w
    · exact (v.2.2.2 _).trans (fine_byte f _).2
    · exact vary_copy b r m h _ (fine_copy f _)
/-- Ring 5. -/
def css5 (b : State) : Css := { b.css with rings := [(5, some ring0)] }
theorem can5 {b : State} (f : Fine b) (m : Cmp) (h : Cph) (q : EngReq) (hr : q.ring = 5) : CanAnswer (vary b (css5 b) m h) q ring0 0x20000 := by
  obtain ⟨-, e, e1, e2, e3, e4⟩ := region_vary f (css5 b) m h true 0x20000 32 (by decide) (by decide)
  refine ⟨by rw [hr]; rfl, by decide, ?_, (vary_free b (css5 b) m h 1).trans f.free.2, rfl, ⟨e, e1, e2, e3⟩, by decide, ?_⟩
  · show b.css.deferred.testBit 1 = false
    rw [f.free.1]
    rfl
  · have x := e4 0 (by decide)
    exact ⟨x.1, x.2⟩
theorem fine1 : Fine hub1 :=
  ⟨calm_of (by decide +kernel), by decide +kernel, by decide +kernel, by decide +kernel, by decide +kernel, by decide +kernel, by decide +kernel⟩
/-- A ring request of partition 1. -/
def engReq (op : Nat) : EngReq := { ring := 5, part := 1, rt := false, tag := 7, sub := engEntry op, warm := false }
/-- A request resident on engine 0, with a codec or before its checks. -/
def resident (c : Option Codec) (srcLen dstLen : Nat) : CmpReq :=
  { req := engReq 0x11, blk := match c with | some _ => [0] | none => [], codec := c, ctl := 0, limit := 0, src := 0x50000, srcLen := srcLen, dst := 0x60000
    dstLen := dstLen, wrote := 0, used := 0, needHist := 0 }
/-- Engine 0 serves it. -/
def serving (q : CmpReq) : State := vary hub1 (css5 hub1) { hub1.cmp with engines := [(0, [q])] } hub1.cph

/-- A decoder in a long match; what one slice of it gives. -/
def matchDec : Dec := { Dec.start false 0 with ph := .body, pkind := 1, plen := 65537, pdist := 1, hist := [7] }
theorem matchBytes_length (d k : Nat) : ∀ h : List Byte, (matchBytes d k h).length = k := by
  induction k with
  | zero => exact fun _ => rfl
  | succ k ih => exact fun h => congrArg Nat.succ (ih _)
/-- A match that is longer than the room fills it in one step. -/
theorem run_match (d : Dec) (room : Nat) (h : d.pkind = 1) (h1 : room < d.plen) (h2 : 0 < room) :
    ∃ r : DRun, ({ d := d, src := [], room := room, out := [] } : DRun).run false = .full r ∧ r.out = (matchBytes d.pdist room d.hist).reverse := by
  have p1 : ({ d := d, src := [], room := room, out := [] } : DRun).once = .go
      { (({ d := d, src := [], room := room, out := [] } : DRun).put (matchBytes d.pdist room d.hist)) with
        d := { (({ d := d, src := [], room := room, out := [] } : DRun).put (matchBytes d.pdist room d.hist)).d with plen := d.plen - room, pkind := 1 } } := by
    unfold DRun.once DRun.pending
    rw [if_pos (show d.pkind ≠ 0 by rw [h]; decide), if_neg (show ¬room = 0 by omega), if_pos h]
    dsimp only
    rw [Nat.min_eq_right (by omega), if_neg (show ¬d.plen = room by omega)]
  generalize hr : ({ (({ d := d, src := [], room := room, out := [] } : DRun).put (matchBytes d.pdist room d.hist)) with
      d := { (({ d := d, src := [], room := room, out := [] } : DRun).put (matchBytes d.pdist room d.hist)).d with plen := d.plen - room, pkind := 1 } } : DRun) = r at p1
  have out : r.out = (matchBytes d.pdist room d.hist).reverse := by
    rw [← hr]
    exact List.append_nil _
  have full : r.room = 0 := by
    rw [← hr]
    show room - (matchBytes d.pdist room d.hist).length = 0
    rw [matchBytes_length]
    omega
  have kind : r.d.pkind = 1 := by rw [← hr]
  have l1 : ∀ f, ({ d := d, src := [], room := room, out := [] } : DRun).loop true (f + 2) = .full r := by
    intro f
    unfold DRun.loop
    rw [if_neg (by simp; omega), p1]
    dsimp only
    unfold DRun.loop
    rw [if_pos (by simp [full])]
  have l2 : ∀ f, r.loop false (f + 1) = .full r := by
    intro f
    unfold DRun.loop DRun.once DRun.pending
    rw [if_neg (by simp), if_pos (show r.d.pkind ≠ 0 by rw [kind]; decide), if_pos full]
  have fuel : ∀ x : DRun, ∃ f, x.fuel = f + 2 := fun x => ⟨x.fuel - 2, by unfold DRun.fuel; omega⟩
  obtain ⟨f1, e1⟩ := fuel { d := d, src := [], room := room, out := [] }
  obtain ⟨f2, e2⟩ := fuel r
  refine ⟨r, ?_, out⟩
  unfold DRun.run
  rw [e1, l1]
  dsimp only
  rw [e2, l2]
/-- One slice of a match of 65537 bytes gives 64 KiB, and the request goes on. -/
theorem work_match : ∃ c used out, (Codec.dec matchDec).work [] 0 65536 false 65536 = (c, used, out, .more) ∧ out.length = 65536 := by
  obtain ⟨r, h, o⟩ := run_match matchDec 65536 rfl (by decide) (by decide)
  refine ⟨.dec r.d, r.d.inTotal - matchDec.inTotal, r.out.reverse, ?_, ?_⟩
  · unfold Codec.work
    dsimp only
    rw [show decide (0 < 0) = false from rfl, h]
    rfl
  · rw [o, List.reverse_reverse, matchBytes_length]
/-- A stream whose first stored block has a wrong length is over after five bytes (13 R351). -/
theorem work_bad : ∃ c used, (Codec.dec (Dec.start false 0)).work (List.replicate 5 0) 0 100 true 65536 = (c, used, [], .over 0x23 5) := by
  have h : ((Codec.dec (Dec.start false 0)).work (List.replicate 5 0) 0 100 true 65536).2.2 = ([], .over 0x23 5) := by decide +kernel
  exact ⟨_, _, Prod.ext rfl (Prod.ext rfl h)⟩
theorem serves (c : Codec) (n m : Nat) : Serving (serving (resident (some c) n m)) 0 (resident (some c) n m) c := by
  have h : hub1.flag aCmpStatus 8 = false := by decide +kernel
  exact ⟨rfl, rfl, rfl, (vary_cmp hub1 (css5 hub1) _ _ 0 _ _).2.trans h, vary_def hub1 (css5 hub1) _ _ 1 fine1.free.1 fine1.free.2⟩
theorem work_serving (q : CmpReq) : Working (serving q) := vary_work hub1 _ _ _ fine1.work
/-- A slice after which the request goes on, and one that ends it. -/
theorem wit_slice_more : ∃ c used out A, Serving (serving (resident (some (.dec matchDec)) 0 65537)) 0 (resident (some (.dec matchDec)) 0 65537) (.dec matchDec) ∧
    SliceOf (serving (resident (some (.dec matchDec)) 0 65537)) (resident (some (.dec matchDec)) 0 65537) (.dec matchDec) A c used out .more := by
  obtain ⟨c, used, out, h, l⟩ := work_match
  exact ⟨c, used, out, 0x60000, serves _ _ _, ⟨0x50000, region_vary fine1 _ _ _ _ _ _ (by decide) (by decide), h⟩,
    region_vary fine1 _ _ _ _ _ _ (by rw [l]; decide) (by decide), fun _ _ => .inl (by decide)⟩
theorem wit_slice_over : ∃ c used A, Serving (serving (resident (some (.dec (Dec.start false 0))) 5 100)) 0 (resident (some (.dec (Dec.start false 0))) 5 100) (.dec (Dec.start false 0)) ∧
    SliceOf (serving (resident (some (.dec (Dec.start false 0))) 5 100)) (resident (some (.dec (Dec.start false 0))) 5 100) (.dec (Dec.start false 0)) A c used [] (.over 0x23 5) := by
  obtain ⟨c, used, h⟩ := work_bad
  refine ⟨c, used, 0x60000, serves _ _ _, ⟨0x50000, region_vary fine1 _ _ _ _ _ _ (by decide) (by decide), ?_⟩,
    region_vary fine1 _ _ _ _ _ _ (by decide) (by decide), fun _ _ => .inl (by decide)⟩
  have z : ∀ i, (serving (resident (some (.dec (Dec.start false 0))) 5 100)).byte i = 0 := fun i => (vary_byte hub1 (css5 hub1) _ _ i).trans (fine_byte fine1 i).1
  simp only [z]
  exact h

/-- A module whose engines are all disabled. -/
def hub0 : State := withRegs [(aCmpCfg, 0)] hub1
theorem fine0 : Fine hub0 :=
  ⟨calm_of (by decide +kernel), by decide +kernel, by decide +kernel, by decide +kernel, by decide +kernel, by decide +kernel, by decide +kernel⟩
/-- A compression request waits for an engine. -/
def queued (b : State) : State := vary b (css5 b) { b.cmp with queue := [engReq 0x10] } b.cph
theorem meets_place {b : State} (f : Fine b) (s : Soft b 0x4CE) : Meets Working engineEvent (queued b) .engineRequestPlacement := by
  refine ⟨vary_work b _ _ _ f.work, _, rfl, fun r rest h _ => ?_⟩
  have h : engReq 0x10 = r := List.head_eq_of_cons_eq h
  subst h
  exact ⟨vary_soft b _ _ _ _ s, 0x40040, ring0, 0x20000, region_vary f _ _ _ _ _ _ (by decide) (by decide), can5 f _ _ _ rfl, .inr (by decide)⟩
theorem vary_takes (b : State) (r : Css) (m : Cmp) (h : Cph) (p e : Nat) : Takes (vary b r m h) p e ↔ Takes b p e := Iff.rfl
/-- With no request, one that an engine takes, and one that none takes. -/
theorem wit_engineRequestPlacement : Meets Working engineEvent s0 .engineRequestPlacement ∧ Meets Working engineEvent (queued hub1) .engineRequestPlacement ∧
    Takes (queued hub1) 1 0 ∧ Meets Working engineEvent (queued hub0) .engineRequestPlacement ∧ ∀ e, ¬Takes (queued hub0) 1 e := by
  refine ⟨⟨work0, _, rfl, fun r rest h => by cases (show s0.cmp.queue = [] by decide +kernel).symm.trans h⟩, meets_place fine1 (soft_of (by decide +kernel)),
    (vary_takes hub1 _ _ _ 1 0).2 (by unfold Takes; decide +kernel), meets_place fine0 (soft_of (by decide +kernel)), fun e h => ?_⟩
  have k : ∀ e, e < 8 → hub0.cmpAvail e = false := by decide +kernel
  obtain ⟨h1, h2, -⟩ := (vary_takes hub0 _ _ _ 1 e).1 h
  rw [k e h1] at h2
  cases h2
theorem wit_sliceBoundary (e : Fin 8) : Meets Working engineEvent s0 (.sliceBoundary e) ∧ Meets Working engineEvent s0 (.engineCompletion e none) ∧
    Meets Working engineEvent (serving (resident (some (.dec matchDec)) 0 65537)) (.sliceBoundary 0) ∧
    Meets Working engineEvent (serving (resident (some (.dec (Dec.start false 0))) 5 100)) (.sliceBoundary 0) := by
  have n : s0.cmp.engines = [] := by decide +kernel
  have n : nextRes (s0.cmpRes e.val) = none := by
    unfold State.cmpRes
    rw [n]
    rfl
  obtain ⟨c, used, out, A, x, y⟩ := wit_slice_more
  obtain ⟨c', used', A', x', y'⟩ := wit_slice_over
  exact ⟨⟨work0, _, rfl, .inl n⟩, ⟨work0, _, rfl, .inl n⟩, ⟨work_serving _, _, rfl, .inr ⟨_, _, _, _, _, _, _, x, y⟩⟩,
    work_serving _, _, rfl, .inr ⟨_, _, _, _, _, _, _, x', y'⟩⟩
/-- A request that goes on, one that is over, and one that an engine's error ends. -/
theorem wit_engineCompletion (verify : Bool) : Meets Working engineEvent (serving (resident (some (.dec matchDec)) 0 65537)) (.engineCompletion 0 none) ∧
    Meets Working engineEvent (serving (resident (some (.dec (Dec.start false 0))) 5 100)) (.engineCompletion 0 none) ∧
    Meets Working engineEvent (serving (resident none 5 100)) (.engineCompletion 0 (some verify)) ∧ Meets Working engineEvent s0 (.engineCompletion 0 (some verify)) := by
  obtain ⟨c, used, out, A, x, y⟩ := wit_slice_more
  obtain ⟨c', used', A', x', y'⟩ := wit_slice_over
  have n : nextRes (s0.cmpRes 0) = none := by decide +kernel
  refine ⟨⟨work_serving _, _, rfl, .inr ⟨_, _, _, _, _, _, _, x, y, fun _ _ h => by cases h⟩⟩,
    ⟨work_serving _, _, rfl, .inr ⟨_, _, _, _, _, _, _, x', y', fun st d _ => ⟨by decide, by decide, by decide, 0x40040, ring0, 0x20000,
      region_vary fine1 _ _ _ _ _ _ (by decide) (by decide), can5 fine1 _ _ _ rfl, fun i j => ⟨fun h => by simp at h, fun h => by simp at h, fun h1 h2 => by omega⟩⟩⟩⟩,
    ⟨work_serving _, _, rfl, fun q h => ?_⟩, work0, _, rfl, fun q h => by cases n.symm.trans h⟩
  obtain rfl : resident none 5 100 = q := Option.some.inj h
  have f : ∀ v : Bool, Soft hub1 ((if v then 0x442 else 0x441) + 8 * 0) := fun v => by cases v <;> exact soft_of (by decide +kernel)
  exact ⟨rfl, rfl, vary_soft hub1 _ _ _ _ (f verify), 0x40040, ring0, 0x20000, region_vary fine1 _ _ _ _ _ _ (by decide) (by decide), can5 fine1 _ _ _ rfl, .inr (by decide)⟩

/-- Where no source and no class differs from its reset values but for the classes' caps, every event is soft (17 R442, R450). -/
theorem gentle_of {b : State} (h : b.fcu.errHold = false) (n : ∀ e ∈ b.ctl, ¬(aFcuSrcCfg 0 ≤ e.1 ∧ e.1 < aFcuSrcCfg 0x4E7))
    (c : ∀ k, k < 16 → (b.fcuTarget k).isSome = true ∧ b.flag (aFcuClassStat k) 2 = false ∧ b.fld (aFcuClassCfg k) 41 40 ≤ 1) : Gentle b := by
  refine ⟨fun src k hk => ?_, fun k hk => (c k hk).2.2⟩
  have r : ∀ i, i < 0x4E7 → bits (ctlReset (aFcuSrcCfg i)) 1 0 ≤ 1 ∧ (match srcClass i with | some k => decide (k < 16) | none => true) = true := by decide +kernel
  have lt : src < 0x4E7 := by
    apply Classical.byContradiction
    intro q
    have none_ : srcClass src = none := by
      unfold srcClass clsAt
      rw [if_neg (by omega), if_neg (by omega), if_neg (by omega), if_neg (by omega), if_neg (by omega), if_neg (by omega), if_neg (by omega)]
      exact List.getElem?_eq_none (by simp; omega)
    rw [none_] at hk
    cases hk
  obtain ⟨r1, r2⟩ := r src lt
  rw [hk] at r2
  obtain ⟨c1, c2, -⟩ := c k (of_decide_eq_true r2)
  obtain ⟨m, hm⟩ := Option.isSome_iff_exists.1 c1
  refine ⟨h, k, m, hk, hm, ?_⟩
  have a : b.reg (aFcuSrcCfg src) = ctlReset (aFcuSrcCfg src) := smGet_absent _ _ _ fun e he q => n e he (by
    rw [q]
    unfold aFcuSrcCfg
    omega)
  unfold State.fcuLevel State.fld
  dsimp only
  rw [c2, a]
  exact r1
/-- Such a module. -/
def hub2 : State := gentle hub1
theorem fine2 : Fine hub2 :=
  ⟨calm_of (by decide +kernel), by decide +kernel, by decide +kernel, by decide +kernel, by decide +kernel, by decide +kernel, by decide +kernel⟩
theorem gentle2 : Gentle hub2 := gentle_of (by decide +kernel) (by decide +kernel) (by decide +kernel)
/-- The same with all pipelines disabled. -/
def hub3 : State := withRegs [(aCphCfg, 0)] hub2
theorem fine3 : Fine hub3 :=
  ⟨calm_of (by decide +kernel), by decide +kernel, by decide +kernel, by decide +kernel, by decide +kernel, by decide +kernel, by decide +kernel⟩
theorem gentle3 : Gentle hub3 := gentle_of (by decide +kernel) (by decide +kernel) (by decide +kernel)
/-- A request of the pipelines waits. -/
def ciphering (b : State) : State := vary b (css5 b) b.cmp { b.cph with queue := [engReq 0x18] }
theorem vary_gentle (s : State) (r : Css) (m : Cmp) (h : Cph) (w : Gentle s) : Gentle (vary s r m h) := w
theorem meets_cipher {b : State} (f : Fine b) (g : Gentle b) : Meets Working cipherEvent (ciphering b) .cipherRequestPlacement := by
  refine ⟨vary_work b _ _ _ f.work, _, rfl, vary_gentle b _ _ _ g, fun x h _ => ?_⟩
  have m : x ∈ (ciphering b).cphOrder := List.mem_of_find?_eq_some h
  have q : (ciphering b).cph.queue = [engReq 0x18] := rfl
  unfold State.cphOrder at m
  rw [q] at m
  simp only [List.map_cons, List.map_nil, List.mem_append, List.mem_filter, List.mem_singleton] at m
  rcases m with ⟨rfl, -⟩ | ⟨rfl, -⟩ <;>
    exact ⟨0x40060, ring0, 0x20000, region_vary f _ _ _ _ _ _ (show 0x40060 + 32 ≤ 2 ^ 28 by decide) (show 0x40060 < 2 ^ 28 by decide), can5 f _ _ _ rfl, .inr (by decide)⟩
/-- A request that a pipeline takes, one that none is open to, and none. -/
theorem wit_cipherRequestPlacement : Meets Working cipherEvent (ciphering hub2) .cipherRequestPlacement ∧ (ciphering hub2).cphSpot 1 0 = some (0, false) ∧
    Meets Working cipherEvent (ciphering hub3) .cipherRequestPlacement ∧ (ciphering hub3).cphSpot 1 0 = none ∧ (ciphering hub3).cphAny 1 = false :=
  ⟨meets_cipher fine2 gentle2, by decide +kernel, meets_cipher fine3 gentle3, by decide +kernel, by decide +kernel⟩
theorem wit_class0Resume (e : Fin 8) : Meets Working cipherEvent s0 (.class0Resume e) := ⟨work0, _, rfl, trivial⟩

/-- A message in its data phase on pipeline 0: n bytes from 0x50000 to 0x60000. -/
def msg (op mode n : Nat) : Msg := { Msg.fresh [BitVec.ofNat 64 (op * 256 + mode * 16)] 1 0x50000 n 0x60000 n with ph := .data }
/-- The key store holds a key in slot 0, and pipeline 0 works on m. -/
def cph0 (m : Msg) : Cph :=
  { hub1.cph with slots := [(0, some { key := 5, attr := 0x0F })], pipes := [(0, { active := some { req := engReq 0x18, cls := 1, msg := some m }, susp := none })] }
def working (m : Msg) : State := vary hub1 (css5 hub1) hub1.cmp (cph0 m)
theorem on_working (m : Msg) : On (working m) 0 (engReq 0x18) 1 m := by
  have c : hub1.cph.clearing = [] := by decide +kernel
  exact ⟨rfl, vary_def hub1 (css5 hub1) _ _ 1 fine1.free.1 fine1.free.2, c⟩
theorem work_working (m : Msg) : Working (working m) := vary_work hub1 _ _ _ fine1.work
theorem byte_working (m : Msg) (a : Nat) : (working m).byte a = 0 := (vary_byte hub1 _ _ _ a).trans (fine_byte fine1 a).1
/-- A stretch of a message fits where its output does. -/
theorem meets_data {op mode : Nat} (h : 1 ≤ op ∧ op ≤ 4) (k : (msg op mode 16).op = op ∧ (msg op mode 16).mode ≠ 0 ∧ (msg op mode 16).mode ≠ 6)
    (l : (stretch (working (msg op mode 16)) (msg op mode 16) 16 (List.replicate 16 0)).1.length ≤ 16) : (cipherWork (working (msg op mode 16)) 0 1 op).pre := by
  refine .inr ⟨_, _, _, on_working _, .inr (.inr ⟨rfl, .inl ⟨⟨h.1, h.2, k.2.1, k.2.2⟩, 0x60000, 0x50000,
    region_vary fine1 _ _ _ _ _ _ (show 0x50000 + 16 ≤ 2 ^ 28 by decide) (show 0x50000 < 2 ^ 28 by decide), region_vary fine1 _ _ _ _ _ _ ?_ (show 0x60000 < 2 ^ 28 by decide)⟩⟩)⟩
  simp only [byte_working]
  have e : (List.range (if (msg op mode 16).hold = true then (msg op mode 16).srcLen else min (16 * 1) (msg op mode 16).srcLen)).map (fun _ => (0 : Byte)) = List.replicate 16 0 := rfl
  rw [e]
  exact Nat.le_trans (Nat.add_le_add_left l _) (show 0x60000 + 16 ≤ 2 ^ 28 by decide)
theorem wit_data_ops : Meets Working cipherEvent (working (msg 1 3 16)) (.encrypt 0 1) ∧ Meets Working cipherEvent (working (msg 2 3 16)) (.decrypt 0 1) ∧
    Meets Working cipherEvent (working (msg 3 5 16)) (.macGen 0 1) ∧ Meets Working cipherEvent (working (msg 4 5 16)) (.macVerify 0 1) := by
  refine ⟨⟨work_working _, _, rfl, meets_data (by decide) (by decide +kernel) (by decide +kernel)⟩, ⟨work_working _, _, rfl, meets_data (by decide) (by decide +kernel) (by decide +kernel)⟩,
    ⟨work_working _, _, rfl, meets_data (by decide) (by decide +kernel) (by decide +kernel)⟩, ⟨work_working _, _, rfl, meets_data (by decide) (by decide +kernel) (by decide +kernel)⟩⟩
theorem wit_key_ops : Meets Working cipherEvent (working (msg 0x10 0 64)) (.keyLoad 0 1) ∧ Meets Working cipherEvent (working (msg 0x11 0 64)) (.keyGen 0 1) ∧
    Meets Working cipherEvent (working (msg 0x12 0 64)) (.keyExport 0 1) ∧ Meets Working cipherEvent (working (msg 0x13 0 64)) (.keyClear 0 1) ∧
    Meets Working cipherEvent (working (msg 0x20 0 64)) (.random 0 1) := by
  have r : ∀ m w a, a + 64 ≤ 2 ^ 28 → a < 2 ^ 28 → Region (working m) 1 a 64 a w := fun _ _ _ => region_vary fine1 _ _ _ _ _ _
  refine ⟨⟨work_working _, _, rfl, .inr ⟨_, _, _, on_working _, .inr (.inr ⟨rfl, .inr (.inl ⟨?_, rfl, _, r _ _ _ (by decide) (by decide)⟩)⟩)⟩⟩,
    ⟨work_working _, _, rfl, .inr ⟨_, _, _, on_working _, .inr (.inr ⟨rfl, .inr (.inr (.inl ⟨?_, .inl rfl, _, r _ _ _ (by decide) (by decide)⟩))⟩)⟩⟩,
    ⟨work_working _, _, rfl, .inr ⟨_, _, _, on_working _, .inr (.inr ⟨rfl, .inr (.inr (.inl ⟨?_, .inr rfl, _, r _ _ _ (by decide) (by decide)⟩))⟩)⟩⟩,
    ⟨work_working _, _, rfl, .inr ⟨_, _, _, on_working _, .inr (.inr ⟨rfl, .inr (.inr (.inr (.inl ⟨?_, rfl⟩)))⟩)⟩⟩,
    ⟨work_working _, _, rfl, .inr ⟨_, _, _, on_working _, .inr (.inr ⟨rfl, .inr (.inr (.inr (.inr ⟨?_, rfl, 0x60000, ?_, .inl rfl⟩)))⟩)⟩⟩⟩
  · decide +kernel
  · decide +kernel
  · decide +kernel
  · decide +kernel
  · decide +kernel
  · exact region_vary fine1 _ _ _ _ _ _ (by decide) (by decide)
/-- The target slot of `wit_key_ops` is full; here it is empty. -/
def msg1 (op : Nat) : Msg := { msg op 0 64 with blk := [BitVec.ofNat 64 (op * 256), 0, 0, 0, 1] }
theorem wit_key_empty : Meets Working cipherEvent (working (msg1 0x10)) (.keyLoad 0 1) ∧ Meets Working cipherEvent (working (msg1 0x11)) (.keyGen 0 1) ∧
    (∀ m, (working m).keySlot 1 = none ∧ ((working m).keySlot 0).isSome = true) ∧ blkKey1 (msg1 0x10).blk = 1 ∧ blkKey1 (msg 0x10 0 64).blk = 0 := by
  have r : ∀ m w a, a + 64 ≤ 2 ^ 28 → a < 2 ^ 28 → Region (working m) 1 a 64 a w := fun _ _ _ => region_vary fine1 _ _ _ _ _ _
  refine ⟨⟨work_working _, _, rfl, .inr ⟨_, _, _, on_working _, .inr (.inr ⟨rfl, .inr (.inl ⟨?_, rfl, _, r _ _ _ (by decide) (by decide)⟩)⟩)⟩⟩,
    ⟨work_working _, _, rfl, .inr ⟨_, _, _, on_working _, .inr (.inr ⟨rfl, .inr (.inr (.inl ⟨?_, .inl rfl, _, r _ _ _ (by decide) (by decide)⟩))⟩)⟩⟩,
    fun m => ⟨rfl, rfl⟩, ?_, ?_⟩ <;> decide +kernel
/-- A message that is over, one that goes on, and one whose pipeline is upset. -/
theorem wit_cipherCompletion (upset : Bool) : Meets Working cipherEvent (working (msg 1 3 16)) (.cipherCompletion 0 false) ∧
    Meets Working cipherEvent (working { (msg 1 3 16).over 0 0 with blk := [0x130] }) (.cipherCompletion 0 upset) ∧
    Meets Working cipherEvent s0 (.cipherCompletion 0 upset) := by
  have n : (s0.pipe 0).active = none := by decide +kernel
  have f : Soft hub1 (0x481 + 8 * 0) := soft_of (by decide +kernel)
  exact ⟨⟨work_working _, _, rfl, .inr ⟨_, _, _, on_working _, (fun h => by cases h), .inl ⟨by decide +kernel, rfl⟩⟩⟩,
    ⟨work_working _, _, rfl, .inr ⟨_, _, _, on_working _, (fun _ => vary_soft hub1 _ _ _ _ f), .inr ⟨by decide +kernel, by decide +kernel, by decide +kernel, by decide,
      (fun t h => by cases h), 0x40040, ring0, 0x20000, region_vary fine1 _ _ _ _ _ _ (by decide) (by decide), can5 fine1 _ _ _ rfl, fun i j _ _ => by omega⟩⟩⟩,
    work0, _, rfl, .inl n⟩
/-- Output that is overwritten with zeros, all of it at once and in part, and none. -/
theorem wit_authFailZeroing : (∀ n ∈ [0, 1, 4], Meets Working cipherEvent (working { msg 2 1 0 with ph := .zeroing, outTotal := 64 }) (.authFailZeroing 0 n)) ∧
    Meets Working cipherEvent s0 (.authFailZeroing 0 1) := by
  have n : (s0.pipe 0).active = none := by decide +kernel
  refine ⟨fun k h => ⟨work_working _, _, rfl, .inr ⟨_, _, _, on_working _, .inr (.inr ⟨0x60000, region_vary fine1 _ _ _ _ _ _ ?_ (by decide)⟩)⟩⟩, work0, _, rfl, .inl n⟩
  show 0x60000 + min (16 * k) 64 ≤ 2 ^ 28
  omega

/-! ### Witnesses: the key store, the random source, the queue -/

/-- Partition 1 owns slots 0 to 7, and the command block is at 0x100. -/
def keyed : State := withRegs [(aCphKrange 1, 2 ^ 63 + 8), (aCphKcmdAddr, 0x100)] hub1
theorem work_keyed : Working keyed := calm_of (by decide +kernel)
theorem block_keyed : keyed.slotOwner 0 = 1 ∧ keyed.slotOwner 8 = 0 ∧ keyed.keySlot 0 = none ∧ keyed.flag aCphKcmdStatus 63 = false ∧ kcmdBlock keyed = 256 ∧
    (∀ i, i < 256 → keyed.memOk (256 + i) = true) := by decide +kernel
theorem blockFine_keyed (imp : Bool) : BlockFine keyed imp := by
  have b := block_keyed
  have z : keyed.poison = [] ∧ keyed.mem = [] := by decide +kernel
  have m := modLine_of (s := keyed) (by decide +kernel) (by decide +kernel)
  unfold BlockFine
  rw [b.2.2.2.2.1]
  refine ⟨b.2.2.2.2.2 0 (by decide), fun i _ => ⟨?_, fun _ => ?_⟩⟩
  · unfold State.badByte
    rw [m, z.1]
    rfl
  · unfold State.byte
    rw [m, z.2]
    rfl
/-- Each command on a slot of partition 1 and on one that nobody owns, with a block in order. -/
theorem wit_keyCommands (k : BitVec 13) : Meets Working keyEvent keyed (.sealGen k) ∧ Meets Working keyEvent keyed (.sealLoad k) ∧ Meets Working keyEvent keyed (.keyImport k) ∧
    Meets Working keyEvent keyed (.clearKey k) ∧ Meets Working keyEvent keyed (.keyQuery k) := by
  have w : keyed.winShut aCphKcmd = false ∧ keyed.cph.clearing = [] := by decide +kernel
  have c : ∀ l, OneCopy keyed l := oneCopy_of (by decide +kernel) (by decide +kernel)
  have m : ∀ i, i < 64 → keyed.memOk (kcmdBlock keyed + 64 + i) = true := by decide +kernel
  exact ⟨⟨work_keyed, _, rfl, w.1, fun _ i h => ⟨m i h, c _⟩⟩, ⟨work_keyed, _, rfl, w.1, fun _ => trivial⟩, ⟨work_keyed, _, rfl, w.1, fun _ => trivial⟩,
    ⟨work_keyed, _, rfl, w.1, w.2⟩, work_keyed, _, rfl, w.1, c _⟩
theorem wit_random (p : Fin 32) (v : Word) : Meets Working keyEvent keyed (.cphKrangeWrite p v) ∧ Meets Working keyEvent s0 .rngDataRead ∧ Meets Working keyEvent s0 .retest ∧
    Meets Working keyEvent s0 (.rngHealthFail 1) ∧ Meets Working keyEvent s0 (.rngHealthFail 2) ∧ Meets Working keyEvent s0 (.rngHealthFail 3) := by
  have w : keyed.winShut aCphStatus = false ∧ smWf (fun _ => none) keyed.cph.slots = true ∧ s0.winShut aRngData = false ∧ s0.winShut aRngCtl = false := by decide +kernel
  have f : Soft s0 0x4D1 ∧ Soft s0 0x4D2 := ⟨soft_of (by decide +kernel), soft_of (by decide +kernel)⟩
  exact ⟨⟨work_keyed, _, rfl, w.1, w.2.1⟩, ⟨work0, _, rfl, w.2.2.1⟩, ⟨work0, _, rfl, w.2.2.2, f.2⟩, ⟨work0, _, rfl, f.1⟩, ⟨work0, _, rfl, f.1⟩, work0, _, rfl, f.2⟩
theorem wit_StepRunsFront : s1.pending = [] ∧ s1.calm = true ∧ s1.pwr.todRun = true ∧ s1.tod + 1 < s1.nextBoundary := by decide +kernel
theorem wit_MemoryCanonical : ∃ s t : State, Memory.wf s.mem = true ∧ step s = .next t := by
  have h : Memory.wf s0.mem = true ∧ (match step s0 with | .next _ => true | _ => false) = true := by decide +kernel
  refine ⟨s0, (match step s0 with | .next t => t | _ => s0), h.1, ?_⟩
  have k := h.2
  split at k
  · rename_i t e
    rw [e]
  · cases k

/-! ### The other statements with hypotheses: where their witnesses stand -/

theorem wit_DivideFlagClears : ∃ (s : State) (at_ : Issue), Ready s at_.lp ∧ at_.last = true ∧ at_.slot = 0 := ⟨s0, at0 0, ready0, rfl, rfl⟩
theorem wit_Waiting : ∃ (s : State) (at_ : Issue), Ready s at_.lp ∧ at_.last = true ∧ at_.slot = 0 ∧ 1 ≤ (s.lp at_.lp).arch.pl :=
  ⟨s0, at0 0, ready0, rfl, rfl, by decide +kernel⟩
theorem wit_InstructionSynchronisation : ∃ (s : State) (at_ : Issue), Ready s at_.lp ∧ at_.last = true ∧ at_.slot = 0 ∧ Drained s at_.lp ∧ Unheld s at_.lp :=
  ⟨s0, at0 0, ready0, rfl, rfl, drained0, by unfold Unheld; decide +kernel⟩
/-- One row of each table of events; a theorem above shows each other row. -/
theorem wit_Events : (∃ s i, Meets Working triadEvent s i) ∧ (∃ s i, Meets Working tickEvent s i) ∧ (∃ s i, Meets Working memoryEvent s i) ∧
    (∃ s i, Meets Working powerEvent s i) ∧ (∃ s i, Meets Working faultTable s i) ∧ (∃ s i, Meets Working debugEvent s i) ∧ (∃ s i, Meets Steady saveEvent s i) ∧
    (∃ s i, Meets Working ringEvent s i) ∧ (∃ s i, Meets Working portEvent s i) ∧ (∃ s i, Meets Working sessionEvent s i) ∧ (∃ s i, Meets Working pcieEvent s i) ∧
    (∃ s i, Meets Working partitionEvent s i) ∧ (∃ s i, Meets Working engineEvent s i) ∧ (∃ s i, Meets Working cipherEvent s i) ∧ ∃ s i, Meets Working keyEvent s i :=
  ⟨⟨_, _, wit_voterRelease.1⟩, ⟨_, _, wit_hubTickPeriodWrite.1⟩, ⟨_, _, wit_storePerformed.1⟩, ⟨_, _, wit_gates.1 0⟩, ⟨_, _, wit_unackWrite 0⟩, ⟨_, _, wit_halt.1⟩,
    ⟨_, _, wit_SaveEvents.1⟩, ⟨_, _, wit_opNop.1⟩, ⟨_, _, wit_portStates.1⟩, ⟨_, _, (wit_paths true).1⟩, ⟨_, _, wit_inboundRequest.1⟩,
    ⟨_, _, (wit_PartitionEvents 0 0).1⟩, ⟨_, _, (wit_sliceBoundary 0).1⟩, ⟨_, _, wit_data_ops.1⟩, ⟨_, _, (wit_random 0 0).1⟩⟩
theorem wit_EncodedWords : ∃ i at_ w, wordOf i = some (at_, w) := ⟨.add (at0 0) 0 0 0, _, _, rfl⟩

/-! ### Ill-formed commands: a term for each check of `Instr.wf`, beside one at the bound that passes -/

theorem test_wf_ballot : Instr.wf (.voterRelease 0 (.odd .lead 7 0 [191])) = true ∧ Instr.wf (.voterRelease 0 (.odd .lead 8 0 [])) = false ∧
    Instr.wf (.voterRelease 0 (.odd .lead 0 0 [])) = false ∧ Instr.wf (.voterRelease 0 (.odd .lead 1 0 [192])) = false ∧ Instr.wf (.voterRelease 0 (.none 8 0)) = false := by
  decide
theorem test_wf_triads : Instr.wf (.resyncFreeze 0 [1231] false) = true ∧ Instr.wf (.resyncFreeze 0 [1232] false) = false ∧
    Instr.wf (.trdCtlRecover 0 [31]) = true ∧ Instr.wf (.trdCtlRecover 0 [32]) = false ∧ Instr.wf (.cmdOff 0 0 [32]) = false := by decide
theorem test_wf_lines : Instr.wf (.combiningBufferDrain 0 (2 ^ 37 - 1)) = true ∧ Instr.wf (.combiningBufferDrain 0 (2 ^ 37)) = false ∧
    Instr.wf (.cacheFill 0 (2 ^ 37)) = false ∧ Instr.wf (.memCe (2 ^ 44)) = false ∧ Instr.wf (.memUe (2 ^ 44)) = false ∧
    Instr.wf (.registerWrite 0 0 8 0) = true ∧ Instr.wf (.registerWrite 0 0 3 0) = false ∧ Instr.wf (.registerWrite 0 (2 ^ 44) 8 0) = false := by decide
theorem test_wf_intervals : Instr.wf (.intervalExpiry (.login 4095 7)) = true ∧ Instr.wf (.intervalExpiry (.login 4095 8)) = false ∧
    Instr.wf (.intervalExpiry (.keepalive 4096 0)) = false ∧ Instr.wf (.intervalExpiry (.pathWait 4096)) = false ∧ Instr.wf (.intervalExpiry (.resume 4096)) = false := by
  decide
theorem test_wf_start : Instr.wf (.chipReset env0) = true ∧ Instr.wf (.chipReset { env0 with badPlls := [49] }) = false ∧
    Instr.wf (.chipReset { env0 with badDies := [4] }) = false ∧ Instr.wf (.chipReset { env0 with badCores := [128] }) = false ∧
    Instr.wf (.chipReset { env0 with links := [{ cap := 5, version := 2, width := 8, saved := false, kept := false }] }) = false ∧
    Instr.wf (.chipReset { env0 with ports := List.replicate 33 0 }) = false ∧ Instr.wf (.chipReset { env0 with roots := List.replicate 17 0 }) = false ∧
    Instr.wf (.chipReset { env0 with badEngines := [8] }) = false ∧ Instr.wf (.chipReset { env0 with badPipes := [8] }) = false ∧
    Instr.wf (.keystoneStepLimit 0 { env0 with times := List.replicate 21 0 }) = false := by decide +kernel
theorem test_wf_data : Instr.wf (.data 0 0 0 0 0 (List.replicate 8193 0)) = false ∧ Instr.wf (.inboundRequest 0 0 0 0 (.read 0) 0) = false ∧
    Instr.wf (.inboundRequest 0 0 0 0 (.read 4097) 0) = false ∧ Instr.wf (.inboundRequest 0 0 0 0 (.write []) 0) = false ∧ Instr.wf (.sensorRead []) = false := by
  decide +kernel
theorem test_wf_faultEvent : Instr.wf (.faultEvent 0x4E6 0 0 0 0 32) = true ∧ Instr.wf (.faultEvent 0x4E7 0 0 0 0 0) = false ∧ Instr.wf (.faultEvent 0x643 0 0 0 0 0) = true ∧
    Instr.wf (.faultEvent 0x644 0 0 0 0 0) = false ∧ Instr.wf (.faultEvent 0 0 0 0 0 33) = false := by decide

/-! ### The spec's worked examples -/

/-- The example after 03 R76: `mulh` of the most negative word by itself, and the matching `mul`, by a step. -/
theorem test_mulh : (arch (.mulh (at0 0) 1 2 2) (withG (2 ^ 63) 0 s0)).rdG 1 = 0x4000000000000000 ∧
    (arch (.mul (at0 0) 1 2 2) (withG (2 ^ 63) 0 s0)).rdG 1 = 0 := by decide +kernel
/-- The table of 03 R79's example. -/
theorem test_divTime : divTime false true 1000000 7 = 10 ∧ divTime false true 5 100 = 4 ∧ divTime false true (2 ^ 63) 1 = 26 ∧
    divTime false true 0x7FFFFFFFFFFFFFFF (-3) = 25 ∧ divTime false false 12 0 = 6 ∧ divTime false false 0 0 = 5 ∧ divTime true true 5 100 = 26 := by decide +kernel
/-- The table of 03 R88: the edges of `ext.q15`. -/
theorem test_extQ15 : qExt .q15 0 (BitVec.ofInt 160 (2 ^ 126)) = (0x7FFF, true) ∧ qExt .q15 3 (BitVec.ofInt 160 (2 ^ 159 - 1)) = (0x7FFF, true) ∧
    qExt .q15 1 (BitVec.ofInt 160 (-(2 ^ 126))) = (0xFFFFFFFFFFFF8000, false) ∧ qExt .q15 2 (BitVec.ofInt 160 (-(2 ^ 159))) = (0xFFFFFFFFFFFF8000, true) ∧
    qExt .q15 0 (BitVec.ofInt 160 (2 ^ 126 - 2 ^ 110)) = (0x7FFF, false) ∧ qExt .q15 3 (BitVec.ofInt 160 (2 ^ 126 - 2 ^ 110)) = (0x7FFF, false) ∧
    qExt .q15 1 (BitVec.ofInt 160 (2 ^ 126 - 2 ^ 110)) = (0x7FFF, true) ∧ qExt .q15 2 (BitVec.ofInt 160 (2 ^ 126 - 2 ^ 110)) = (0x7FFF, true) ∧
    qExt .q15 0 (-1) = (0xFFFFFFFFFFFFFFFF, false) ∧ qExt .q15 1 (-1) = (0, false) ∧ qExt .q15 2 (-1) = (0, false) ∧ qExt .q15 3 (-1) = (0, false) := by decide +kernel
/-- The first product of the example after 03 R88: 0.5 times 0.75, by a step. -/
theorem test_macQ15 : (arch (.macQ15 (at0 3) 0 2 3) (withG 0x4000 0x6000 s0)).rdAcc 0 = BitVec.ofNat 160 (0x1800000000000000 * 2 ^ 64) := by decide +kernel
/-- The example of 16: BRANCH at 0x1A40 with C1 = 4, C0 = 5 and NEXT 0x1A50, a match register that redirects, JUMP to 0x1A60. -/
def sampled : UcSample :=
  { aluZero := false, aluNegative := false, aluCarry := false, loopZero := false, unitBoundary := true, event := false, memFault := false, engineReady := false
    engineStatus := false, ti := false, atM := false, delay := false, progress := false, escalation := false, holdReply := false }
def branchWord : Nat := 0x1A50 * 2 ^ 129 + 2 * 2 ^ 126 + 4 * 2 ^ 114 + 5 * 2 ^ 110
theorem test_sequencer : ucC sampled branchWord = 1 ∧ Useq.next { addr := 0x1A40, stack := [] } branchWord 1 = .go { addr := 0x1A51, stack := [] } ∧
    ucRedirect [0x8000000000694413] 0x1A51 = 0x4013 ∧
    Useq.next { addr := 0x4013, stack := [] } (0x1A60 * 2 ^ 129 + 1 * 2 ^ 126) 0 = .go { addr := 0x1A60, stack := [] } := by decide +kernel
/-- 10 R260: of links 0, 1 and 2 of one capacity the map takes 0 and 1. -/
theorem test_mapPick : mapPick (fun m => if m < 3 then 4 else 0) = [0, 1] := by decide +kernel
/-- 02 R46: a bundle in which each instruction reads what the other writes swaps two registers. -/
theorem test_swap : let t := after (.add (at0 3) 3 2 0) (after (.add ⟨0, 0, false⟩ 2 3 0) (withG 7 9 s0))
    (t.lp 0).arch.rdG 2 = 9 ∧ (t.lp 0).arch.rdG 3 = 7 := by decide +kernel
/-- No row of the opcode table has bits (log entry 2). -/
theorem test_decodeTableWord : decodeTableWord 32 0 = none := rfl

end Sys2Proof.Tests
end

section
/-! The field and checksum groups (02 R60 to R63): lemmas on the fields, bytes and checksums of words, and the two statements. -/

namespace Sys2Proof.Machine
open Sys2Proof Sys2Proof.Claims

/-! ### Commands that write one general register -/

/-- The command i stages a slot of the integer group whose one effect is to write v to g rd. -/
def Gives (s : State) (i : Instr) (at_ : Issue) (rd : Reg) (v : Word) : Prop :=
  ∃ mk time srcs, exec i s = .next (s.stage at_ mk).settle ∧ mk (s.slotCtx at_.lp) = effG time rd srcs v

theorem quietSlot_effG (time : Nat) (rd : Reg) (srcs : List Reg) (v : Word) : QuietSlot (effG time rd srcs v) := by
  constructor <;> simp [effG]

/-- In a bundle of one instruction such a command completes, and only rd has changed. -/
theorem Gives.completes {s : State} {i : Instr} {at_ : Issue} {rd : Reg} {v : Word} (h : Gives s i at_ rd v) (hr : Ready s at_.lp)
    (hl : at_.last = true) :
    ∃ t, exec i s = .next t ∧ Executed s t at_.lp [.g rd.toNat] [] ∧ Sequential (s.lp at_.lp).arch (t.lp at_.lp).arch ∧
      (rd ≠ 0 → (t.lp at_.lp).arch.rdG rd.toNat = v) := by
  obtain ⟨mk, time, srcs, hx, hm⟩ := h
  obtain ⟨hexec, hseq, hval, -⟩ := stage_g (mk := mk) (rd := rd) (v := v) (ks := []) hr hl
    (by rw [hm]; exact quietSlot_effG ..) (by rw [hm]; rfl) (by rw [hm]; rfl) (by rw [hm]; rfl) (by rw [hm]; rfl)
    (.inr (by rw [hm]; exact ⟨rfl, rfl⟩)) (.inr (by rw [hm]; rfl)) (.inr (by rw [hm]; exact ⟨rfl, rfl⟩))
  exact ⟨_, hx, hexec, hseq, hval⟩

/-! ### Bits of words and of numbers built from blocks -/

theorem getLsbD_w64 (n : Nat) {i : Nat} (hi : i < 64) : (w64 n).getLsbD i = n.testBit i := by
  rw [w64, BitVec.getLsbD_ofNat, decide_eq_true hi, Bool.true_and]

theorem testBit_bits (w : Word) (h l i : Nat) : (bits w h l).testBit i = (decide (i < h + 1 - l) && w.getLsbD (l + i)) := by
  rw [bits, Nat.testBit_mod_two_pow, Nat.testBit_shiftRight, BitVec.testBit_toNat]

theorem testBit_byteOf (w : Word) (b : Nat) {i : Nat} (hi : i < 8) : (byteOf w b).testBit i = w.getLsbD (8 * b + i) := by
  have hw : i < 8 * b + 7 + 1 - 8 * b := by omega
  simp [byteOf, testBit_bits, hw]

/-- The sum of n blocks of k bits, block i at bit k·i. -/
def packed (k : Nat) (f : Nat → Nat) (n : Nat) : Nat := (List.range n).foldl (fun acc i => acc + f i <<< (k * i)) 0

theorem packed_succ (k : Nat) (f : Nat → Nat) (n : Nat) : packed k f (n + 1) = 2 ^ (k * n) * f n + packed k f n := by
  simp [packed, List.range_succ, Nat.shiftLeft_eq, Nat.add_comm, Nat.mul_comm]

theorem packed_lt {k : Nat} {f : Nat → Nat} (hf : ∀ i, f i < 2 ^ k) (n : Nat) : packed k f n < 2 ^ (k * n) := by
  induction n with
  | zero => simp [packed]
  | succ n ih =>
    rw [packed_succ, Nat.mul_succ, Nat.pow_add]
    calc 2 ^ (k * n) * f n + packed k f n < 2 ^ (k * n) * (f n + 1) := by rw [Nat.mul_succ]; omega
      _ ≤ 2 ^ (k * n) * 2 ^ k := Nat.mul_le_mul_left _ (hf n)

/-- Blocks that fit do not overlap: bit j stands in block j / k. -/
theorem testBit_packed {k : Nat} {f : Nat → Nat} (hf : ∀ i, f i < 2 ^ k) {n j : Nat} (hj : j < k * n) :
    (packed k f n).testBit j = (f (j / k)).testBit (j % k) := by
  induction n with
  | zero => omega
  | succ n ih =>
    rw [packed_succ, Nat.testBit_two_pow_mul_add _ (packed_lt hf n)]
    by_cases hlow : j < k * n
    · rw [if_pos hlow, ih hlow]
    · have hdiv : j / k = n := Nat.div_eq_of_lt_le (by rw [Nat.mul_comm]; omega) (by rw [Nat.mul_comm]; exact hj)
      have hmod : j % k = j - k * n := by rw [Nat.mod_eq_sub, hdiv]
      rw [if_neg hlow, hdiv, hmod]

theorem mapBytes_eq_packed (f : Nat → Nat) : mapBytes f = w64 (packed 8 (fun i => f i % 2 ^ 8) 8) := rfl

theorem getLsbD_mapBytes (f : Nat → Nat) {i : Nat} (hi : i < 64) : (mapBytes f).getLsbD i = (f (i / 8)).testBit (i % 8) := by
  have hmod : i % 8 < 8 := Nat.mod_lt _ (by decide)
  rw [mapBytes_eq_packed, getLsbD_w64 _ hi, testBit_packed (fun _ => Nat.mod_lt _ (by decide)) (by omega),
    Nat.testBit_mod_two_pow, decide_eq_true hmod, Bool.true_and]

/-! ### Reversal and parity -/

theorem revBits_lt (k n : Nat) : revBits k n < 2 ^ k := by
  induction k generalizing n with
  | zero => simp [revBits]
  | succ k ih =>
    have hbit : n % 2 < 2 := Nat.mod_lt _ (by decide)
    have hrest := ih (n / 2)
    rw [revBits, Nat.shiftLeft_eq, Nat.pow_succ]
    have : n % 2 * 2 ^ k ≤ 1 * 2 ^ k := Nat.mul_le_mul_right _ (by omega)
    omega

theorem testBit_revBits {k i : Nat} (n : Nat) (hi : i < k) : (revBits k n).testBit i = n.testBit (k - 1 - i) := by
  induction k generalizing n with
  | zero => omega
  | succ k ih =>
    rw [revBits, Nat.shiftLeft_eq, Nat.mul_comm, Nat.testBit_two_pow_mul_add _ (revBits_lt k _)]
    by_cases hlow : i < k
    · have hpos : k + 1 - 1 - i = (k - 1 - i) + 1 := by omega
      rw [if_pos hlow, ih _ hlow, hpos, Nat.testBit_succ]
    · have htop : i = k := by omega
      subst htop
      simp [Nat.testBit_zero]

/-- A fold over the low bits of v, the lowest taken first. -/
theorem foldl_testBit_succ {α : Type} (f : α → Bool → α) (k v : Nat) (c : α) :
    (List.range (k + 1)).foldl (fun c i => f c (v.testBit i)) c =
      (List.range k).foldl (fun c i => f c ((v / 2).testBit i)) (f c (v.testBit 0)) := by
  simp only [List.range_succ_eq_map, List.foldl_cons, List.foldl_map, Nat.succ_eq_add_one, Nat.testBit_succ]

theorem foldl_xor_testBit (k n : Nat) (b : Bool) :
    (List.range k).foldl (fun b i => b ^^ n.testBit i) b = (b ^^ (onesBits k n).testBit 0) := by
  induction k generalizing n b with
  | zero => simp [onesBits]
  | succ k ih =>
    have hsum : (onesBits (k + 1) n).testBit 0 = (n.testBit 0 ^^ (onesBits k (n / 2)).testBit 0) := by
      simp only [onesBits, Nat.testBit_zero]
      rcases Nat.mod_two_eq_zero_or_one n with h | h <;> rcases Nat.mod_two_eq_zero_or_one (onesBits k (n / 2)) with h' | h' <;>
        simp [Nat.add_mod, h, h']
    rw [foldl_testBit_succ (fun b x => b ^^ x), ih, hsum, Bool.xor_assoc]

theorem testBit_onesBits_zero (k n : Nat) :
    (onesBits k n).testBit 0 = (List.range k).foldl (fun b i => b ^^ n.testBit i) false := by
  rw [foldl_xor_testBit, Bool.false_xor]

/-! ### The results of the field and checksum groups -/

theorem bfWidth_pos {p : Nat} (hp : p < 64) (l : Nat) : 0 < bfWidth p (l + 1) := by unfold bfWidth; omega

/-- `bf.ext` (02 R60). -/
theorem getLsbD_bfExt (a : Word) {p l i : Nat} (hp : p < 64) (hi : i < 64) :
    (bfExt a p (l + 1)).getLsbD i = (decide (i ≤ l ∧ p + i < 64) && a.getLsbD (p + i)) := by
  have hcut : (i < p + bfWidth p (l + 1) - 1 + 1 - p) = (i ≤ l ∧ p + i < 64) := by unfold bfWidth; apply propext; omega
  rw [bfExt, getLsbD_w64 _ hi, testBit_bits]
  simp only [hcut]

/-- `bf.exts` (02 R60): bit w − 1 of the field is repeated above it. -/
theorem getLsbD_bfExts (a : Word) {p l i : Nat} (hp : p < 64) (hi : i < 64) :
    (bfExts a p (l + 1)).getLsbD i = a.getLsbD (p + min (min i l) (63 - p)) := by
  obtain ⟨w, hw⟩ : ∃ w, bfWidth p (l + 1) = w + 1 := ⟨min l (63 - p), by unfold bfWidth; omega⟩
  have hmin : min (min i l) (63 - p) = min i w := by unfold bfWidth at hw; omega
  have hw64 : w < 64 := by unfold bfWidth at hw; omega
  have hfield : ∀ j, j ≤ w → (bits a (p + w) p).testBit j = a.getLsbD (p + j) := fun j hj => by
    have : j < p + w + 1 - p := by omega
    simp [testBit_bits, this]
  have hlt : bits a (p + w) p < 2 ^ (w + 1) := by
    have : p + w + 1 - p = w + 1 := by omega
    rw [bits, this]; exact Nat.mod_lt _ (Nat.two_pow_pos _)
  have hext : bits a (p + w) p + (2 ^ 64 - 2 ^ (w + 1)) = 2 ^ (w + 1) * (2 ^ (63 - w) - 1) + bits a (p + w) p := by
    have : 2 ^ 64 = 2 ^ (w + 1) * 2 ^ (63 - w) := by rw [← Nat.pow_add]; congr 1; omega
    rw [Nat.mul_sub, ← this]; omega
  have hunfold : bfExts a p (l + 1) =
      if a.getLsbD (p + w) then w64 (2 ^ (w + 1) * (2 ^ (63 - w) - 1) + bits a (p + w) p) else w64 (bits a (p + w) p) := by
    rw [← hext, ← hfield w le_rfl]; simp [bfExts, hw, ← Nat.add_assoc]
  rw [hunfold, hmin]
  by_cases hin : i ≤ w
  · have hlow : i < w + 1 := by omega
    rw [min_eq_left hin, ← hfield i hin]
    split
    · rw [getLsbD_w64 _ hi, Nat.testBit_two_pow_mul_add _ hlt, if_pos hlow]
    · rw [getLsbD_w64 _ hi]
  · have hhigh : ¬ i < w + 1 := by omega
    rw [min_eq_right (by omega)]
    split
    next hsign =>
      have : i - (w + 1) < 63 - w := by omega
      rw [getLsbD_w64 _ hi, Nat.testBit_two_pow_mul_add _ hlt, if_neg hhigh, hsign, Nat.testBit_two_pow_sub_one]
      simpa using this
    next hsign =>
      rw [getLsbD_w64 _ hi, Nat.testBit_lt_two_pow (hlt.trans_le (Nat.pow_le_pow_right (by decide) (by omega)))]
      simpa using hsign

/-- `bf.ins` (02 R60). -/
theorem getLsbD_bfIns (d a : Word) {p l i : Nat} (hp : p < 64) (hi : i < 64) :
    (bfIns d a p (l + 1)).getLsbD i = if p ≤ i ∧ i ≤ p + l then a.getLsbD (i - p) else d.getLsbD i := by
  have hw := bfWidth_pos hp l
  have hle : bfWidth p (l + 1) ≤ 64 - p := Nat.min_le_right ..
  have hcut : (p ≤ i ∧ i ≤ p + bfWidth p (l + 1) - 1) = (p ≤ i ∧ i ≤ p + l) := by unfold bfWidth; apply propext; omega
  rw [bfIns, ← BitVec.testBit_toNat, testBit_putBits d (by omega) (by omega)]
  simp only [hcut, BitVec.testBit_toNat]

/-- `perm.b` (02 R61). -/
theorem getLsbD_permB (a b : Word) {i : Nat} (hi : i < 64) :
    (permB a b).getLsbD i =
      (decide ((b.toNat >>> (4 * (i / 8))) % 16 < 8) && a.getLsbD (8 * ((b.toNat >>> (4 * (i / 8))) % 16) + i % 8)) := by
  have hsel : bits b (4 * (i / 8) + 3) (4 * (i / 8)) = (b.toNat >>> (4 * (i / 8))) % 16 := by
    have : 4 * (i / 8) + 3 + 1 - 4 * (i / 8) = 4 := by omega
    simp only [bits, this, Nat.reducePow]
  rw [permB, getLsbD_mapBytes _ hi]
  simp only [hsel]
  split
  next h => rw [testBit_byteOf a _ (Nat.mod_lt _ (by decide)), decide_eq_true h, Bool.true_and]
  next h => rw [decide_eq_false h, Bool.false_and, Nat.zero_testBit]

/-- `brev.d` (02 R63). -/
theorem getLsbD_brevD (a : Word) {i : Nat} (hi : i < 64) : (brevD a).getLsbD i = a.getLsbD (63 - i) := by
  rw [brevD, getLsbD_w64 _ hi, testBit_revBits _ hi, BitVec.testBit_toNat]

/-- `brev.b` (02 R63). -/
theorem getLsbD_brevB (a : Word) {i : Nat} (hi : i < 64) : (brevB a).getLsbD i = a.getLsbD (8 * (i / 8) + (7 - i % 8)) := by
  rw [brevB, getLsbD_mapBytes _ hi, testBit_revBits _ (Nat.mod_lt _ (by decide)), testBit_byteOf a _ (by omega)]

/-- `par.d` (02 R63). -/
theorem getLsbD_parD (a : Word) {i : Nat} (hi : i < 64) :
    (parD a).getLsbD i = (decide (i = 0) && (List.range 64).foldl (fun b k => b ^^ a.getLsbD k) false) := by
  have hpar := testBit_onesBits_zero 64 a.toNat
  simp only [BitVec.testBit_toNat] at hpar
  rw [parD, getLsbD_w64 _ hi, ← hpar, popc]
  cases i with
  | zero => simp
  | succ i =>
    have : onesBits 64 a.toNat % 2 / 2 = 0 := by omega
    simp [Nat.testBit_succ, this]

theorem parB_eq_packed (a : Word) : parB a = w64 (packed 1 (fun i => onesBits 8 (byteOf a i) % 2 ^ 1) 8) := by
  simp [parB, packed]

/-- `par.b` (02 R63). -/
theorem getLsbD_parB (a : Word) {i : Nat} (hi : i < 64) :
    (parB a).getLsbD i = (decide (i < 8) && (List.range 8).foldl (fun b k => b ^^ a.getLsbD (8 * i + k)) false) := by
  have hfit : ∀ j, onesBits 8 (byteOf a j) % 2 ^ 1 < 2 ^ 1 := fun _ => Nat.mod_lt _ (by decide)
  rw [parB_eq_packed, getLsbD_w64 _ hi]
  by_cases h8 : i < 8
  · have hpar : (onesBits 8 (byteOf a i)).testBit 0 = (List.range 8).foldl (fun b k => b ^^ a.getLsbD (8 * i + k)) false := by
      rw [testBit_onesBits_zero]
      refine List.foldl_ext _ _ _ fun b k hk => ?_
      rw [testBit_byteOf a i (List.mem_range.mp hk)]
    rw [testBit_packed hfit (by omega), Nat.div_one, Nat.mod_one, Nat.testBit_mod_two_pow, ← hpar]
    simp [h8]
  · have hlt : packed 1 (fun i => onesBits 8 (byteOf a i) % 2 ^ 1) 8 < 2 ^ i :=
      (packed_lt hfit 8).trans_le (Nat.pow_le_pow_right (by decide) (by omega))
    rw [Nat.testBit_lt_two_pow hlt, decide_eq_false h8, Bool.false_and]

/-- Every instruction of the table `fieldBit` writes a word with the bits of the table. -/
theorem gives_of_fieldBit {s : State} {i : Instr} {at_ : Issue} {rd : Reg} {bitOf : Nat → Bool} (h : fieldBit s i = some (at_, rd, bitOf)) :
    ∃ v, Gives s i at_ rd v ∧ ∀ k, k < 64 → v.getLsbD k = bitOf k := by
  unfold fieldBit at h
  split at h
  case h_1 pos _ => cases h; exact ⟨_, ⟨_, _, _, rfl, rfl⟩, fun k hk => getLsbD_bfExt _ pos.isLt hk⟩
  case h_2 pos _ => cases h; exact ⟨_, ⟨_, _, _, rfl, rfl⟩, fun k hk => getLsbD_bfExts _ pos.isLt hk⟩
  case h_3 pos _ => cases h; exact ⟨_, ⟨_, _, _, rfl, rfl⟩, fun k hk => getLsbD_bfIns _ _ pos.isLt hk⟩
  case h_4 => cases h; exact ⟨_, ⟨_, _, _, rfl, rfl⟩, fun k hk => getLsbD_permB _ _ hk⟩
  case h_5 => cases h; exact ⟨_, ⟨_, _, _, rfl, rfl⟩, fun k hk => getLsbD_brevD _ hk⟩
  case h_6 => cases h; exact ⟨_, ⟨_, _, _, rfl, rfl⟩, fun k hk => getLsbD_brevB _ hk⟩
  case h_7 => cases h; exact ⟨_, ⟨_, _, _, rfl, rfl⟩, fun k hk => getLsbD_parD _ hk⟩
  case h_8 => cases h; exact ⟨_, ⟨_, _, _, rfl, rfl⟩, fun k hk => getLsbD_parB _ hk⟩
  case h_9 => cases h

/-! ### Checksum steps -/

theorem crcShift_eq (poly c v : Nat) :
    crcShift poly c (v.testBit 0) = if (c ^^^ v) % 2 = 1 then c / 2 ^^^ poly else c / 2 := by
  have hodd : ((c ^^^ v) % 2 = 1) = ((c.testBit 0 ^^ v.testBit 0) = true) := by
    rw [← Nat.testBit_xor, Nat.testBit_zero, decide_eq_true_eq]
  simp only [crcShift, hodd, Nat.shiftRight_one]

/-- The bit-by-bit checksum of the model is the fold of the table's step over the bits of the data (02 R62). -/
theorem crcBits_eq_foldl (poly k c v : Nat) :
    crcBits poly k c v = (List.range k).foldl (fun c i => crcShift poly c (v.testBit i)) c := by
  induction k generalizing c v with
  | zero => rfl
  | succ k ih => rw [foldl_testBit_succ (crcShift poly), crcShift_eq, ← ih, crcBits]

theorem crcStep32_eq (poly : Nat) (a b : Word) : crcStep32 poly a b = crc64 poly 32 a b := by
  simp only [crcStep32, crcBits_eq_foldl, crc64, w64, BitVec.testBit_toNat]

theorem crcStep64_eq (a b : Word) : crcStep64 a b = crc64 poly64 64 a b := by
  simp only [crcStep64, crcBits_eq_foldl, crc64, w64, BitVec.testBit_toNat, Nat.mod_eq_of_lt a.isLt]

/-- Every instruction of the table `checksum` writes the checksum of the table. -/
theorem gives_of_checksum {s : State} {i : Instr} {at_ : Issue} {rd : Reg} {v : Word} (h : checksum s i = some (at_, rd, v)) :
    Gives s i at_ rd v := by
  unfold checksum at h
  split at h
  case h_1 => cases h; exact ⟨_, _, _, rfl, congrArg (effG _ _ _) (crcStep32_eq poly32 _ _)⟩
  case h_2 => cases h; exact ⟨_, _, _, rfl, congrArg (effG _ _ _) (crcStep32_eq poly32c _ _)⟩
  case h_3 => cases h; exact ⟨_, _, _, rfl, congrArg (effG _ _ _) (crcStep64_eq _ _)⟩
  case h_4 => cases h

/-! ### The statements -/

/-- Settles O4: each instruction of the table gives a word of the table's bits, and completes as a write of one register. -/
theorem fieldResults : Obligations.FieldResults := by
  intro s i at_ rd bitOf h hr hl
  obtain ⟨v, hg, hbits⟩ := gives_of_fieldBit h
  obtain ⟨t, hx, hexec, hseq, hval⟩ := hg.completes hr hl
  exact ⟨t, hx, hexec, hseq, fun h0 k hk => by rw [hval h0, hbits k hk]⟩

/-- Settles O6: the model's checksum is the fold of the table's step, and the command completes as a write of one register. -/
theorem checksumSteps : Obligations.ChecksumSteps := fun _ _ _ _ _ h hr hl => (gives_of_checksum h).completes hr hl

end Sys2Proof.Machine
end

section
/-! Divides, accumulator sums and extractions (03 R77, R78, R81 to R87): what their slots write, the arithmetic of their results, and the
three statements. -/

namespace Sys2Proof.Machine
open Sys2Proof Sys2Proof.Claims

/-! ### Divides -/

theorem word_eq_zero_iff (b : Word) : b = 0 ↔ b.toNat = 0 := by
  rw [← BitVec.toNat_inj]; rfl

theorem divS_eq_quotRem (a b : Word) : divS a b = quotRem true false a b := by
  simp only [divS, quotRem, word_eq_zero_iff]; rfl
theorem remS_eq_quotRem (a b : Word) : remS a b = quotRem true true a b := by
  simp only [remS, quotRem, word_eq_zero_iff, Int.tmod_def, if_true]
theorem divU_eq_quotRem (a b : Word) : divU a b = quotRem false false a b := by
  simp only [divU, quotRem, word_eq_zero_iff]; rfl
theorem remU_eq_quotRem (a b : Word) : remU a b = quotRem false true a b := by
  simp only [remU, quotRem, word_eq_zero_iff]; rfl

/-- A Sealed partition forces PSW.TI and no other bit (02 R39). -/
theorem bit_pswEff (a : Arch) (sl : Bool) {i : Nat} (hi : i ≠ 9) : bit (a.pswEff sl) i = bit a.psw i := by
  cases sl with
  | false => rfl
  | true =>
    have hout : ¬(9 ≤ i ∧ i ≤ 9) := by omega
    exact (bit_putBits _ (by decide) (by decide) 1 i).trans (if_neg hout)

theorem flagDz_divide (psw b : Word) : flagDz psw (decide (b = 0)) false = if b = 0 then putBits psw 16 16 1 else psw := by
  simp [flagDz]

/-- A divide that meets no trap only writes its register and may set PSW.DZ (03 R78). -/
theorem quietSlot_effDivide (f : Word → Word → Word) (signed : Bool) (rd ra rb : Reg) {c : SlotCtx}
    (h : c.g rb ≠ 0 ∨ bit c.arch.psw 17 = false) : QuietSlot (effDivide f signed rd ra rb c) := by
  have hnofault : (effDivide f signed rd ra rb c).fault = none := by
    rcases h with hb | hdzt
    · exact if_neg (by rw [decide_eq_false hb]; exact Bool.false_ne_true)
    · exact if_neg (by simp [bit_pswEff, hdzt])
  exact ⟨rfl, hnofault, by simp [effDivide, effR, effG], rfl, rfl, rfl, rfl, rfl, rfl, rfl⟩

/-- Every instruction of the table `divide` stages a divide whose function gives the result of the table. -/
theorem exec_of_divide {s : State} {i : Instr} {at_ : Issue} {rd : Reg} {b v : Word} (h : divide s i = some (at_, rd, b, v)) :
    ∃ f signed ra rb, exec i s = .next (s.stage at_ (effDivide f signed rd ra rb)).settle ∧ b = g s at_ rb ∧ v = f (g s at_ ra) b := by
  unfold divide at h
  split at h
  case h_1 => cases h; exact ⟨_, _, _, _, rfl, rfl, (divS_eq_quotRem _ _).symm⟩
  case h_2 => cases h; exact ⟨_, _, _, _, rfl, rfl, (remS_eq_quotRem _ _).symm⟩
  case h_3 => cases h; exact ⟨_, _, _, _, rfl, rfl, (divU_eq_quotRem _ _).symm⟩
  case h_4 => cases h; exact ⟨_, _, _, _, rfl, rfl, (remU_eq_quotRem _ _).symm⟩
  case h_5 => cases h

/-! ### Fraction slots -/

/-- A command of slot 3 that writes accumulator k, below 4, completes; only the accumulator and FXCSR.AOV change (03 R83 to R86). -/
theorem stage_effAcc {s : State} {at_ : Issue} {mk : SlotCtx → SlotEff} {time : Nat} {k : Reg} {old aov : Bool} {srcs : List Reg} {v : Acc}
    {ks : List Nat} (h : Ready s at_.lp) (hl : at_.last = true) (hslot : at_.slot = 3) (hk : k.toNat < 4)
    (hm : mk (s.slotCtx at_.lp) = effAcc time k old srcs v aov) (hks : 2 ∈ ks ∨ aov = false) :
    Executed s (s.stage at_ mk).settle at_.lp [.acc k.toNat] ks ∧
    Sequential (s.lp at_.lp).arch ((s.stage at_ mk).settle.lp at_.lp).arch ∧
    ((s.stage at_ mk).settle.lp at_.lp).arch.rdAcc k.toNat = v ∧
    ((s.stage at_ mk).settle.lp at_.lp).arch.fxcsr = flagFx (s.lp at_.lp).arch.fxcsr aov false := by
  rw [effAcc, if_pos hk] at hm
  have hd := stage_quiet (mk := mk) h hl (by rw [hm]; exact ⟨rfl, rfl, by simp, rfl, rfl, rfl, rfl, rfl, rfl, rfl⟩) (by rw [hm, hslot]; rfl)
  rw [State.slotOf, hm] at hd
  obtain ⟨-, -, hfx⟩ := hd.flags rfl rfl
  exact ⟨hd.executed rfl rfl (by simp) (by simp) (by simp) (.inr ⟨rfl, rfl⟩) (.inr rfl) (hks.imp_right fun ha => ⟨ha, rfl⟩),
    hd.sequential rfl rfl rfl, hd.acc_value rfl rfl rfl hk, hfx⟩

/-- A command of slot 3 that writes g rd from accumulator k, below 4, completes; only rd and FXCSR.SAT change (03 R85, R87). -/
theorem stage_effAccG {s : State} {at_ : Issue} {mk : SlotCtx → SlotEff} {time : Nat} {rd k : Reg} {v : Word} {sat : Bool}
    {ks : List Nat} (h : Ready s at_.lp) (hl : at_.last = true) (hslot : at_.slot = 3) (hk : k.toNat < 4)
    (hm : mk (s.slotCtx at_.lp) = effAccG time rd k v sat) (hks : 2 ∈ ks ∨ sat = false) :
    Executed s (s.stage at_ mk).settle at_.lp [.g rd.toNat] ks ∧
    Sequential (s.lp at_.lp).arch ((s.stage at_ mk).settle.lp at_.lp).arch ∧
    (rd ≠ 0 → ((s.stage at_ mk).settle.lp at_.lp).arch.rdG rd.toNat = v) ∧
    ((s.stage at_ mk).settle.lp at_.lp).arch.fxcsr = flagFx (s.lp at_.lp).arch.fxcsr false sat := by
  rw [effAccG, if_pos hk] at hm
  have hd := stage_quiet (mk := mk) h hl (by rw [hm]; exact ⟨rfl, rfl, by simp, rfl, rfl, rfl, rfl, rfl, rfl, rfl⟩) (by rw [hm, hslot]; rfl)
  rw [State.slotOf, hm] at hd
  obtain ⟨-, -, hfx⟩ := hd.flags rfl rfl
  exact ⟨hd.executed rfl rfl (by simp) (by simp) (by simp) (.inr ⟨rfl, rfl⟩) (.inr rfl) (hks.imp_right fun hs => ⟨rfl, hs⟩),
    hd.sequential rfl rfl rfl, fun h0 => hd.g_value rfl rfl rfl rd.isLt fun hz => h0 (BitVec.eq_of_toNat_eq hz), hfx⟩

/-! ### Sums -/

/-- The integer 160-bit word of v has value v just where v is in range. -/
theorem toInt_ofInt_160_iff (v : Int) : (BitVec.ofInt 160 v).toInt = v ↔ -(2 ^ 159) ≤ v ∧ v < 2 ^ 159 := by
  constructor
  · intro h
    exact ⟨h ▸ BitVec.le_toInt _, h ▸ BitVec.toInt_lt⟩
  · rintro ⟨hlo, hhi⟩
    exact BitVec.toInt_ofInt_eq_self (by decide) hlo hhi

theorem flagFx_accSet (fx : Word) (v : Int) :
    flagFx fx (accSet v).2 false = if -(2 ^ 159) ≤ v ∧ v < 2 ^ 159 then fx else putBits fx 9 9 1 := by
  simp only [flagFx, accSet, Bool.false_eq_true, if_false, decide_eq_true_eq, ne_eq, toInt_ofInt_160_iff, ite_not]

/-- The command i stages a slot that sets accumulator k to the true result v. -/
def SetsAcc (s : State) (i : Instr) (at_ : Issue) (k : Reg) (v : Int) : Prop :=
  ∃ mk time srcs, exec i s = .next (s.stage at_ mk).settle ∧ mk (s.slotCtx at_.lp) = effAcc time k true srcs (accSet v).1 (accSet v).2

theorem qVal_eq (q : QFmt) (a : Word) : qVal q a = (a.truncate (q.k + 1)).toInt := by
  rw [qVal, BitVec.ofNat_toNat]

/-- `mac` and `msu` add the product, shifted to the binary point of the accumulator, or its negative (03 R83). -/
theorem setsAcc_mac {s : State} {i : Instr} {at_ : Issue} {k ra rb : Reg} (q : QFmt) (sub : Bool)
    (h : exec i s = .next (s.stage at_ (effMac q sub k ra rb)).settle) {v : Int}
    (hv : v = (acc s at_ k).toInt + if sub then -qProd q (g s at_ ra) (g s at_ rb) else qProd q (g s at_ ra) (g s at_ rb)) :
    SetsAcc s i at_ k v := by
  subst hv
  exact ⟨_, _, _, h, rfl⟩

/-- Every instruction of the table `accSum` sets the accumulator to the result of the table. -/
theorem setsAcc_of_accSum {s : State} {i : Instr} {at_ : Issue} {k : Reg} {v : Int} (h : accSum s i = some (at_, k, v)) :
    SetsAcc s i at_ k v := by
  unfold accSum at h
  split at h
  case h_1 => cases h; exact setsAcc_mac .q15 false rfl (by rw [qProd, qVal_eq, qVal_eq]; rfl)
  case h_2 => cases h; exact setsAcc_mac .q31 false rfl (by rw [qProd, qVal_eq, qVal_eq]; rfl)
  case h_3 => cases h; exact setsAcc_mac .q63 false rfl (by simp [qProd, qVal_eq, QFmt.k])
  case h_4 => cases h; exact setsAcc_mac .q15 true rfl (by rw [qProd, qVal_eq, qVal_eq]; rfl)
  case h_5 => cases h; exact setsAcc_mac .q31 true rfl (by rw [qProd, qVal_eq, qVal_eq]; rfl)
  case h_6 => cases h; exact setsAcc_mac .q63 true rfl (by simp [qProd, qVal_eq, QFmt.k, Int.sub_eq_add_neg])
  case h_7 => cases h; exact ⟨_, _, _, rfl, rfl⟩
  case h_8 => cases h

/-! ### Extraction -/

section Rounding
variable {rm sh : Nat} {v x r : Int}

/-- The quotient is v / 2^sh rounded where the mode asks for the value below, or the remainder r is 0 or on the lower side (03 R87). -/
theorem extRounded_floor (hv : r + 2 ^ sh * x = v) (h0 : 0 ≤ r) (h1 : r < 2 ^ sh) (hup : rm = 3 → v < 0 → r = 0)
    (hnear : rm = 1 → 2 * r < 2 ^ sh) (heven : rm = 2 → 2 * r ≤ 2 ^ sh ∧ (2 * r = 2 ^ sh → x % 2 = 0)) : ExtRounded rm v sh x := by
  refine ⟨fun _ => ⟨by linarith, by linarith⟩, fun ⟨h3, hneg⟩ => ?_, fun h => ?_, fun h => ?_⟩
  · have := hup h3 hneg
    exact ⟨by linarith, by linarith⟩
  · have := hnear h
    exact ⟨by linarith, by linarith⟩
  · obtain ⟨hle, htie⟩ := heven h
    refine ⟨by linarith, by linarith, fun ht => htie ?_⟩
    rcases ht with ht | ht <;> linarith

/-- Its successor is v / 2^sh rounded where the mode asks for the value above, or the remainder is on the upper side (03 R87). -/
theorem extRounded_ceil (hv : r + 2 ^ sh * x = v) (h0 : 0 < r) (h1 : r < 2 ^ sh) (hdown : rm ≠ 0 ∧ (rm = 3 → v < 0))
    (hnear : rm = 1 → 2 ^ sh ≤ 2 * r) (heven : rm = 2 → 2 ^ sh ≤ 2 * r ∧ (2 * r = 2 ^ sh → x % 2 = 1)) : ExtRounded rm v sh (x + 1) := by
  obtain ⟨hne, hneg⟩ := hdown
  refine ⟨fun h => ?_, fun _ => ⟨by linarith, by linarith⟩, fun h => ?_, fun h => ?_⟩
  · rcases h with h | ⟨h3, hnn⟩
    · exact absurd h hne
    · exact absurd (hneg h3) (by omega)
  · have := hnear h
    exact ⟨by linarith, by linarith⟩
  · obtain ⟨hle, htie⟩ := heven h
    refine ⟨by linarith, by linarith, fun ht => ?_⟩
    have : x % 2 = 1 := htie (by rcases ht with ht | ht <;> linarith)
    omega

/-- The model's rounding is that of the four modes (03 R87). -/
theorem extRounded_qRound (hrm : rm < 4) (hsh : 0 < sh) (v : Int) : ExtRounded rm v sh (qRound rm v sh) := by
  have hdbl : (2 : Int) ^ sh = 2 * 2 ^ (sh - 1) := (mul_pow_sub_one hsh.ne' 2).symm
  have hv := Int.emod_add_mul_ediv v (2 ^ sh)
  have h0 : 0 ≤ v % 2 ^ sh := Int.emod_nonneg _ (by positivity)
  have h1 : v % 2 ^ sh < 2 ^ sh := Int.emod_lt_of_pos _ (by positivity)
  unfold qRound
  dsimp only
  split_ifs with hr hm0 hm1 hhalf hm2 hhalf hneg
  · exact extRounded_floor hv h0 h1 (by omega) (by omega) (by omega)
  · exact extRounded_floor hv h0 h1 (by omega) (by omega) (by omega)
  · exact extRounded_ceil hv (by omega) h1 (by omega) (by omega) (by omega)
  · exact extRounded_floor hv h0 h1 (by omega) (by omega) (by omega)
  · exact extRounded_ceil hv (by omega) h1 (by omega) (by omega) (by omega)
  · exact extRounded_floor hv h0 h1 (by omega) (by omega) (by omega)
  · exact extRounded_ceil hv (by omega) h1 (by omega) (by omega) (by omega)
  · exact extRounded_floor hv h0 h1 (by omega) (by omega) (by omega)

end Rounding

theorem QFmt.k_le (q : QFmt) : q.k ≤ 63 := by cases q <;> decide

/-- The clamp of step 2 and its flag (03 R87). -/
theorem qExt_clamp (q : QFmt) (rm : Nat) (a : Acc) :
    (qExt q rm a).1.toInt = max (-(2 ^ q.k)) (min (qRound rm a.toInt (126 - q.k)) (2 ^ q.k - 1)) ∧
    ((qExt q rm a).2 = false ↔ -(2 ^ q.k) ≤ qRound rm a.toInt (126 - q.k) ∧ qRound rm a.toInt (126 - q.k) < 2 ^ q.k) := by
  have hone : (1 : Int) ≤ 2 ^ q.k := one_le_pow₀ (by decide)
  have htop : (2 : Int) ^ q.k ≤ 2 ^ 63 := pow_le_pow_right₀ (by decide) q.k_le
  have hword : ∀ y : Int, -(2 ^ q.k) ≤ y → y < 2 ^ q.k → (BitVec.ofInt 64 y).toInt = y := fun y hlo hhi =>
    BitVec.toInt_ofInt_eq_self (by decide) (by omega) (by omega)
  unfold qExt
  generalize qRound rm a.toInt (126 - q.k) = x
  dsimp only
  split_ifs with hhi hlo
  · rw [hword _ (by omega) (by omega)]
    exact ⟨by omega, by simp only [false_iff]; omega⟩
  · rw [hword _ (by omega) (by omega)]
    exact ⟨by omega, by simp only [false_iff]; omega⟩
  · rw [hword _ (by omega) (by omega)]
    exact ⟨by omega, by simp only [true_iff]; omega⟩

theorem flagFx_qExt (fx : Word) (q : QFmt) (rm : Nat) (a : Acc) :
    flagFx fx false (qExt q rm a).2 =
      if -(2 ^ q.k) ≤ qRound rm a.toInt (126 - q.k) ∧ qRound rm a.toInt (126 - q.k) < 2 ^ q.k then fx else putBits fx 8 8 1 := by
  simp only [← (qExt_clamp q rm a).2, flagFx]
  cases (qExt q rm a).2 <;> rfl

/-- Every instruction of the table `extract` stages an extraction in the format of the table. -/
theorem exec_of_extract {i : Instr} {at_ : Issue} {rd k : Reg} {n : Nat} (h : extract i = some (at_, rd, k, n)) (s : State) :
    ∃ q : QFmt, n = q.k ∧ exec i s = .next (s.stage at_ (effExt q rd k)).settle := by
  unfold extract at h
  split at h
  case h_1 => cases h; exact ⟨.q15, rfl, rfl⟩
  case h_2 => cases h; exact ⟨.q31, rfl, rfl⟩
  case h_3 => cases h; exact ⟨.q63, rfl, rfl⟩
  case h_4 => cases h

/-! ### The statements -/

/-- Settles O3: each divide of the table completes as a write of one register that may set PSW.DZ. -/
theorem divideResults : Obligations.DivideResults := by
  intro s i at_ rd b v h hr hl hb
  obtain ⟨f, signed, ra, rb, hx, rfl, rfl⟩ := exec_of_divide h
  obtain ⟨hexec, hseq, hval, hpsw, -, -⟩ := stage_g (ks := [0]) hr hl (quietSlot_effDivide f signed rd ra rb hb) rfl rfl rfl rfl
    (.inl (by simp)) (.inr rfl) (.inr ⟨rfl, rfl⟩)
  exact ⟨_, hx, hexec, hseq, hval, hpsw.trans (flagDz_divide _ _)⟩

/-- Settles O9: each sum of the table completes as a write of one accumulator with its true result modulo 2^160, and AOV tells whether
that is another number. -/
theorem accumulatorSums : Obligations.AccumulatorSums := by
  intro s i at_ k v h hr hl hslot hk
  obtain ⟨mk, time, srcs, hx, hm⟩ := setsAcc_of_accSum h
  obtain ⟨hexec, hseq, hval, hfx⟩ := stage_effAcc hr hl hslot hk hm (.inl (List.mem_singleton_self 2))
  exact ⟨_, hx, hexec, hseq, hval, hfx.trans (flagFx_accSet _ _)⟩

/-- Settles O12: the result of the model's extraction is the accumulator rounded and clamped, and SAT tells whether the clamp changed it. -/
theorem extractions : Obligations.Extractions := by
  intro s i at_ rd k n h hr hl hslot hk
  obtain ⟨q, rfl, hx⟩ := exec_of_extract h s
  have hsh : 0 < 126 - q.k := Nat.sub_pos_of_lt (by have := q.k_le; omega)
  have hround := extRounded_qRound (rm := bits (s.lp at_.lp).arch.fxcsr 1 0) (Nat.mod_lt _ (by decide)) hsh (acc s at_ k).toInt
  obtain ⟨hexec, hseq, hval, hfx⟩ := stage_effAccG (mk := effExt q rd k) hr hl hslot hk rfl (.inl (List.mem_singleton_self 2))
  exact ⟨_, _, hx, hexec, hseq, hround, fun h0 => (congrArg BitVec.toInt (hval h0)).trans (qExt_clamp ..).1, hfx.trans (flagFx_qExt ..)⟩

end Sys2Proof.Machine
end
